-- ==== Sys2Proof/Word.lean ====
section
/-! DEFINITION. The word types of the module and their plainest arithmetic (R4, R5). -/
namespace Sys2Proof

/-- One byte of any memory of the module. -/
abbrev Byte := BitVec 8
/-- A 32-bit word: a register, an FP32 pattern, a count. -/
abbrev W32 := BitVec 32
/-- A 64-bit word: an s register, an address of the host, an FP64 pattern. -/
abbrev W64 := BitVec 64
/-- A core instruction word (R237). -/
abbrev IWord := BitVec 128
/-- A tensor descriptor or a command header (R287, R142). -/
abbrev Desc := BitVec 256
/-- A host command entry of 64 bytes, byte 0 in bits [7:0] (R520). -/
abbrev Entry64 := BitVec 512

/-- Bits [hi:lo] of a word as a number (R4: a range includes both ends). -/
def bitsOf {w : Nat} (x : BitVec w) (hi lo : Nat) : Nat := (x.toNat >>> lo) % 2 ^ (hi + 1 - lo)

/-- Bit i of a word. -/
def bitOf {w : Nat} (x : BitVec w) (i : Nat) : Bool := x.getLsbD i

/-- A word with bits [hi:lo] replaced. -/
def setBits {w : Nat} (x : BitVec w) (hi lo v : Nat) : BitVec w :=
  let m := (2 ^ (hi + 1 - lo) - 1) <<< lo
  (x &&& ~~~(BitVec.ofNat w m)) ||| BitVec.ofNat w ((v % 2 ^ (hi + 1 - lo)) <<< lo)

end Sys2Proof
end

