-- ==== Sys2Proof/Syntax.lean ====
section
/-! DEFINITION. The commands of the block: one constructor per row of the spec's table of operations and events.
A core instruction carries its physical core and its whole 128-bit word (R237). An event carries the number of the unit it
happens in and what that unit observes (the outcome of a check, a received frame, a sensor reading). A host command
carries the port, the queue, the handle and the whole 64-byte entry (R517, R520). -/
namespace Sys2Proof

/-- What a check of the hardware observed in one scope (Table 15-1): the model computes what the check expects, the
environment says whether the hardware met it. -/
inductive CheckObs where
  /-- The check passed. -/
  | pass
  /-- The check failed with a KIND of CORE_CHK_STATUS; for KIND 1 the observed residue Q (R105, R106). -/
  | fail (kind : BitVec 4) (observed : BitVec 16)
deriving DecidableEq, Repr

/-- A frame's fate at the receiver of a link direction (R402, R409). -/
inductive FrameObs where
  /-- The codeword was corrected: the 512 B payload, byte 0 in bits [7:0]. -/
  | good (payload : BitVec 4096)
  /-- The codeword could not be corrected. -/
  | uncorrectable
deriving DecidableEq, Repr

/-- The part of a received frame header that its receiver acts on whatever the frame's type (Table 13-2). -/
structure FrameHeader where
  /-- FRAME: index of the frame within its transfer. -/
  frame : Nat
  /-- NAK_VALID with NAK. -/
  nak : Option Nat
  /-- CREDITS returned, 0 to 1,023. -/
  credits : Nat
  /-- Symbols that the code corrected in the frame (LST_FEC). -/
  corrected : Nat
deriving DecidableEq, Repr

/-- A control message of 32 B without its TYPE byte (R426): origin, bits [31:0] of the orbit number, 24 B of body. -/
structure CtlMsg where
  /-- ORIGIN module. -/
  origin : BitVec 11
  /-- Bits [31:0] of the orbit number. -/
  orbit : BitVec 32
  /-- Bytes 8 to 31, byte 8 in bits [7:0]. -/
  body : BitVec 192
deriving DecidableEq, Repr

/-- A received marker with its time of receipt (Table 13-4, R411). -/
structure MarkerIn where
  /-- SEND_TIME: the sender's job time. -/
  sendTime : W64
  /-- ECHO_SEND. -/
  echoSend : W64
  /-- ECHO_RECV. -/
  echoRecv : W64
  /-- MODULE, LINK, STATE (time state and depth). -/
  peerModule : BitVec 11
  peerLink : BitVec 6
  peerState : BitVec 3
  peerDepth : BitVec 4
  /-- DIGEST: bits [63:0] of the peer's plan digest. -/
  digest : W64
  /-- EPOCH of the peer. -/
  epoch : BitVec 40
  /-- Job time of this module when the marker arrived, in sixteenths of a nanosecond. -/
  recvTime : W64
  /-- The tag of the control slot that the marker opens does not hold under the link's key (R407). -/
  tagBad : Bool
deriving DecidableEq, Repr

/-- A key-exchange record as received (Table 18-9). -/
structure KeyxIn where
  /-- Bytes 1 to 6 of the record. -/
  module : BitVec 11
  link : BitVec 6
  peerModule : BitVec 11
  peerLink : BitVec 6
  /-- Some reserved byte is nonzero (R555). -/
  reservedNonzero : Bool
  /-- EPH_PUB, 97 B. -/
  ephPub : BitVec 776
  /-- HMAC, 48 B. -/
  hmac : BitVec 384
deriving DecidableEq, Repr

/-- The temperature sensors of one half, the hottest of each kind in degrees C (Table 19-4, PWR_TEMP). -/
structure Temps where
  cda : Int
  cdb : Int
  io : Int
  hbm : Int
  t2 : Int
  inlet : Int
deriving DecidableEq, Repr

/-- The input meter: voltage in millivolts, current in units of 10 mA, mean power of the last 100 µs in watts (PWR_INPUT). -/
structure MeterIn where
  vinMv : BitVec 16
  iin10ma : BitVec 16
  meanW : BitVec 16
deriving DecidableEq, Repr

/-- The commands of the block. -/
inductive Instr where
  -- the matrix array
  | wload (core : Fin 128) (w : IWord)
  | shadowSetValid (core : Fin 128)
  | wswap (core : Fin 128) (w : IWord)
  | weightSetExchange (core : Fin 128)
  | stream (core : Fin 128) (w : IWord)
  | arrayStep (core : Fin 128)
  | mergeDelivery (core : Fin 128)
  | windowDrain (core : Fin 128) (obs : CheckObs)
  | checkRepeat (unit : BitVec 16) (obs : CheckObs)
  | streamComplete (core : Fin 128)
  | drain (core : Fin 128) (w : IWord)
  -- vector unit, moves and control queue
  | vopVector (core : Fin 128) (w : IWord) (failGroup : Option Nat)
  | vopScalar (core : Fin 128) (w : IWord)
  | move (core : Fin 128) (w : IWord)
  | moveToSreg (core : Fin 128) (w : IWord)
  | mcast (core : Fin 128) (w : IWord)
  | mcastMemberDelivery (core : Fin 128) (member : Fin 128)
  | dmake (core : Fin 128) (w : IWord)
  | gather (core : Fin 128) (w : IWord)
  | scatter (core : Fin 128) (w : IWord)
  | merge (core : Fin 128) (w : IWord)
  | take (core : Fin 128) (w : IWord)
  | takeResult (core : Fin 128)
  | signal (core : Fin 128) (w : IWord)
  | signalArrival (nth : Nat)
  | wait (core : Fin 128) (w : IWord)
  | fence (core : Fin 128) (w : IWord)
  | checkArray (core : Fin 128) (w : IWord)
  | checkRegion (core : Fin 128) (w : IWord)
  | checkImem (core : Fin 128) (w : IWord)
  | ctxsaveYield (core : Fin 128) (w : IWord)
  | ctxsaveArea (core : Fin 128) (w : IWord)
  | ctxrestore (core : Fin 128) (w : IWord)
  | halt (core : Fin 128) (w : IWord)
  | counterBankReload (die : Fin 4) (parity : Bool)
  -- Coma commands: the command at the head of the engine's queue
  | gatherRows (engine : Fin 32) (mismatch : Bool)
  | gatherSeq (engine : Fin 32) (mismatch : Bool)
  | gatherCols (engine : Fin 32) (mismatch : Bool)
  | route (engine : Fin 32) (mismatch : Bool)
  | seqload (engine : Fin 32) (mismatch : Bool)
  | scatterRows (engine : Fin 32) (mismatch : Bool)
  | scatterSlot (engine : Fin 32) (mismatch : Bool)
  | scatterCols (engine : Fin 32) (mismatch : Bool)
  | mergeBind (engine : Fin 32) (mismatch : Bool)
  | mergeUnbind (engine : Fin 32) (mismatch : Bool)
  | slotsum (engine : Fin 32) (mismatch : Bool)
  | audit (engine : Fin 32) (mismatch : Bool)
  | auditClose (engine : Fin 32) (mismatch : Bool)
  -- memory-side units
  | msuListStart (msu : Fin 16) (sem : Fin 16)
  | update (msu : Fin 16) (mismatch : Bool)
  | updateVec (msu : Fin 16) (mismatch : Bool)
  | smul (msu : Fin 16) (mismatch : Bool)
  | updatePass2 (msu : Fin 16) (mismatch : Bool)
  | normDeadline
  -- orbits
  | orbitStart
  | orbitEnd
  | orbitCompletion
  -- the fabric
  | linkTick (link : Fin 48)
  | sendStart (io : Fin 2) (entry : Nat)
  | dataFrame (link : Fin 48) (hdr : FrameHeader) (obs : FrameObs)
  | trailerFrame (link : Fin 48) (hdr : FrameHeader) (obs : FrameObs)
  | retryFrame (link : Fin 48) (hdr : FrameHeader) (obs : FrameObs)
  | beDataFrame (link : Fin 48) (hdr : FrameHeader) (obs : FrameObs)
  | beTrailerFrame (link : Fin 48) (hdr : FrameHeader) (obs : FrameObs)
  | transferMissed (io : Fin 2) (entry : Nat)
  | regionRelease (io : Fin 2) (entry : Nat)
  | controlSlot
  | timeMarker (link : Fin 48) (m : MarkerIn)
  | timeHoldover
  | timeLost
  | linkUp (link : Fin 48) (rttTicks : BitVec 8)
  | linkTrainingFail (link : Fin 48)
  | linkDown (link : Fin 48)
  | keyx (link : Fin 48) (k : KeyxIn)
  | vote (link : Fin 48) (m : CtlMsg)
  | void (link : Fin 48) (m : CtlMsg)
  | retract (link : Fin 48) (m : CtlMsg)
  | commit (link : Fin 48) (m : CtlMsg)
  -- gradient reduction
  | bucketStage (bucket : Nat)
  | encodeCompare (bucket : Nat) (block : Nat) (mismatch : Bool) (again : Bool)
  | contribReceive (io : Fin 2) (entry : Nat)
  | correctReceive (io : Fin 2) (entry : Nat)
  | reducedReceive (io : Fin 2) (entry : Nat)
  | normRecordReceive (io : Fin 2) (entry : Nat)
  | bucketFinalise (bucket : Nat) (mismatch : Option Nat)
  | voteTick
  | voteClose
  -- watchdogs, recovery and health
  | coreWatchdog (core : Fin 128)
  | comaWatchdog (engine : Fin 32) (waiting : Bool)
  | msuWatchdog (msu : Fin 16) (waiting : Bool)
  | cpWatchdog (half : Fin 2)
  | cpHeartbeat (half : Fin 2)
  | halfHeartbeat (half : Fin 2)
  | separation
  | domainDrainEnd (forced : Bool) (drainUs : Nat)
  | domainResetComplete (resetUs : Nat)
  | escalation
  | hotWindow (msu : Fin 16)
  | healthWindowExpiry (unit : BitVec 16)
  | healthFlush
  | errorRecordDelivery (io : Fin 2)
  -- sessions
  | openKey (port queue : Fin 2) (handle : W32) (e : Entry64)
  | openSecret (port queue : Fin 2) (handle : W32) (e : Entry64)
  | claim (port queue : Fin 2) (handle : W32) (e : Entry64)
  | close (port queue : Fin 2) (handle : W32) (e : Entry64)
  | rotate (port queue : Fin 2) (handle : W32) (e : Entry64)
  | release (port queue : Fin 2) (handle : W32) (e : Entry64)
  -- host commands
  | loadPlan (port queue : Fin 2) (handle : W32) (e : Entry64)
  | startOrbits (port queue : Fin 2) (handle : W32) (e : Entry64)
  | writeStepSize (port queue : Fin 2) (handle : W32) (e : Entry64)
  | memTransferWrite (port queue : Fin 2) (handle : W32) (e : Entry64)
  | memTransferRead (port queue : Fin 2) (handle : W32) (e : Entry64)
  | queryIdentity (port queue : Fin 2) (handle : W32) (e : Entry64)
  | querySpdm (port queue : Fin 2) (handle : W32) (e : Entry64)
  | queryState (port queue : Fin 2) (handle : W32) (e : Entry64)
  | queryRegisters (port queue : Fin 2) (handle : W32) (e : Entry64)
  | queryHealth (port queue : Fin 2) (handle : W32) (e : Entry64)
  | queryErrors (port queue : Fin 2) (handle : W32) (e : Entry64)
  | resetDomain (port queue : Fin 2) (handle : W32) (e : Entry64)
  | enterUmbra (port queue : Fin 2) (handle : W32) (e : Entry64)
  | leaveUmbra (port queue : Fin 2) (handle : W32) (e : Entry64)
  -- the adapter and the Efmus ports
  | sqDoorbell (port queue : Fin 2) (tail : BitVec 32) (ringFails : Bool)
  | cqHeadWrite (port queue : Fin 2) (head : BitVec 32)
  | queueEnable (port queue : Fin 2) (value ack cq : W64)
  | completionRecord (port : Fin 2)
  | efmusPortUp (port : Fin 2)
  | efmusPortDown (port : Fin 2)
  | portLinkLost (port : Fin 2)
  | resetHoldTimeout (port : Fin 2)
  -- management commands through Moonlet
  | setCap (capW : Nat)
  | emergencyCap (capW : Nat)
  | setHealth (histLimit histWindow memLimit : Nat)
  | setWatchdog (coreMs ceMs msuMs cpMs : Nat)
  | unitReturn (unit : BitVec 16) (level : BitVec 2)
  | debugToken (token : BitVec 2560)
  | debugExpiry
  | wake
  | moduleReset
  | readCrash (sequence : W32)
  | readErrors (sequence : W32)
  | regWrite (addr : W32) (value mask : W64)
  | satCountClear (core : Fin 128)
  | hotClear (msu : Fin 16)
  | segFaultClear (unit : Fin 6)
  | spdmRequest (request : List Byte)
  | firmwareUpdate (io : Fin 2) (isCp : Bool) (image : List Byte)
  -- power, reset and pins
  | inputOn
  | railRelease
  | primaryClaim (selA selB : Bool)
  | secureBoot
  | powerUpReady
  | pwrEnRise
  | powerDown
  | brownOut
  | overvoltage
  | resetInN
  | railCycleDone
  | powerControlTick (half : Fin 2) (drawW : Nat) (temps : Temps) (meter : MeterIn)
  | budgetDivide (drawN drawS : Nat)
  | thermalTrip
  | coolingIdChange (code : BitVec 3)
  | moveCompletion (core : Fin 128)
  | vopCompletion (core : Fin 128)
  | idleFrame (link : Fin 48) (hdr : FrameHeader)
  | resetInNRise
  | eventAcknowledge
deriving DecidableEq, Repr

end Sys2Proof
end

