-- ==== Sys2Proof/Config.lean ====
section
/-! DEFINITION. What the spec leaves open. Each value here is an opaque constant: nothing can be proved of its value, so a
claim about the model holds whatever the hardware produces. Each is applied to the counter `Dev.free` of the state, which a
command that draws a value advances, or to the operands it depends on. -/
namespace Sys2Proof

/-- A fresh word of random or unstated bits: contents of a residue area after a failed load (R124), keys and nonces that
random generators draw (R353, R540), values that the spec states no result for. -/
opaque Config.freeNat : Nat → Nat

/-- An unstated byte of memory: draw number and address. -/
opaque Config.freeByte : Nat → Nat → BitVec 8

/-- A verdict of the plan verifier's static analyses (Table 10-9 checks 12 and 13), on the digest of the image: none when
the image passes, otherwise section, die and item of the first failing item. -/
opaque Config.staticVerdict : Nat → BitVec 384 → Option (Nat × Nat × Nat)

/-- DeviceID private key of an IO die, from its fused secret; the spec does not state the derivation (R539). -/
opaque Config.deviceKey : BitVec 256 → Nat

/-- Alias private key of an IO die, from its fused secret and the SHA-384 digests of its two firmware images (R539). -/
opaque Config.aliasKey : BitVec 256 → List (BitVec 8) → List (BitVec 8) → Nat

/-- Whether a firmware image verifies under Bamkar's firmware key, and then its security version; the spec gives neither
the key nor the image's format (R542). -/
opaque Config.imageVersion : List (BitVec 8) → Option Nat

/-- Bamkar's public key for debug tokens, 97 B; the spec does not give it (R558). -/
opaque Config.bamkarDebugPub : List (BitVec 8)

/-- The SPDM 1.3 response: draw number, the request, and the eight measured values (R541, Table 18-3). SPDM's own message
forms are another standard's, and its signatures hold random numbers. -/
opaque Config.spdmReply : Nat → List (BitVec 8) → List (List (BitVec 8)) → List (BitVec 8)

end Sys2Proof
end

