-- ==== Sys2Proof/Machine/Bank.lean ====
section
/-! DEFINITION. Sparse total maps keyed by numbers, in one canonical form: the carrier of register files, tables, poison
marks and memories. A `Bank` lists only the keys whose value differs from its default, in strictly rising order, so that
equal maps are equal data. -/
namespace Sys2Proof.Machine

/-- A total map from numbers: `dflt` everywhere but at the listed keys. -/
structure Bank (α : Type) where
  dflt : α
  cells : List (Nat × α)
deriving DecidableEq, Repr

/-- The value of key `k` in a list of cells, `d` where none is listed. -/
def cellGet {α : Type} (d : α) (k : Nat) : List (Nat × α) → α
  | [] => d
  | (k', v) :: r => if k' = k then v else cellGet d k r

/-- Remove every cell of key `k`. -/
def cellDrop {α : Type} (k : Nat) : List (Nat × α) → List (Nat × α)
  | [] => []
  | (k', v) :: r => if k' = k then cellDrop k r else (k', v) :: cellDrop k r

/-- Insert a cell before the first larger key. -/
def cellInsert {α : Type} (k : Nat) (v : α) : List (Nat × α) → List (Nat × α)
  | [] => [(k, v)]
  | (k', v') :: r => if k < k' then (k, v) :: (k', v') :: r else (k', v') :: cellInsert k v r

/-- Write key `k`: the canonical form lists no cell equal to the default `d`. -/
def cellSet {α : Type} [DecidableEq α] (d : α) (k : Nat) (v : α) (l : List (Nat × α)) : List (Nat × α) :=
  if v = d then cellDrop k l else cellInsert k v (cellDrop k l)

/-- Remove every cell whose key lies from `lo` up to but not including `hi`. -/
def cellClear {α : Type} (lo hi : Nat) : List (Nat × α) → List (Nat × α)
  | [] => []
  | (k, v) :: r => if lo ≤ k ∧ k < hi then cellClear lo hi r else (k, v) :: cellClear lo hi r

/-- The canonical form of a list of cells: keys strictly rising (all above `lo`), no value equal to the default. -/
def cellsWf {α : Type} [DecidableEq α] (d : α) : Option Nat → List (Nat × α) → Bool
  | _, [] => true
  | none, (k, v) :: r => decide (v ≠ d) && cellsWf d (some k) r
  | some lo, (k, v) :: r => decide (lo < k) && decide (v ≠ d) && cellsWf d (some k) r

/-- The map that is `d` everywhere. -/
def Bank.const {α : Type} (d : α) : Bank α := ⟨d, []⟩

def Bank.get {α : Type} (b : Bank α) (k : Nat) : α := cellGet b.dflt k b.cells

def Bank.set {α : Type} [DecidableEq α] (b : Bank α) (k : Nat) (v : α) : Bank α :=
  { b with cells := cellSet b.dflt k v b.cells }

/-- Change the value at one key by a function. -/
def Bank.upd {α : Type} [DecidableEq α] (b : Bank α) (k : Nat) (f : α → α) : Bank α := b.set k (f (b.get k))

/-- Return the keys of a range to the default. -/
def Bank.clear {α : Type} (b : Bank α) (lo hi : Nat) : Bank α := { b with cells := cellClear lo hi b.cells }

/-- A bank whose listed cells are `l` from key `k` on. -/
def Bank.putList {α : Type} [DecidableEq α] (b : Bank α) (k : Nat) : List α → Bank α
  | [] => b
  | v :: r => (b.set k v).putList (k + 1) r

/-- Canonical form. -/
def Bank.wf {α : Type} [DecidableEq α] (b : Bank α) : Bool := cellsWf b.dflt none b.cells

/-- Values of `n` keys from `k` on. -/
def Bank.getList {α : Type} (b : Bank α) (k : Nat) : Nat → List α
  | 0 => []
  | n + 1 => b.get k :: b.getList (k + 1) n

/-- Apply a function to every listed value (the default goes through it too). -/
def Bank.mapVals {α β : Type} [DecidableEq β] (f : α → β) (b : Bank α) : Bank β :=
  b.cells.foldl (fun acc c => acc.set c.1 (f c.2)) (Bank.const (f b.dflt))

end Sys2Proof.Machine
end

