-- ==== Sys2Proof/Machine/TypesCore.lean ====
section
/-! DEFINITION. The data types of the cores, the Coma engines, the dies and the memories: one structure per unit, each field
named after the register, queue or table of the spec that it holds. -/
namespace Sys2Proof.Machine

/-- Sparse table of bytes, the memory of the whole module in one address space (see Ops: spBase and its neighbours).
An unlisted byte reads 0. -/
abbrev Mem := List Host.Cell

/-- The memories with what stands beside them (R224, R343, R346, R355, R356, R361). -/
structure MemSys where
  /-- Every byte of scratchpads, die buffers, instruction memories, tier 1, tier 2 and of the host memory that rings and
  transfers name. -/
  mem : Mem
  /-- Poison marks, keyed by the first address of their granule (Table 7-5). -/
  poison : Bank Bool
  /-- The written bits of tier 1, keyed by the first address of the 4 KiB granule (R355). -/
  written : Bank Bool
  /-- The tier-2 lines whose tag holds under the tier-2 key in force, keyed by the line's first address (R361, R362). -/
  tagged : Bank Bool
  /-- Words that hold one flipped bit (R343, R243, R356), keyed by their first address. -/
  flip1 : Bank Bool
  /-- Words that hold an uncorrectable error, keyed by their first address. -/
  flip2 : Bank Bool
deriving DecidableEq, Repr

/-- Kind of a descriptor register (R241). -/
inductive DKind where
  | tensor
  | header
deriving DecidableEq, Repr

/-- A d register: valid bit, kind and 256 bits (R241, R287). -/
structure DReg where
  valid : Bool
  kind : DKind
  bits : Desc
deriving DecidableEq, Repr

/-- Where a logical core stands in its orbit (R219, R228, R230). -/
inductive Phase where
  /-- Bound, and has not started the orbit it is owed. -/
  | notStarted
  /-- Runs on its physical core. -/
  | running
  /-- Waits at a WAIT for a semaphore count, on its physical core. -/
  | waiting (sem count : Nat)
  /-- Saved to its context area at a WAIT. -/
  | yieldedWait (sem count : Nat)
  /-- Saved to its context area at a CTXSAVE. -/
  | yielded
  /-- Halted its orbit. -/
  | halted
  /-- Stopped in its orbit with a status (R226, R228). -/
  | stopped (code : Byte)
deriving DecidableEq, Repr

/-- A logical core: binding entry (Table 10-3), sequencer state (Table 7-2) and where it stands. -/
structure LCore where
  /-- The installed plan binds this logical core. -/
  bound : Bool
  /-- Physical core 0 to 127 under the current binding (R209). -/
  phys : Nat
  /-- GATHER of the binding entry. -/
  gather : Bool
  entry : Nat
  param : W64
  /-- SEM_INIT, semaphore i at key i. -/
  semInit : Bank (BitVec 16)
  /-- s0 to s63. -/
  s : Bank W64
  /-- Poison bits of s0 to s63. -/
  sPoison : Bank Bool
  /-- d0 to d15. -/
  d : Bank DReg
  pc : Nat
  /-- Semaphores: bank b, semaphore i at key 32 b + i (R218). -/
  sems : Bank (BitVec 16)
  phase : Phase
  /-- Orbit number the logical core runs or last ran. -/
  orbit : Nat
  /-- A later orbit whose start slot has passed while this one was not over (R233). -/
  owed : Option Nat
  /-- Instructions issued so far: the program order of outstanding work (R216, R220). -/
  seq : Nat
  /-- MODEL's own: orbits ended since the plan load (R368). -/
  ends : Nat
deriving DecidableEq, Repr

/-- Who issued a queued instruction: logical core, its orbit, the program order and the instruction index. -/
structure Issuer where
  lc : Nat
  orbit : Nat
  seq : Nat
  pc : Nat
deriving DecidableEq, Repr

/-- An entry of the array queue with its operands as latched at issue (R215, R338). -/
structure ArrayEntry where
  who : Issuer
  word : IWord
  /-- s[TSREG] or s[PREG]. -/
  v0 : W64
  /-- s[SHAPE]. -/
  v1 : W64
  /-- Poison of the s register read as data. -/
  vPoison : Bool
  /-- WDESC, ADESC or BDESC. -/
  da : Desc
  /-- RDESC, PDESC or SDESC. -/
  db : Desc
  /-- ODESC or TDESC. -/
  dc : Desc
deriving DecidableEq, Repr

/-- A weight set (R75, R76, Table 10-12). -/
structure WeightSet where
  /-- Format code; 0 marks a set as a core reset leaves it (R80). -/
  format : Nat
  compressed : Bool
  valid : Bool
  poison : Bool
  /-- Tile scale, FP32. -/
  tw : W32
  resTotal : Nat
  /-- Address of the residue area in the scratchpad's address order, and the swizzle it is read under. -/
  resArea : Nat
  resSwizzle : Nat
  /-- Cell (p, n) at key 512 p + n: element in [15:0], select in [17:16]. -/
  cells : Bank (BitVec 18)
  /-- Scale byte b of column n at key 16 n + b. -/
  scales : Bank Byte
  /-- Row residue of physical row p, line j at key 4 p + j (R104). -/
  rho : Bank (BitVec 16)
deriving DecidableEq, Repr

/-- A WLOAD that is loading (R79, R81). -/
structure LoadJob where
  who : Issuer
  set : WeightSet
  /-- Residue entries the expansion produced (R121). -/
  residue : List W64
  /-- Reads its tile through the transposing staging buffer. -/
  trans : Bool
deriving DecidableEq, Repr

/-- Drain epilogue state (Table 8-9, R255). -/
structure Epilogue where
  func : Nat
  /-- PREG as latched. -/
  preg : W64
  bias : Option Desc
  save : Nat
  sdesc : Desc
  /-- PREG or the segment table it uses carried poison (R225). -/
  poison : Bool
deriving DecidableEq, Repr

/-- What a window met of Table 2-3. -/
inductive Special where
  | none
  | nan
  | posInf
  | negInf
deriving DecidableEq, Repr

/-- An open column window (R53, R89, Table 10-13). -/
structure Win where
  /-- W, exact two's complement of 80 bits. -/
  w : BitVec 80
  /-- S. -/
  sticky : Bool
  /-- A. -/
  anchor : Int
  /-- Merged contributions still due. -/
  due : Nat
  special : Special
deriving DecidableEq, Repr

/-- A step with open windows (R73, R89). -/
structure OpenStep where
  /-- Identifier of the STREAM it belongs to. -/
  stream : Nat
  /-- Step index within the STREAM. -/
  idx : Nat
  /-- Destination row: the index, or the tag of a feeder step (R101). -/
  row : Nat
  /-- Activation elements by logical row, and their scale bytes by block. -/
  acts : Bank (BitVec 16)
  ascales : Bank Byte
  /-- Windows of the low pass at key n, of the high pass of DK at key 512 + n. -/
  wins : Bank Win
  /-- C of the checksum column so far (R104), and the sum over the columns of L and of minus K (R105). -/
  check : Nat
  lostSum : Nat
  poison : Bool
deriving DecidableEq, Repr

/-- A STREAM that has started (R73, R253). -/
structure StreamRun where
  id : Nat
  who : Issuer
  entry : ArrayEntry
  /-- Mode code of Table 3-1. -/
  mode : Nat
  m : Nat
  n : Nat
  k : Nat
  /-- The epilogue state in force when it started, 0 or 1. -/
  epi : Nat
  /-- Steps started so far. -/
  next : Nat
  /-- Steps drained so far. -/
  drained : Nat
  /-- With FEED: tag after the last taken of each row (0 for none), and finished rows (R100, R102). -/
  lastTag : Bank Nat
  finished : Bank Bool
  /-- With FEED: the engine signalled a failure; the STREAM ends at the first step it has not started (R592). -/
  feedFail : Bool
  /-- No further step starts. -/
  ended : Bool
  /-- Stopped by a failed check until its repeat (R106). -/
  held : Bool
  /-- Its activation source, active weight set, partial-sum source or saved form carried poison (R96, R195). -/
  poison : Bool
  status : Byte
deriving DecidableEq, Repr

/-- An entry of the hand-off queue: the FP32 results of one step (R95). -/
structure HandOff where
  vals : Bank W32
  poison : Bool
deriving DecidableEq, Repr

/-- A VOP on vectors in the vector queue. -/
structure VecRun where
  who : Issuer
  word : IWord
  sval : W64
  sPoison : Bool
  dd : Desc
  da : Desc
  db : Desc
  dc : Desc
  /-- The group whose check fails, if one does (R590). -/
  failGroup : Option Nat
  /-- DDST rows written so far: with HANDOFF it takes one queue entry per row. -/
  rows : Nat
  done : Bool
  held : Bool
  status : Byte
deriving DecidableEq, Repr

/-- One byte of a write with the bits it changes. -/
structure WItem where
  addr : Nat
  mask : Byte
  val : Byte
deriving DecidableEq, Repr

/-- A MOVE or MCAST in the move queue. -/
structure MoveRun where
  who : Issuer
  word : IWord
  ds : Desc
  dd : Desc
  /-- The head has read its source: a MOVE has copied, an MCAST holds what its members receive. -/
  started : Bool
  /-- What an MCAST read once from DSRC, as a write to the issuer's own scratchpad. -/
  items : List WItem
  poison : Bool
  /-- Members of an MCAST's group still to be served. -/
  members : List Nat
deriving DecidableEq, Repr

/-- A TAKE whose result has not been written (R278). -/
structure TakeRun where
  who : Issuer
  dst : Nat
  value : W32
  word : IWord
deriving DecidableEq, Repr

/-- What a failed check of a core repeats (R469, Table 15-1). -/
inductive RepeatScope where
  /-- One step of a STREAM (R107). -/
  | step (stream idx : Nat)
  /-- One group of a VOP (R590). -/
  | group (g : Nat)
  /-- The array CHECK (R108). -/
  | array
deriving DecidableEq, Repr

/-- A physical core (Table 1-2). -/
structure Core where
  /-- CONTEXT: logical core running or last run. -/
  lc : Nat
  /-- A logical core occupies the core. -/
  occupied : Bool
  /-- CORE_SEQ_STATUS: STOP_CODE, POISON_CTRL, FAULT, and the PC last shown. -/
  stopCode : Byte
  poisonCtrl : Bool
  fault : Bool
  /-- A context switch is in progress. -/
  switching : Bool
  arrayQ : List ArrayEntry
  active : WeightSet
  shadow : WeightSet
  load : Option LoadJob
  streams : List StreamRun
  nextStream : Nat
  steps : List OpenStep
  epi0 : Epilogue
  epi1 : Epilogue
  /-- The epilogue state that the next STREAM uses. -/
  curEpi : Nat
  /-- The loaded segment table, 32 B entries (R192), and TABLE_SEGS. -/
  segTable : Bank (BitVec 256)
  tableSegs : Nat
  handoff : List HandOff
  /-- Feeder row queues by physical row, scale queues by 32-row block (R99).
  Bit 32 of an entry is the poison that travels with it (Table 7-5). -/
  rowQ : Bank (List (BitVec 33))
  scaleQ : Bank (List (BitVec 33))
  vecQ : List VecRun
  moveQ : List MoveRun
  takes : List TakeRun
  pendingRepeat : Option RepeatScope
  /-- CORE_STEP_COUNT. -/
  stepCount : W32
  /-- CORE_CHK_STATUS and CORE_CHK_RESID. -/
  chkStatus : W32
  chkResid : W32
  /-- CORE_NUM_STATUS: SAT_COUNT and flags. -/
  satCount : Nat
  fp32Ovf : Bool
  infSeen : Bool
  nanSeen : Bool
  stickySeen : Bool
  /-- CORE_BWD_STATUS flags and CORE_TSB_INEXACT. -/
  tableErr : Bool
  markerSeen : Bool
  tsbInexact : Nat
  /-- CORE_SP_ECC. -/
  eccUncorr : Nat
  eccCorr : Nat
  /-- Corrected instruction-memory words (R243). -/
  imemCorr : Nat
  /-- CORE_WDOG_STATUS (R493). -/
  wdog : W32
  /-- The core domain is fenced (R497). -/
  fenced : Bool
  /-- Retired (R477). -/
  retired : Bool
deriving DecidableEq, Repr

/-- A Coma command in an engine's queue (R140, R144). -/
structure ComaCmd where
  who : Issuer
  /-- Order of submission over the module (R156). -/
  ord : Nat
  hdr : Desc
  opa : Option Desc
  opb : Option Desc
  opc : Option Desc
deriving DecidableEq, Repr

/-- A merge binding (R167): core, SHARE, and the residue entries in the store for its active and shadow sets. -/
structure Binding where
  core : Nat
  share : Nat
  active : Option (List W64)
  shadow : Option (List W64)
deriving DecidableEq, Repr

/-- The entries of one step of a FEED command (Table 3-8, R591): (physical row, row entry) and (block, scale entry). -/
structure FeedStep where
  tag : Nat
  rows : List (Nat × W32)
  blocks : List (Nat × W32)
deriving DecidableEq, Repr

/-- The FEED command that holds its engine's queue (R145, R152). -/
structure FeedRun where
  /-- Run-time K the consuming STREAM sent. -/
  k : Nat
  /-- Steps the engine replied with. -/
  steps : Nat
  /-- The engine has formed its entries. -/
  formed : Bool
  /-- Steps whose entries have not entered the feeder queues yet, and the poison that travels with them (R148). -/
  left : List FeedStep
  poison : Bool
  /-- Status of the command (R143, R150, R151, R592). -/
  status : Byte
deriving DecidableEq, Repr

/-- A Coma engine (R174). -/
structure Coma where
  queue : List ComaCmd
  bindings : List Binding
  feed : Option FeedRun
  lastStatus : Byte
  lastOp : Byte
  /-- Rows or entries that the last command produced (R146). -/
  lastCount : Nat
  parityErr : Bool
  cmdError : Bool
  routeDrops : Nat
  auditPairs : Nat
  auditHits : Nat
  /-- A command failed its duplicated compare and is to be repeated (R149). -/
  pendingRepeat : Bool
  fenced : Bool
  retired : Bool
deriving DecidableEq, Repr

/-- A dispatch counter (R320, Table 10-4). -/
structure Counter where
  used : Bool
  init : W32
  bank0 : W32
  bank1 : W32
deriving DecidableEq, Repr

/-- Five audit counts of an accumulator slot (R173). -/
structure AuditSlot where
  skipped : Nat
  sampled : Nat
  pairs : Nat
  hits : Nat
  colsHit : Nat
deriving DecidableEq, Repr

/-- Shape-limit entry (Table 10-6). -/
structure ShapeLimit where
  mmax : Nat
  nmax : Nat
  kmax : Nat
deriving DecidableEq, Repr

/-- Per-die state (Table 1-2, R155, R173, R320). -/
structure Die where
  counters : Bank Counter
  /-- Member bits of each multicast group. -/
  groups : Bank (BitVec 128)
  limits : Bank ShapeLimit
  /-- Words in the code image; the words themselves stand in memory. -/
  codeLen : Nat
  /-- Sequence table, 128-bit entries. -/
  seqTable : Bank (BitVec 128)
  slots : Bank AuditSlot
deriving DecidableEq, Repr

/-- SEG_FAULT_STATUS and SEG_FAULT_OFFSET of a segment unit (R315): compute dies 0 to 3, IOA 4, IOB 5. -/
structure SegFault where
  segment : Nat
  kind : Nat
  source : Nat
  offset : Nat
  more : Bool
  fault : Bool
deriving DecidableEq, Repr

/-- An increment on its way to a semaphore (R220, R279). -/
structure SigFlight where
  /-- Issuing logical core and program order, or none for a unit's own completion signal. -/
  src : Option Issuer
  /-- Bank addressed: bit 0 of the issuing unit's orbit. -/
  orbit : Nat
  /-- 0 logical core, 1 MSU, 2 orbit controller. -/
  kind : Nat
  num : Nat
  sem : Nat
  inc : Nat
  /-- A pass-2 completion signal waits until its logical core has ended this many orbits (R368). -/
  after : Nat
deriving DecidableEq, Repr

end Sys2Proof.Machine
end

