-- ==== Sys2Proof/Machine/TypesFabric.lean ====
section
/-! DEFINITION. The data types of the fabric: link schedule tables, links, transfers, the time base, control traffic, the
norm exchange and the gradient reduction (chapters 12, 13 and 14 of the spec). -/
namespace Sys2Proof.Machine

/-- Section 0x10 of one IO die as installed (R417, Tables 13-6 and 13-7). -/
structure SchedPlan where
  /-- ORBIT_TICKS, RTT_MAX_TICKS and ROOT. -/
  orbitTicks : Nat
  rttMax : Nat
  root : Nat
  /-- Module set s at key s, bit m for module m. -/
  sets : Bank (BitVec 2048)
  /-- Topology entry 24 m + L. -/
  topo : Bank W32
  /-- Time table entry of each module. -/
  times : Bank W32
  entries : Bank (BitVec 256)
  count : Nat
deriving DecidableEq, Repr

/-- A marker as sent (Table 13-4). -/
structure Marker where
  sendTime : W64
  echoSend : W64
  echoRecv : W64
  module : BitVec 11
  link : BitVec 6
  state : BitVec 3
  depth : BitVec 4
  digest : W64
  epoch : BitVec 40
deriving DecidableEq, Repr

/-- A fabric link (R404 to R411, R554, LST_ registers). -/
structure Link where
  /-- 0 DOWN, 1 TRAINING, 2 UP, 3 FAILED. -/
  state : Nat
  /-- Trainings failed in a row. -/
  trainFails : Nat
  /-- RTT_TICKS, as measured at training. -/
  rtt : Nat
  /-- The link has left UP in an orbit and stays DOWN until its domain is reset (R404). -/
  stuck : Bool
  /-- The peer as its newest marker reports it: a marker has come, module, link, DIGEST. -/
  heard : Bool
  peerModule : Nat
  peerLink : Nat
  peerDigest : W64
  /-- SEND_TIME and time of receipt of the last marker received, echoed in the next. -/
  echoSend : W64
  echoRecv : W64
  /-- A complete exchange has come since the last control slot. -/
  marked : Bool
  /-- One-way delay of the newest exchange, sixteenths of a nanosecond (R411). -/
  delay : Nat
  /-- Keys of the two directions: sending, receiving; none until they are installed (R554). -/
  keys : Option (BitVec 256 × BitVec 256)
  /-- MODEL's own: the draw that stands for the ephemeral key of this side. -/
  eph : Option Nat
  /-- Own record sent; the peer's record has passed, with its public key; reservation from which the keys serve. -/
  keyxSent : Bool
  keyxPeer : Option (BitVec 776)
  keyxSlot : Nat
  /-- Control messages waiting, in arrival order (R427). -/
  ctlQ : List (BitVec 256)
  /-- Frames found uncorrectable and not yet reported (R409). -/
  nakOut : List Nat
  /-- Best-effort credits held as sender, and to be returned as receiver (R425). -/
  credits : Nat
  owed : Nat
  /-- MODEL's own: the tick of the last frame sent, and what the direction last sent: header, payload, marker, messages. -/
  lastTick : Option Nat
  outHdr : W64
  outData : BitVec 4096
  outMarker : Option Marker
  outMsgs : List (BitVec 256)
  outTag : BitVec 128
  /-- LST_FEC and LST_ERR. -/
  symbols : Nat
  codewords : Nat
  uncorr : Nat
  retries : Nat
  retryFails : Nat
  tagFails : Nat
  markerLosses : Nat
  /-- The link domain is fenced. -/
  fenced : Bool
deriving DecidableEq, Repr

/-- Where a transfer of one orbit stands. -/
inductive XStage where
  /-- Nothing has been sent or has arrived. -/
  | waiting
  | running
  /-- SEND: trailer and retries have left. RECEIVE: the tag has passed. -/
  | passed
  /-- RECEIVE: the endpoint has finished with the region. -/
  | consumed
  /-- Released, and SIG sent. -/
  | ended
  /-- RECEIVE refused under R429. -/
  | refused
  /-- Missed, with its consequences taken. -/
  | missed
deriving DecidableEq, Repr

/-- A schedule entry's transfer in one orbit (R409, R420, R421, R425, R484). -/
structure Xfer where
  io : Nat
  entry : Nat
  /-- Orbit number and start slot of the run it belongs to. -/
  orbit : Nat
  slot : Nat
  stage : XStage
  /-- SEND: next payload frame, frames reported and not yet sent again, frames sent again, trailer sent, idle frames in
  place of a poisoned source, SIG sent. -/
  next : Nat
  naks : List Nat
  again : Bank Bool
  trailer : Bool
  idle : Bool
  signalled : Bool
  /-- COLLECTIVE and NORM: the payload as staged when the SEND started. -/
  payload : List Byte
  /-- Ordinal among the best-effort transfers of the orbit on its direction. -/
  ordinal : Nat
  /-- RECEIVE: frames held, frames found uncorrectable once, the trailer, the region is held. -/
  got : Bank Bool
  bad : Bank Bool
  trailerIn : Option (BitVec 4096)
  held : Bool
  /-- RECEIVE, best effort: the frames as they arrived, which the tag is taken over. -/
  frames : Bank (BitVec 4096)
deriving DecidableEq, Repr

/-- Job time as a module keeps it (R410 to R413, Table 13-5). -/
structure TimeBase where
  /-- 0 UNLOCKED, 1 ACQUIRING, 2 LOCKED, 3 HOLDOVER, 4 LOST. -/
  state : Nat
  /-- Link from which job time is taken, 63 for none. -/
  parent : Nat
  depth : Nat
  /-- Markers in a row within 2 ns. -/
  good : Nat
  /-- Reached LOCKED since the plan load (R412). -/
  locked : Bool
  /-- Newest offset estimate, sixteenths of a nanosecond, still to be slewed away. -/
  offset : Int
  /-- Job time of the newest complete exchange, and of the entry into HOLDOVER. -/
  lastExch : Nat
  holdSince : Nat
deriving DecidableEq, Repr

/-- Registers and counters of an IO die's orbit controller (R433, R465, R511, R336). -/
structure OrbRegs where
  timeAlert : Bool
  slackAlert : Bool
  alertTicks : Nat
  slackEntry : Nat
  minSlack : Nat
  sendMissed : Nat
  recvMissed : Nat
  overdue : Nat
  proven : Nat
  observed : Nat
  /-- ORB_RED_STATUS: VOTE and REASON of the last orbit, CORRECTED, LATE_FAIL. -/
  vote : Nat
  reason : Nat
  corrected : Bool
  lateFail : Bool
  /-- ORB_RED_COUNT. -/
  retractions : Nat
  leftOut : Nat
  saturated : Nat
  /-- ORB_DOMAIN_STATUS. -/
  recoveries : Nat
  lastStatus : Nat
  lastCause : Nat
  lastKind : Nat
  lastIndex : Nat
  /-- ORB_HALF_STATUS. -/
  separated : Bool
  noPrimary : Bool
  dualPrimary : Bool
  strap : Bool
  peerAlive : Bool
  primary : Bool
  /-- The half is fenced or in reset. -/
  fenced : Bool
deriving DecidableEq, Repr

/-- An exchange record (Table 12-9). -/
structure NormRec where
  orbit : Nat
  step : W32
  freshReq : Bool
  stale : Bool
  void : Bool
  /-- G2, W2 and U2 of group q at keys 3 q, 3 q + 1 and 3 q + 2. -/
  sums : Bank W64
deriving DecidableEq, Repr

/-- Section 0x12 of the plan as installed (Tables 14-1 to 14-3). -/
structure RedPlan where
  present : Bool
  hdr : BitVec 1024
  buckets : Bank (BitVec 256)
  count : Nat
  relays : Bank W64
  relayCount : Nat
deriving DecidableEq, Repr

/-- A failure charged to a sent block (R456): block index, whether its source was rewritten, and its elements as sent. -/
structure Charge where
  block : Nat
  rewritten : Bool
  sent : List Byte
deriving DecidableEq, Repr

/-- A bucket in the current orbit (R441 to R457, R482, R483). -/
structure BucketRun where
  staged : Bool
  /-- The CORRECT send has started; COMMIT sent; bucket withdrawn. -/
  corrStarted : Bool
  committed : Bool
  withdrawn : Bool
  /-- Blocks whose comparison has closed, and blocks that wait for an answer of a second encoding. -/
  compared : Bank Bool
  charges : List Charge
  /-- Owner: contributors whose CONTRIB is added, whose CORRECT has come, whose COMMIT has come. -/
  added : Bank Bool
  corrected : Bank Bool
  commits : Bank Bool
  /-- Owner, ARRIVAL: contributions whose tag has passed and that wait for their COMMIT: module and
  schedule entry. -/
  waiting : List (Nat × Nat)
  /-- S of element i, EXACT (R447). -/
  sums : Bank Int
  /-- Accumulator elements that have been added to in the orbit (R448). -/
  summed : Bank Bool
  /-- C per block, blocks that a 0xFF byte or a poisoned contribution reached, and the probe's largest byte. -/
  counts : Bank Nat
  nanBlocks : Bank Bool
  poisoned : Bank Bool
  probeMax : Bank Nat
  finalised : Bool
  inPlace : Bool
  /-- A duplicated addition or finalisation failed once and is to be repeated (R469). -/
  repeating : Bool
deriving DecidableEq, Repr

/-- The reduction of the running orbit and what it keeps between orbits. -/
structure Reduce where
  buckets : Bank BucketRun
  /-- An agreed byte exists for a block: block b of bucket k at key 2^20 k + b (R444). -/
  agreed : Bank Bool
  probeDone : Bool
  redSent : Bool
  saturated : Nat
  redSat : Nat
  correctedBlocks : Nat
  retracted : Nat
  /-- Transfers in the staging buffers, by OUT_STREAM: stream s of IO die io at key 1024 io + s (R438). -/
  relay : Bank (List Byte)
deriving DecidableEq, Repr

/-- A START_ORBITS that is armed or running (R523, R524). -/
structure StartCmd where
  port : Nat
  queue : Nat
  handle : W32
  slot : Nat
  count : Nat
  /-- Orbits begun and completed. -/
  begun : Nat
  completed : Nat
  /-- No further orbit begins (R524). -/
  closing : Bool
deriving DecidableEq, Repr

/-- The fabric and the orbit controllers. -/
structure Fab where
  /-- Section 0x10 of IOA at key 0 and of IOB at key 1. -/
  sched : Bank SchedPlan
  links : Bank Link
  xfers : List Xfer
  /-- Receive memory: frame f of IO die io at key 131072 io + f (R428). -/
  rxMem : Bank (BitVec 4096)
  tb : TimeBase
  /-- Control slots begun, by job time div 10 us. -/
  slot : Nat
  /-- Messages seen (R427), and messages of a reserved type dropped. -/
  seen : List (BitVec 256)
  dropped : Nat
  epoch : Nat
  regs : Bank OrbRegs
  redPlan : RedPlan
  red : Reduce
  start : Option StartCmd
  /-- Orbits that have completed without a void since the plan load (R206). -/
  orbit : Nat
deriving DecidableEq, Repr

end Sys2Proof.Machine
end

