-- ==== Sys2Proof/Machine/TypesHealth.lean ====
section
/-! DEFINITION. The data types of unit health, error records, orbit runs and recoveries (chapters 13, 15 and 16 of the spec). -/
namespace Sys2Proof.Machine

/-- Health record of a unit (Table 15-4) with what waits for the next start slot or the next module reset. The CRC is
computed when the record is written out. -/
structure HealthRec where
  /-- 0 HEALTHY, 1 MARGINED, 2 RETIRED. -/
  state : Nat
  level : Nat
  windowCount : Nat
  windowStart : Nat
  /-- A window is running (R475, R480). -/
  windowOpen : Bool
  transients : Nat
  persistents : Nat
  lastEvent : Nat
  lastChange : Nat
  memCount : Nat
  /-- Persistent failures since module reset, for the health registers (R491). -/
  persistReset : Nat
  /-- A climb, or a retirement by history, waits for the next start slot (R474, R477). -/
  climb : Bool
  /-- A UNIT_RETURN level that waits for the next module reset (R481). -/
  returnTo : Option Nat
  /-- The record in Moonlet's flash: state, level and counts as last written (R476). -/
  flashState : Nat
  flashLevel : Nat
  flashCount : Nat
  /-- The flash record's CRC fails. -/
  flashBad : Bool
  /-- A persistent failure in the running orbit: the unit runs nothing further in it (R471). -/
  failedOrbit : Bool
deriving DecidableEq, Repr

/-- Error record (Table 15-8), without its CRC. -/
structure ErrRec where
  type : Nat
  status : Nat
  unit : Nat
  kind : Nat
  state : Nat
  level : Nat
  jobTime : Nat
  orbit : Nat
  sequence : Nat
  where_ : Nat
  residue : Nat
  poweredMin : Nat
  dropped : Nat
deriving DecidableEq, Repr

/-- The settings Moonlet holds (Tables 15-3 and 16-3). -/
structure Settings where
  histLimit : Nat
  histWindow : Nat
  memLimit : Nat
  coreMs : Nat
  ceMs : Nat
  msuMs : Nat
  cpMs : Nat
deriving DecidableEq, Repr

/-- MSU_MEM_ERR counts of a memory-side unit. -/
structure MemErr where
  tagFail : Nat
  uncorr : Nat
  corr : Nat
deriving DecidableEq, Repr

/-- An orbit of this module from its start slot to its completion (R206, R233, R234, R534). -/
structure OrbitRun where
  /-- Orbit number. -/
  num : Nat
  /-- Slot number of its start slot. -/
  slot : Nat
  /-- Job time of its start slot, sixteenths of a nanosecond. -/
  start : Nat
  /-- REASON bits that have arisen on this module (Table 14-9), with the unit and status of the first. -/
  reason : BitVec 8
  reasonUnit : Nat
  reasonStatus : Nat
  /-- First stop code of the orbit and its logical core (R229). -/
  stop : Option (Nat × Nat)
  /-- The end slot has passed (the last link schedule entry too). -/
  ended : Bool
  /-- VOTE_TICK has passed, and the VOTE waits for the next control slot. -/
  voteDue : Bool
  /-- VOTE sent and what it said; VOTE_CLOSE passed; the vote's verdict. -/
  voteSent : Bool
  votePass : Bool
  closed : Bool
  passed : Bool
  /-- VOTEs received: module at key i with PASS; VOID received. -/
  votes : Bank Nat
  voidSeen : Bool
  /-- The orbit is voided on this module (R25). -/
  voided : Bool
  /-- Completion conditions (R534). -/
  persistent : Option Nat
  deadline : Bool
  skips : Bool
  held : Bool
  stale : Bool
  fallbacks : Nat
  corrected : Nat
  degraded : Bool
  probe : Bool
  /-- Retractions made in the orbit. -/
  retracted : Nat
  /-- Norm outcome of the orbit (Table 12-8): 0 not known, 1 RUN, 2 HELD, 3 VOID. -/
  outcome : Nat
  /-- STEP_VALUE latched (Table 17-4). -/
  stepValue : W32
  /-- EPOCH of the orbit (R408). -/
  epoch : Nat
  /-- Step-size writes taken in by its start slot (R380). -/
  stepFold : Nat
  /-- Update pass 2 has ended, or is not run (R234, R368). -/
  updated : Bool
  /-- NORM_DEADLINE has passed. -/
  normClosed : Bool
  /-- A status of R394, R479 or R487 that ends the module's runs. -/
  endStatus : Option Nat
  /-- The completion record has been sent. -/
  completed : Bool
deriving DecidableEq, Repr

/-- A core section of a crash record (Table 16-6): the core, its registers at the fence, the words flagged, the samples. -/
structure CoreSection where
  core : Nat
  seqStatus : W32
  seqPc : W32
  arrayStatus : W32
  wdogStatus : W32
  /-- Sample words flagged (words 0 to 2,047). -/
  flags : Bank Bool
  /-- Sample bytes that are not 0, by offset in the samples. -/
  samples : Bank Byte
deriving DecidableEq, Repr

/-- What seals the core sections of a crash record (R557): SESSION_ID and K_CRASH of the session open at the fence. -/
structure Seal where
  session : W64
  key : BitVec 256
deriving DecidableEq, Repr

/-- A recovery in progress (R497). -/
structure Recovery where
  kind : Nat
  index : Nat
  cause : Nat
  unit : Nat
  /-- 1 fenced and draining, 2 being reset, 3 sampled and fenced until a module reset (R506). -/
  stage : Nat
  fenceTime : Nat
  orbit : Nat
  forced : Bool
  drainUs : Nat
  /-- The sample found no room, or no session is open (R500, R557). -/
  truncated : Bool
  /-- RESET_DOMAIN commands that wait for it: key 2 p + q of the queue, handle; those whose own domain's reset escalated. -/
  waiters : List (Nat × W32)
  escalated : List (Nat × W32)
  /-- At the fence: powered minutes, bits [63:0] of the plan digest, CORE_SEQ_STATUS, CORE_SEQ_PC, CORE_ARRAY_STATUS and
  CORE_WDOG_STATUS of core n at keys 4 n to 4 n + 3, and what seals the sample. -/
  poweredMin : Nat
  digest : Nat
  regs : Bank W32
  sealedBy : Option Seal
  /-- The sample in the crash buffer. -/
  sample : List CoreSection
  /-- Job time of the reset's start. -/
  resetTime : Nat
deriving DecidableEq, Repr

/-- Crash record header (Table 16-5) without its CRC. -/
structure CrashRec where
  kind : Nat
  index : Nat
  cause : Nat
  status : Nat
  sequence : Nat
  jobTime : Nat
  orbit : Nat
  forced : Bool
  drainUs : Nat
  resetUs : Nat
  unit : Nat
  truncated : Bool
  digest : Nat
  poweredMin : Nat
  /-- CORES: core sections that follow. -/
  cores : Nat
deriving DecidableEq, Repr

/-- A crash record in flash: header, sample, what seals it, and the draw that stands for the initial value under which its
sections were encrypted. -/
structure CrashStored where
  hdr : CrashRec
  sections : List CoreSection
  sealedBy : Option Seal
  iv : Nat
deriving DecidableEq, Repr

end Sys2Proof.Machine
end

