-- ==== Sys2Proof/Machine/TypesHost.lean ====
section
/-! DEFINITION. The data types of the host link, of security, of Moonlet and of power (chapters 17, 18 and 19 of the spec). -/
namespace Sys2Proof.Machine

/-- A completion record without HANDLE's adapter side (Table 17-3). -/
structure CompRec where
  handle : W32
  seq : W32
  status : Byte
  opcode : Byte
  /-- Bits [15:0] of bytes 10 to 11. -/
  flags : BitVec 16
  dropped : Nat
  jobTime : Nat
  orbit : Nat
  /-- DETAIL, byte 32 in bits [7:0] (Table 17-4). -/
  detail : BitVec 256
deriving DecidableEq, Repr

/-- A handle that is outstanding at the adapter. -/
structure Outstanding where
  handle : W32
  opcode : Byte
  /-- A RESET_DOMAIN of kind 5, held through the link outage (R529). -/
  kind5 : Bool
deriving DecidableEq, Repr

/-- A queue of the adapter: registers of its block, ring indices, handles (R516 to R519). -/
structure HQueue where
  sqBase : W64
  ackBase : W64
  cqBase : W64
  sqTail : W32
  cqHead : W32
  lateRecords : Nat
  linkLost : Bool
  fetchErr : Bool
  /-- Next entry to fetch, and next completion record to write, as ring indices. -/
  sqHead : Nat
  cqTail : Nat
  /-- Entries accepted since the queue was enabled. -/
  accepted : Nat
  outstanding : List Outstanding
  /-- Records that wait in the adapter for room in the ring. -/
  waiting : List CompRec
  /-- MSI-X vector: masked; times raised. -/
  masked : Bool
  raised : Nat
deriving DecidableEq, Repr

/-- An Efmus port (R514, R515, EHL_PORT_STATUS). -/
structure Port where
  /-- 0 DOWN, 1 TRAINING, 2 UP. -/
  state : Nat
  retrains : Nat
  /-- Records held in the module, up to 4,096, and records dropped since the last one delivered. -/
  hold : List CompRec
  dropped : Nat
  /-- LINK_LOST holds since the port went down for 100 ms. -/
  lost : Bool
  /-- Keys agreed at the last training (R556). -/
  keyed : Bool
deriving DecidableEq, Repr

/-- A host command that the module has accepted and that waits (R205, R235, R518, R522, R530, R547). -/
structure WaitCmd where
  port : Nat
  queue : Nat
  handle : W32
  entry : Entry64
  /-- It has started: it has passed R521 and counts in CMD_NUMBER. -/
  checked : Bool
deriving DecidableEq, Repr

/-- The host link. -/
structure Hst where
  /-- Queue q of port p at key 2 p + q. -/
  queues : Bank HQueue
  ports : Bank Port
  /-- Next SEQ (R533). -/
  seq : W32
  waiting : List WaitCmd
  /-- Host writes into HOST_SHARED segments that completed while orbits run: the next orbit sees them first (R235). -/
  deferred : List WItem
  /-- WRITE_STEP_SIZE commands completed since module reset, modulo 65,536 (R525). -/
  gen : BitVec 16
  /-- ORB_PLAN_VERIFY: CHECK, STATUS, SECTION, DIE and ITEM of the last load-plan command (R336). -/
  check : Nat
  verStatus : Byte
  section_ : Nat
  die : Nat
  item : Nat
deriving DecidableEq, Repr

/-- The owner record (R544). -/
structure Owner where
  /-- Owner public key, 97 B; zero when absent. -/
  pub : BitVec 776
  /-- Owner secret; zero when absent. -/
  secret : BitVec 256
  /-- Generation it was sealed under. -/
  gen : Nat
deriving DecidableEq, Repr

/-- The open session (R546, R548, R550, R553). -/
structure Session where
  /-- SESSION_KIND: 1 OPEN_KEY or CLAIM, 2 OPEN_SECRET. -/
  kind : Nat
  id : W64
  tag : Byte
  kCmd : BitVec 384
  kCrash : BitVec 256
  jobSecret : BitVec 256
  minPlanSvn : Nat
  /-- CMD_NUMBER of queue q of port p at key 2 p + q. -/
  cmdNumber : Bank Nat
deriving DecidableEq, Repr

/-- Firmware banks of one image of one IO die (R542, R543). -/
structure FwBanks where
  bankA : List Byte
  bankB : List Byte
  /-- The bank that booted: false A, true B. -/
  usedB : Bool
  /-- Fused counter, 0 to 64. -/
  svn : Nat
  /-- Version of the image that booted. -/
  booted : Nat
deriving DecidableEq, Repr

/-- The security controllers. -/
structure Sec where
  /-- Fused unique secret of each IO die (R539). -/
  fused : Bank (BitVec 256)
  /-- Security controller and control processor of IO die io at keys 2 io and 2 io + 1. -/
  fw : Bank FwBanks
  bootOk : Bool
  bootFallback : Bank Bool
  ownerGen : Nat
  genExhausted : Bool
  owner : Option Owner
  /-- Newest MODULE_NONCE, while it has not been consumed. -/
  nonce : Option (BitVec 384)
  /-- MODULE_NONCE as last drawn. -/
  lastNonce : BitVec 384
  session : Option Session
  /-- Owner tag of the last session; 0 before the first since module reset. -/
  lastTag : Byte
  /-- Tier-2 keys are installed: the digest that they derive from and the generation (R553). -/
  t2Key : Option (BitVec 384 × Nat)
  /-- Debug rights in force, and the powered minute at which they end (R559). -/
  debug : BitVec 4
  debugUntil : Nat
  /-- Moonlet firmware digest as Moonlet reports it (Table 18-3). -/
  moonletDigest : BitVec 384
  macFails : Nat
  openFails : Nat
  sigFails : Nat
deriving DecidableEq, Repr

/-- Power states (R562). -/
inductive PState where
  | unpowered
  | standby
  | powering
  | inReset
  | running
deriving DecidableEq, Repr

/-- The power controller of a half and its PWR_ block (R571 to R576, R587). -/
structure HalfPwr where
  /-- CLOCK_MHZ and DUTY. -/
  clock : Nat
  duty : Nat
  kitChanged : Bool
  thermalLimit : Bool
  powerLimit : Bool
  /-- HALF_BUDGET_W and HALF_DRAW_W. -/
  budget : Nat
  draw : Nat
  temps : Temps
  limitEntries : Nat
  umbraEntries : Nat
  kitChanges : Nat
  /-- Sensor kinds that hold the clock down: compute die, IO die, HBM, tier 2. -/
  hot : BitVec 4
deriving DecidableEq, Repr

/-- Power, reset, pins and Umbra. -/
structure Pwr where
  state : PState
  /-- Input pins as driven: PWR_EN, RESET_IN_N, COOLING_ID; PRIMARY_SEL is an operand of its sampling. -/
  pwrEn : Bool
  resetInN : Bool
  coolingNow : BitVec 3
  /-- COOLING_ID as sampled at the last release of the rails. -/
  coolingId : BitVec 3
  /-- Moonlet has booted since the input came. -/
  moonletUp : Bool
  railsOk : Bool
  /-- READY as the module drives it. -/
  ready : Bool
  umbra : Bool
  tripLatch : Bool
  /-- FAULT_N latches of R503 and R565: two failed cycles, COOLING_ID, the trip latch, secure boot; that of R479 is
  Dev.faultN. -/
  faultRail : Bool
  faultKit : Bool
  faultTrip : Bool
  faultBoot : Bool
  /-- Rail cycles in a row that did not reach READY. -/
  railFails : Nat
  /-- The 60 ms rail hold of a module reset runs. -/
  cycling : Bool
  halves : Bank HalfPwr
  /-- Chassis cap in force, cap that waits for the next start slot. -/
  cap : Nat
  capNext : Option Nat
  capBelowPlan : Bool
  /-- PWR_INPUT. -/
  vinMv : Nat
  iin10ma : Nat
  pinW : Nat
  peakW : Nat
  /-- Firmware save areas hold a kept state (R577). -/
  saved : Bool
deriving DecidableEq, Repr

/-- Moonlet: settings, flash and events (R475, R476, R490, R494, R497, R500, R581). -/
structure Moon where
  /-- Settings as commanded, and whether watchdog settings wait for the next start slot. -/
  next : Option Settings
  /-- Error records in flash, oldest first, at most 4,096. -/
  errors : List ErrRec
  /-- Crash records in flash with their core sections, oldest first. -/
  crashes : List CrashStored
  /-- Crash records since manufacture. -/
  crashSeq : Nat
  /-- Bytes of each IO die's crash buffer in use (R500). -/
  bufUsed : Bank Nat
  /-- Events that the chassis has not acknowledged: ALERT_N is low while this is not 0. -/
  events : Nat
  /-- Answer of the last management command: accepted, or ERROR_INVALID_DATA. -/
  lastOk : Bool
  /-- Bytes that the last READ_CRASH, READ_ERRORS or SPDM request returned. -/
  reply : List Byte
  /-- Job time of the last heartbeat of each half's control processor, and of each half's last heartbeat to the other. -/
  cpBeat : Bank Nat
  halfBeat : Bank Nat
deriving DecidableEq, Repr

end Sys2Proof.Machine
end

