-- ==== Sys2Proof/Machine/TypesMsu.lean ====
section
/-! DEFINITION. The data types of the memory-side units: section 0x11 of the plan, each unit's semaphores, running lists,
passes and registers, and the norm exchange of an orbit (chapter 12 of the spec). -/
namespace Sys2Proof.Machine

/-- A list entry (Table 12-3). -/
structure MsuList where
  threshold : Nat
  report : Nat
  first : Nat
  count : Nat
deriving DecidableEq, Repr

/-- Section 0x11 as installed (Tables 12-2 to 12-5). -/
structure MsuPlan where
  strict : Bool
  fresh : Bool
  initStep : W32
  clip : W32
  groups : Nat
  /-- Descriptor-list index of each unit's norm area. -/
  normDesc : Bank Nat
  /-- NORM_DIE, NORM_STREAM and NORM_FANOUT of section 0x12. -/
  normDie : Nat
  normStream : Nat
  normFanout : Nat
  /-- Entry 16 u + q. -/
  lists : Bank MsuList
  /-- Command entries and rule blocks of 64 B. -/
  cmds : Bank (BitVec 512)
  rules : Bank (BitVec 512)
deriving DecidableEq, Repr

/-- A list that has started: its semaphore, its next command and the commands left (R366). -/
structure ListRun where
  sem : Nat
  next : Nat
  left : Nat
deriving DecidableEq, Repr

/-- A memory-side unit (R357, R364, R366, R368, R373, R400). -/
structure Msu where
  /-- Semaphore i of bank b at key 16 b + i. -/
  sems : Bank (BitVec 16)
  /-- Current orbit. -/
  orbit : Nat
  /-- Lists that have started in the current orbit, by semaphore. -/
  ran : Bank Bool
  runs : List ListRun
  /-- Update commands whose pass 1 has ended, in order; those skipped as FROZEN or failed. -/
  passed : List Nat
  skipped : Bank Bool
  /-- The unit sets VOID in the exchange record (R388, R393). -/
  voids : Bool
  /-- A failure or a fence has ended its update work in the orbit (R393, R471, R498). -/
  dead : Bool
  /-- Partial norms G2, W2 and U2 of command c in the orbit at keys 3 c, 3 c + 1 and 3 c + 2 (R374). -/
  parts : Bank W64
  /-- Update commands whose pass 2 is still due, in order; the orbit they belong to; the next patch of the first (R392). -/
  pass2 : List Nat
  p2Orbit : Nat
  patch : Nat
  /-- A mismatch of the duplicated arithmetic, or of the stream multiplier's check, to be repeated (R393, R394, R399). -/
  repeatUpd : Bool
  repeatMul : Bool
  lastStatus : Byte
  /-- PHASE and CMD of MSU_STATUS. -/
  phase : Nat
  cmd : Nat
  fallback : Bool
  cmdError : Bool
  /-- MSU_STEP_SIZE: VALUE, MISMATCH, HELD, STALE. -/
  value : W32
  mismatch : Bool
  held : Bool
  stale : Bool
  skips : Nat
  fallbacks : Nat
  retries : Nat
  /-- HOT_CONFIG, and HOT_STATUS (R357). -/
  hotConfig : W32
  hotStatus : W32
  /-- Consecutive imbalanced windows so far (R357). -/
  hotRun : Nat
  /-- Its watchdog's FIRES (R495). -/
  fires : Nat
  fenced : Bool
deriving DecidableEq, Repr

end Sys2Proof.Machine
end

