-- ==== Sys2Proof/Machine/Init.lean ====
section
/-! DEFINITION. Every unit as a module reset, or a reset of its own domain, leaves it. A value that the spec gives is cited;
every other value is 0, false or empty by the model's choice (the assumption log names it). -/
namespace Sys2Proof.Machine

/-! Units after reset. -/

/-- A weight set as a core reset leaves it: zero elements, scale bytes 0x7F, residues 0, tile scale 1.0, dense (R80). -/
def WeightSet.blank : WeightSet :=
  { format := 0, compressed := false, valid := true, poison := false, tw := 0x3F800000, resTotal := 0
    resArea := 0, resSwizzle := 0, cells := Bank.const 0, scales := Bank.const 0x7F, rho := Bank.const 0 }

/-- The default epilogue state: no bias, FUNC NONE, SAVE none (R92). -/
def Epilogue.none : Epilogue := { func := 0, preg := 0, bias := .none, save := 0, sdesc := 0, poison := false }

/-- A core after module reset. -/
def Core.init : Core :=
  { lc := 0, occupied := false, stopCode := 0, poisonCtrl := false, fault := false, switching := false, arrayQ := []
    active := WeightSet.blank, shadow := WeightSet.blank, load := .none, streams := [], nextStream := 0, steps := []
    epi0 := Epilogue.none, epi1 := Epilogue.none, curEpi := 0, segTable := Bank.const 0, tableSegs := 0, handoff := [],
    rowQ := Bank.const [], scaleQ := Bank.const [], vecQ := [], moveQ := [], takes := [], pendingRepeat := .none
    stepCount := 0, chkStatus := 0, chkResid := 0, satCount := 0, fp32Ovf := false, infSeen := false, nanSeen := false
    stickySeen := false, tableErr := false, markerSeen := false, tsbInexact := 0, eccUncorr := 0, eccCorr := 0
    imemCorr := 0, wdog := 0, fenced := false, retired := false }

/-- A core domain reset (R80, R92, Table 16-4): every field at its reset value but RWS fields (FIRES) and retirement. -/
def Core.reset (c : Core) : Core :=
  { Core.init with wdog := c.wdog &&& 0x0000FF00, retired := c.retired, nextStream := c.nextStream }

/-- A Coma engine after module reset. -/
def Coma.init : Coma :=
  { queue := [], bindings := [], feed := .none, lastStatus := 0, lastOp := 0, lastCount := 0, parityErr := false
    cmdError := false, routeDrops := 0, auditPairs := 0, auditHits := 0, pendingRepeat := false, fenced := false, retired := false }

/-- A Coma engine domain reset: queue, store and bindings are gone (R167, Table 16-1). -/
def Coma.reset (c : Coma) : Coma := { Coma.init with retired := c.retired }

def DReg.empty : DReg := { valid := false, kind := .tensor, bits := 0 }

/-- A logical core that no plan binds. -/
def LCore.unbound : LCore :=
  { bound := false, phys := 0, gather := false, entry := 0, param := 0, semInit := Bank.const 0, s := Bank.const 0
    sPoison := Bank.const false, d := Bank.const DReg.empty, pc := 0, sems := Bank.const 0, phase := .halted, orbit := 0
    owed := .none, seq := 0, ends := 0 }

/-- A memory-side unit after module reset: HOT_CONFIG 0x640A_3010 (R357), everything else 0 (R400). -/
def Msu.init : Msu :=
  { sems := Bank.const 0, orbit := 0, ran := Bank.const false, runs := [], passed := [], skipped := Bank.const false
    voids := false, dead := false, parts := Bank.const 0, pass2 := [], p2Orbit := 0, patch := 0, repeatUpd := false
    repeatMul := false
    lastStatus := 0, phase := 0, cmd := 0, fallback := false, cmdError := false, value := 0, mismatch := false
    held := false, stale := false, skips := 0, fallbacks := 0, retries := 0, hotConfig := 0x640A3010, hotStatus := 0
    hotRun := 0, fires := 0, fenced := false }

/-- No section 0x11 is installed. -/
def MsuPlan.none : MsuPlan :=
  { strict := false, fresh := false, initStep := 0, clip := 0, groups := 0, normDesc := Bank.const 0xFFFF
    normDie := 0, normStream := 0x3FF, normFanout := 0
    lists := Bank.const ⟨0, 0, 0, 0⟩, cmds := Bank.const 0, rules := Bank.const 0 }

/-- A die without tables: no counter in use, no multicast group, no code, an empty sequence table. -/
def Die.init : Die :=
  { counters := Bank.const ⟨false, 0, 0, 0⟩, groups := Bank.const 0, limits := Bank.const ⟨0, 0, 0⟩, codeLen := 0
    seqTable := Bank.const 0, slots := Bank.const ⟨0, 0, 0, 0, 0⟩ }

/-- A unit without history: HEALTHY at LEVEL 0 (Table 15-4). -/
def HealthRec.init : HealthRec :=
  { state := 0, level := 0, windowCount := 0, windowStart := 0, windowOpen := false, transients := 0, persistents := 0
    lastEvent := 0, lastChange := 0, memCount := 0, persistReset := 0, climb := false, returnTo := .none, flashState := 0
    flashLevel := 0, flashCount := 0, flashBad := false, failedOrbit := false }

/-- Defaults of Tables 15-3 and 16-3. -/
def Settings.default : Settings :=
  { histLimit := 4, histWindow := 24, memLimit := 16, coreMs := 50, ceMs := 10, msuMs := 20, cpMs := 10 }

def SegFault.none : SegFault := { segment := 0, kind := 0, source := 0, offset := 0, more := false, fault := false }

def SchedPlan.none : SchedPlan :=
  { orbitTicks := 0, rttMax := 0, root := 0, sets := Bank.const 0, topo := Bank.const 0, times := Bank.const 0
    entries := Bank.const 0, count := 0 }

/-- A fabric link at READY: TRAINING (Table 19-2), no peer heard, no keys, LST_ counters 0 (R433). -/
def Link.init : Link :=
  { state := 1, trainFails := 0, rtt := 0, stuck := false, heard := false, peerModule := 0, peerLink := 0, peerDigest := 0
    echoSend := 0, echoRecv := 0, marked := false, delay := 0, keys := .none, eph := .none, keyxSent := false
    keyxPeer := .none, keyxSlot := 0, ctlQ := [], nakOut := [], credits := 0, owed := 0, lastTick := .none, outHdr := 0
    outData := 0, outMarker := .none, outMsgs := [], outTag := 0, symbols := 0, codewords := 0, uncorr := 0, retries := 0
    retryFails := 0, tagFails := 0, markerLosses := 0, fenced := false }

/-- No time: UNLOCKED, no parent (ORB_STATUS resets to 0x0FC0_0000). -/
def TimeBase.none : TimeBase :=
  { state := 0, parent := 63, depth := 0, good := 0, locked := false, offset := 0, lastExch := 0, holdSince := 0 }

/-- Orbit controller registers after reset: ALERT_TICKS 0x0010, MIN_SLACK 0xFFFF_FFFF, else 0 (R433, R465, R511). -/
def OrbRegs.init : OrbRegs :=
  { timeAlert := false, slackAlert := false, alertTicks := 0x10, slackEntry := 0, minSlack := 0xFFFFFFFF, sendMissed := 0
    recvMissed := 0, overdue := 0, proven := 0, observed := 0, vote := 0, reason := 0, corrected := false
    lateFail := false, retractions := 0, leftOut := 0, saturated := 0, recoveries := 0, lastStatus := 0, lastCause := 0
    lastKind := 0, lastIndex := 0, separated := false, noPrimary := false, dualPrimary := false, strap := false
    peerAlive := false, primary := false, fenced := false }

def RedPlan.none : RedPlan :=
  { present := false, hdr := 0, buckets := Bank.const 0, count := 0, relays := Bank.const 0, relayCount := 0 }

/-- A bucket at an orbit's start. -/
def BucketRun.init : BucketRun :=
  { staged := false, corrStarted := false, committed := false, withdrawn := false, compared := Bank.const false
    charges := [], added := Bank.const false, corrected := Bank.const false, commits := Bank.const false, waiting := []
    sums := Bank.const 0, summed := Bank.const false, counts := Bank.const 0, nanBlocks := Bank.const false
    poisoned := Bank.const false, probeMax := Bank.const 0, finalised := false, inPlace := false, repeating := false }

def Reduce.init : Reduce :=
  { buckets := Bank.const BucketRun.init, agreed := Bank.const false, probeDone := false, redSent := false, saturated := 0
    redSat := 0, correctedBlocks := 0, retracted := 0, relay := Bank.const [] }

/-- The fabric at READY; IOA is primary, PRIMARY_SEL being low (R504). -/
def Fab.init : Fab :=
  { sched := Bank.const SchedPlan.none, links := Bank.const Link.init, xfers := [], rxMem := Bank.const 0
    tb := TimeBase.none, slot := 0, seen := [], dropped := 0, epoch := 0
    regs := (Bank.const OrbRegs.init).set 0 { OrbRegs.init with primary := true }
    redPlan := RedPlan.none, red := Reduce.init, start := .none, orbit := 0 }

/-- A queue of the adapter after reset: disabled, every register 0 (R519). -/
def HQueue.init : HQueue :=
  { sqBase := 0, ackBase := 0, cqBase := 0, sqTail := 0, cqHead := 0, lateRecords := 0, linkLost := false
    fetchErr := false, sqHead := 0, cqTail := 0, accepted := 0, outstanding := [], waiting := [], masked := false, raised := 0 }

/-- An Efmus port at READY: UP (Table 19-2). -/
def Port.init : Port := { state := 2, retrains := 0, hold := [], dropped := 0, lost := false, keyed := true }

/-- The host link after module reset: SEQ starts from 0 (R533), GEN 0, ORB_PLAN_VERIFY 0 (R336). -/
def Hst.init : Hst :=
  { queues := Bank.const HQueue.init, ports := Bank.const Port.init, seq := 0, waiting := [], deferred := [], gen := 0, check := 0
    verStatus := 0, section_ := 0, die := 0, item := 0 }

def FwBanks.init : FwBanks := { bankA := [], bankB := [], usedB := false, svn := 0, booted := 0 }

/-- Security at READY of an unowned module with no fuse burnt: BOOT_OK, no session, no tier-2 key (R544, R548, R553). -/
def Sec.init : Sec :=
  { fused := Bank.const 0, fw := Bank.const FwBanks.init, bootOk := true, bootFallback := Bank.const false, ownerGen := 0
    genExhausted := false, owner := .none, nonce := .none, lastNonce := 0, session := .none, lastTag := 0, t2Key := .none
    debug := 0, debugUntil := 0, moonletDigest := 0, macFails := 0, openFails := 0, sigFails := 0 }

/-- A half's PWR_ block at READY: 1,000 MHz, DUTY 100 (PWR_STATUS resets to 0x3E8C_8000), else 0. -/
def HalfPwr.init : HalfPwr :=
  { clock := 1000, duty := 100, kitChanged := false, thermalLimit := false, powerLimit := false, budget := 0, draw := 0
    temps := ⟨0, 0, 0, 0, 0, 0⟩, limitEntries := 0, umbraEntries := 0, kitChanges := 0, hot := 0 }

/-- Power at READY with a class A kit (COOLING_ID 0b110), PWR_EN and RESET_IN_N high, PRIMARY_SEL low. -/
def Pwr.init : Pwr :=
  { state := .running, pwrEn := true, resetInN := true, coolingNow := 0b110
    coolingId := 0b110, moonletUp := true, railsOk := true, ready := true, umbra := false
    tripLatch := false, faultRail := false, faultKit := false, faultTrip := false, faultBoot := false, railFails := 0, cycling := false
    halves := Bank.const HalfPwr.init, cap := 1600, capNext := .none, capBelowPlan := false, vinMv := 0, iin10ma := 0
    pinW := 0, peakW := 0, saved := false }

/-- Moonlet with empty flash. -/
def Moon.init : Moon :=
  { next := .none, errors := [], crashes := [], crashSeq := 0, bufUsed := Bank.const 0, events := 0, lastOk := true
    reply := [], cpBeat := Bank.const 0, halfBeat := Bank.const 0 }

end Sys2Proof.Machine
end

