-- ==== Sys2Proof/Machine/State.lean ====
section
/-! DEFINITION. The state of the module as plain data, its state after reset, and the reasons a command can stop. -/
namespace Sys2Proof.Machine

/-- The installed plan: header fields, tables that requests consult, and its digest (R295, R316, R335). -/
structure Plan where
  installed : Bool
  digest : BitVec 384
  /-- Index of this module in the plan, and modules in the job. -/
  modIndex : Nat
  modules : Nat
  descs : Bank Desc
  descCount : Nat
  trecs : Bank Desc
  trecCount : Nat
  /-- Weight records (Table 6-6). -/
  weights : Bank Desc
  weightCount : Nat
  /-- CLASS and REDUCTION of the header. -/
  cls : Nat
  arrival : Bool
deriving DecidableEq, Repr

/-- Everything of the module that running work touches. -/
structure Dev where
  ms : MemSys
  lcs : Bank LCore
  cores : Bank Core
  comas : Bank Coma
  /-- MODEL's own: Coma commands submitted so far (R156). -/
  comaOrd : Nat
  dies : Bank Die
  /-- Segment table, 128-bit entries (Table 9-9). -/
  segs : Bank (BitVec 128)
  /-- Owner tag of the session (R309). -/
  ownerTag : Byte
  segFaults : Bank SegFault
  plan : Plan
  signals : List SigFlight
  /-- Stream semaphores of the orbit controllers: semaphore i of bank b of IO die io at key 2048 io + 1024 b + i (R423). -/
  streamSems : Bank (BitVec 16)
  /-- LATE_SIGNALS of each orbit controller. -/
  lateSignals : Bank Nat
  msuPlan : MsuPlan
  msus : Bank Msu
  /-- Interleave key in force (R352, R353). -/
  ilKey : W64
  /-- Accesses of 128 B that each channel has served in the current window: channel c of unit u at key 32 u + c (R357). -/
  accesses : Bank Nat
  runs : List OrbitRun
  health : Bank HealthRec
  errQ : Bank (List ErrRec)
  errDropped : Bank Nat
  errSeq : Nat
  memErr : Bank MemErr
  /-- Watchdog and health settings in force. -/
  settings : Settings
  /-- A unit of class 0x2 to 0x4 has faulted the module (R479). -/
  moduleFault : Bool
  /-- FAULT_N is asserted (R479, R503). -/
  faultN : Bool
  /-- Exchange records of the running orbit, by module (R375, R376, R439), and the clip factor c and group norms formed
  from them. -/
  norms : Bank (Option NormRec)
  clip : W32
  wn : Bank W32
  un : Bank W32
  /-- Step size in force at the last start slot, and the writes completed since, with their times (R23, R379). -/
  stepBase : W32
  stepWrites : List (Nat × W32)
  /-- Step-size writes taken in since the plan load, and how many of them the last orbit whose pass 2 ran had (R380). -/
  stepFold : Nat
  stepRef : Nat
  /-- Status with which every START_ORBITS completes until the next plan load (R378, R394, R461, R487). -/
  restrict : Option Byte
  /-- Control messages this module originates in its next control slot (R426, R472). -/
  ownMsgs : List (BitVec 256)
  /-- Job time, sixteenths of a nanosecond. -/
  time : Nat
  poweredMin : Nat
  /-- MODEL's own: how many free values have been drawn. -/
  free : Nat
deriving DecidableEq, Repr

/-- The state of the block. -/
structure State where
  dev : Dev
  fab : Fab
  hst : Hst
  sec : Sec
  pwr : Pwr
  moon : Moon
  /-- Recoveries in progress (R497). -/
  recs : List Recovery
  /-- Commands that wait, first in, first out. -/
  pending : List Instr
deriving DecidableEq, Repr

/-- Why a command stops with a fault. -/
inductive Fault where
  /-- Raised by a core row whose instruction word holds another row's OPCODE, and by a host row whose entry holds another
  row's: the term is no command of the row. Safe: the block takes no such command, so nothing of it is claimed. -/
  | notThisCommand
deriving DecidableEq, Repr

/-- Why a command is refused. -/
inductive Refusal where
  /-- Raised by an arm of `exec` whose command has no meaning yet. Safe: nothing is claimed of it. -/
  | notModelled (mnemonic : String)
deriving DecidableEq, Repr

/-- No plan is installed. -/
def Plan.none : Plan :=
  { installed := false, digest := 0, modIndex := 0, modules := 0, descs := Bank.const 0, descCount := 0
    trecs := Bank.const 0, trecCount := 0, weights := Bank.const 0, weightCount := 0, cls := 0, arrival := false }

/-- Memories after module reset: every byte 0, no poison mark, no written bit, no tag, no error (R344, R355, R566). -/
def MemSys.init : MemSys :=
  { mem := [], poison := Bank.const false, written := Bank.const false, tagged := Bank.const false
    flip1 := Bank.const false, flip2 := Bank.const false }

/-- The running part of the module after module reset. -/
def Dev.init : Dev :=
  { ms := MemSys.init, lcs := Bank.const LCore.unbound, cores := Bank.const Core.init, comas := Bank.const Coma.init
    comaOrd := 0, dies := Bank.const Die.init, segs := Bank.const 0, ownerTag := 0, segFaults := Bank.const SegFault.none
    plan := Plan.none, signals := [], streamSems := Bank.const 0, lateSignals := Bank.const 0, msuPlan := MsuPlan.none
    msus := Bank.const Msu.init, ilKey := 0, accesses := Bank.const 0, runs := [], health := Bank.const HealthRec.init
    errQ := Bank.const [], errDropped := Bank.const 0, errSeq := 0, memErr := Bank.const ⟨0, 0, 0⟩
    settings := Settings.default, moduleFault := false, faultN := false, norms := Bank.const .none, clip := 0x3F800000
    wn := Bank.const 0, un := Bank.const 0, stepBase := 0, stepWrites := [], stepFold := 0, stepRef := 0
    restrict := .none, ownMsgs := [], time := 0, poweredMin := 0, free := 0 }

/-- The block right after a module reset: at READY, no session, no plan, no command waiting. -/
def State.reset : State :=
  { dev := Dev.init, fab := Fab.init, hst := Hst.init, sec := Sec.init, pwr := Pwr.init, moon := Moon.init, recs := []
    pending := [] }

end Sys2Proof.Machine
end

