-- ==== Sys2Proof/Machine/Mem.lean ====
section
/-! DEFINITION. The byte memory of the module: one canonical list of cells over one address space, reads and writes of
little-endian values (R5), poison granules (Table 7-5) and the scratchpad swizzle (R304). -/
namespace Sys2Proof.Machine

/-- Canonical form of the memory: addresses strictly rising, no cell equal to what an unlisted address reads as. -/
def Memory.wf (m : Mem) : Bool := cellsWf (0 : Byte) none m

/-- A byte; one that is not listed reads 0 (R344, R355: contents are zero until written). -/
def memGet (m : Mem) (a : Nat) : Byte := cellGet (0 : Byte) a m

def memSet (m : Mem) (a : Nat) (v : Byte) : Mem := cellSet (0 : Byte) a v m

/-- Zero the bytes from `lo` up to but not including `hi`. -/
def memClear (m : Mem) (lo hi : Nat) : Mem := cellClear lo hi m

/-- `n` bytes from `a` on as a little-endian number. -/
def memRead (m : Mem) (a : Nat) : Nat → Nat
  | 0 => 0
  | n + 1 => (memGet m a).toNat + 256 * memRead m (a + 1) n

/-- Store `n` bytes of a number little-endian from `a` on. -/
def memWrite (m : Mem) (a : Nat) : Nat → Nat → Mem
  | 0, _ => m
  | n + 1, v => memWrite (memSet m a (BitVec.ofNat 8 v)) (a + 1) n (v / 256)

/-- Store a list of bytes. -/
def memWriteList (m : Mem) (a : Nat) : List Byte → Mem
  | [] => m
  | b :: r => memWriteList (memSet m a b) (a + 1) r

/-- `n` bytes from `a` on. -/
def memReadList (m : Mem) (a : Nat) : Nat → List Byte
  | 0 => []
  | n + 1 => memGet m a :: memReadList m (a + 1) n

/-- Copy `n` bytes. -/
def memCopy (m : Mem) (src dst n : Nat) : Mem := memWriteList m dst (memReadList m src n)

/-- Set one bit of a byte. -/
def memSetBit (m : Mem) (a i : Nat) (b : Bool) : Mem :=
  memSet m a (setBits (memGet m a) i i (if b then 1 else 0))

/-! The one address space of the model: each memory of the spec at a base of its own. -/

def spSize : Nat := 6291456
def dbSize : Nat := 67108864
def imemSize : Nat := 262144
def t1Size : Nat := 927712935936
def t2Size : Nat := 6597069766656
def stackSize : Nat := 77309411328

def spBase (core : Nat) : Nat := core * spSize
def dbBase (die : Nat) : Nat := 2 ^ 32 + die * dbSize
def imemBase (die : Nat) : Nat := 2 ^ 34 + die * imemSize
def t1Base : Nat := 2 ^ 41
def t2Base : Nat := 2 ^ 44
def hostBase : Nat := 2 ^ 65

/-- The physical place of scratchpad address `a` of a core under a swizzle: word a[22:12] of the bank of Table 9-8,
stored as the context image orders banks (R304, R337). -/
def spAddr (core swz a : Nat) : Nat :=
  let row := a / 4096
  let col := a / 128 % 32
  let bank := if swz = 1 then Nat.xor col (row % 32) else if swz = 2 then (col + row) % 32 else col
  spBase core + 128 * (32 * row + bank) + a % 128

/-- First address of the poison granule that holds an address (Table 7-5). -/
def granule (a : Nat) : Nat :=
  if a < 2 ^ 32 then a / 128 * 128
  else if a < 2 ^ 34 then a - (a - 2 ^ 32) % 512
  else if a < t1Base then a
  else if a < hostBase then a - a % 4096
  else a

/-- Bytes of that granule. -/
def granuleSize (a : Nat) : Nat :=
  if a < 2 ^ 32 then 128 else if a < 2 ^ 34 then 512 else if a < t1Base then 1 else if a < hostBase then 4096 else 1

/-- The addresses of a run of bytes. -/
def addrRun (a n : Nat) : List Nat := (List.range n).map (a + ·)

/-- Drop adjacent repeats of a list. -/
def dedupAdj : List Nat → List Nat
  | [] => []
  | [a] => [a]
  | a :: b :: r => if a = b then dedupAdj (b :: r) else a :: dedupAdj (b :: r)

/-- Put a number into a rising list that may hold it already. -/
def insNew (x : Nat) : List Nat → List Nat
  | [] => [x]
  | y :: r => if x < y then x :: y :: r else if x = y then y :: r else y :: insNew x r

/-- The distinct numbers of a list, rising. -/
def sortNew : List Nat → List Nat
  | [] => []
  | x :: r => insNew x (sortNew r)

/-- The granules that a list of addresses touches. -/
def granulesOf (l : List Nat) : List Nat := dedupAdj (l.map granule)

/-- The bytes of a little-endian value of `n` bytes as a write. -/
def wBytes (a : Nat) : Nat → Nat → List WItem
  | 0, _ => []
  | n + 1, v => ⟨a, 0xFF, BitVec.ofNat 8 v⟩ :: wBytes (a + 1) n (v / 256)

def applyWrites (m : Mem) : List WItem → Mem
  | [] => m
  | w :: r => applyWrites (memSet m w.addr ((memGet m w.addr &&& ~~~w.mask) ||| (w.val &&& w.mask))) r

/-- The bits of each byte that a write changes. -/
def writeMasks : List WItem → Bank Byte
  | [] => Bank.const 0
  | w :: r => (writeMasks r).upd w.addr (· ||| w.mask)

/-- A granule is covered whole by a write: every bit of every byte. -/
def coversWhole (masks : Bank Byte) (g n : Nat) : Bool :=
  if (masks.cells.filter (fun c => g ≤ c.1 && c.1 < g + n)).length < n then false
  else (addrRun g n).all (fun a => masks.get a == 0xFF)

/-- Poison marks after a write: poisoned data marks every granule it touches, clean data clears a mark only of a granule
it covers whole (R224). -/
def markWrite (poison : Bank Bool) (masks : Bank Byte) (p : Bool) : List Nat → Bank Bool
  | [] => poison
  | g :: r => markWrite (if p then poison.set g true
      else if coversWhole masks g (granuleSize g) then poison.set g false else poison) masks p r

/-- The unit that an error code covers: a scratchpad word, a quarter of a die-buffer word, an instruction word, 32 B of a
stack, a tier-2 line (R343, R346, R243, R356, R361). -/
def eccUnit (a : Nat) : Nat :=
  if a < 2 ^ 34 then 128 else if a < t1Base then 16 else if a < t2Base then 32 else 128

def eccWord (a : Nat) : Nat := a / eccUnit a * eccUnit a

/-- Cells of a memory that lie from `lo` up to but not including `hi`. -/
def cellsIn (m : Mem) (lo hi : Nat) : List (Nat × Byte) := m.filter (fun c => lo ≤ c.1 && c.1 < hi)

/-- Set tags of the tier-2 lines a write touches (R361), and written bits of tier 1 (R355). -/
def tagLines (tagged : Bank Bool) : List Nat → Bank Bool
  | [] => tagged
  | a :: r => tagLines (if t2Base ≤ a ∧ a < hostBase then tagged.set (a / 128 * 128) true else tagged) r

def setWritten (written : Bank Bool) : List Nat → Bank Bool
  | [] => written
  | g :: r => setWritten (if t1Base ≤ g ∧ g < t2Base then written.set g true else written) r

/-- Error-code flips of words that a write covers whole are gone. -/
def clearFlips (flips : Bank Bool) (masks : Bank Byte) : List Nat → Bank Bool
  | [] => flips
  | w :: r => clearFlips (if coversWhole masks w (eccUnit w) then flips.set w false else flips) masks r

/-- Make a write with its poison (R224, R298, R355, R361). -/
def MemSys.write (s : MemSys) (items : List WItem) (p : Bool) : MemSys :=
  let masks := writeMasks items
  let addrs := masks.cells.map (·.1)
  let grs := granulesOf addrs
  let words := dedupAdj (addrs.map eccWord)
  { s with
    mem := applyWrites s.mem items
    poison := markWrite s.poison masks p grs
    written := setWritten s.written grs
    tagged := tagLines s.tagged addrs
    flip1 := clearFlips s.flip1 masks words
    flip2 := clearFlips s.flip2 masks words }

/-- Some granule of a list of addresses carries a poison mark. -/
def MemSys.anyPoison (s : MemSys) (addrs : List Nat) : Bool := (granulesOf addrs).any (fun g => s.poison.get g)

end Sys2Proof.Machine
end

