-- ==== Sys2Proof/Machine/Context.lean ====
section
/-! DEFINITION. The context image: what CTXSAVE writes and CTXRESTORE reads, byte for byte where the spec lays the bytes out
(R337, Tables 10-10 to 10-13), in a layout of the model's own inside the sections whose inside the spec leaves open. -/
namespace Sys2Proof.Machine

def ctxSize : Nat := 7340032

/-- Context area of a logical core: 7 MiB each from the start of its die's firmware range on (R232, R308). The order
within the firmware range is a DESIGN CHOICE. -/
def ctxArea (lc : Nat) : Nat := t1Base + 128 * (595591168 + lc / 128 * 1811939328) + (lc % 128) * ctxSize

/-- Write `n` values of `k` bytes each from a function of the index. -/
def wrSeq (m : Mem) (a k : Nat) (f : Nat → Nat) : Nat → Nat → Mem
  | 0, _ => m
  | n + 1, i => wrSeq (memWrite m (a + k * i) k (f i)) a k f n (i + 1)

/-- Read `n` values of `k` bytes each into a bank. -/
def rdSeq {w : Nat} (m : Mem) (a k : Nat) (dflt : BitVec w) : Nat → Nat → Bank (BitVec w)
  | 0, _ => Bank.const dflt
  | n + 1, i => (rdSeq m a k dflt n (i + 1)).set i (BitVec.ofNat w (memRead m (a + k * i) k))

def boolNat (b : Bool) : Nat := if b then 1 else 0

/-- One queued array instruction in 256 B (the layout inside the entry is a DESIGN CHOICE). -/
def wrEntry (m : Mem) (a : Nat) (e : ArrayEntry) : Mem :=
  let m := memWrite m a 16 e.word.toNat
  let m := memWrite m (a + 16) 8 e.v0.toNat
  let m := memWrite m (a + 24) 8 e.v1.toNat
  let m := memWrite m (a + 32) 32 e.da.toNat
  let m := memWrite m (a + 64) 32 e.db.toNat
  let m := memWrite m (a + 96) 32 e.dc.toNat
  let m := memWrite m (a + 128) 1 (1 + 2 * boolNat e.vPoison)
  let m := memWrite m (a + 130) 2 e.who.lc
  let m := memWrite m (a + 132) 8 e.who.orbit
  let m := memWrite m (a + 140) 8 e.who.seq
  memWrite m (a + 148) 2 e.who.pc

def rdEntry (m : Mem) (a : Nat) : ArrayEntry :=
  { who := ⟨memRead m (a + 130) 2, memRead m (a + 132) 8, memRead m (a + 140) 8, memRead m (a + 148) 2⟩
    word := BitVec.ofNat 128 (memRead m a 16)
    v0 := BitVec.ofNat 64 (memRead m (a + 16) 8)
    v1 := BitVec.ofNat 64 (memRead m (a + 24) 8)
    vPoison := memRead m (a + 128) 1 / 2 % 2 == 1
    da := BitVec.ofNat 256 (memRead m (a + 32) 32)
    db := BitVec.ofNat 256 (memRead m (a + 64) 32)
    dc := BitVec.ofNat 256 (memRead m (a + 96) 32) }

def entryPresent (m : Mem) (a : Nat) : Bool := memRead m (a + 128) 1 % 2 == 1

def wrEntries (m : Mem) (a : Nat) : List ArrayEntry → Mem
  | [] => m
  | e :: r => wrEntries (wrEntry m a e) (a + 256) r

def rdEntries (m : Mem) (a : Nat) : Nat → List ArrayEntry
  | 0 => []
  | n + 1 => if entryPresent m a then rdEntry m a :: rdEntries m (a + 256) n else []

/-- The suspended STREAM: its entry, its shape and how far it has come (DESIGN CHOICE inside the section). -/
def wrStream (m : Mem) (a : Nat) (r : StreamRun) : Mem :=
  let m := wrEntry m a r.entry
  let m := memWrite m (a + 152) 4 r.next
  let m := memWrite m (a + 156) 4 r.drained
  let m := memWrite m (a + 160) 4 r.m
  let m := memWrite m (a + 164) 2 r.n
  let m := memWrite m (a + 166) 2 r.k
  let m := memWrite m (a + 168) 1 r.mode
  let m := memWrite m (a + 169) 1 (r.epi + 2 * boolNat r.feedFail + 4 * boolNat r.ended + 8 * boolNat r.poison)
  let m := memWrite m (a + 170) 1 r.status.toNat
  let m := memWrite m (a + 172) 4 r.id
  let m := wrSeq m (a + 0xA00) 2 (fun i => r.lastTag.get i) 128 0
  wrSeq m (a + 0xB00) 1 (fun i => boolNat (r.finished.get i)) 128 0

def rdNats (m : Mem) (a k : Nat) : Nat → Nat → Bank Nat
  | 0, _ => Bank.const 0
  | n + 1, i => (rdNats m a k n (i + 1)).set i (memRead m (a + k * i) k)

def rdBools (m : Mem) (a k : Nat) : Nat → Nat → Bank Bool
  | 0, _ => Bank.const false
  | n + 1, i => (rdBools m a k n (i + 1)).set i (memRead m (a + k * i) k == 1)

def rdStream (m : Mem) (a : Nat) : StreamRun :=
  let e := rdEntry m a
  let fl := memRead m (a + 169) 1
  { id := memRead m (a + 172) 4, who := e.who, entry := e, mode := memRead m (a + 168) 1
    m := memRead m (a + 160) 4, n := memRead m (a + 164) 2, k := memRead m (a + 166) 2, epi := fl % 2
    next := memRead m (a + 152) 4, drained := memRead m (a + 156) 4
    lastTag := rdNats m (a + 0xA00) 2 128 0, finished := rdBools m (a + 0xB00) 1 128 0
    feedFail := fl / 2 % 2 == 1, ended := fl / 4 % 2 == 1, held := false, poison := fl / 8 % 2 == 1
    status := BitVec.ofNat 8 (memRead m (a + 170) 1) }

/-- An epilogue state of 1 KiB (DESIGN CHOICE inside). -/
def wrEpi (m : Mem) (a : Nat) (e : Epilogue) : Mem :=
  let m := memWrite m a 1 e.func
  let m := memWrite m (a + 1) 1 e.save
  let m := memWrite m (a + 2) 1 (boolNat e.bias.isSome + 2 * boolNat e.poison)
  let m := memWrite m (a + 8) 8 e.preg.toNat
  let m := memWrite m (a + 32) 32 ((e.bias.getD 0).toNat)
  memWrite m (a + 64) 32 e.sdesc.toNat

def rdEpi (m : Mem) (a : Nat) : Epilogue :=
  { func := memRead m a 1, save := memRead m (a + 1) 1, preg := BitVec.ofNat 64 (memRead m (a + 8) 8)
    poison := memRead m (a + 2) 1 / 2 % 2 == 1
    bias := if memRead m (a + 2) 1 % 2 = 1 then some (BitVec.ofNat 256 (memRead m (a + 32) 32)) else none
    sdesc := BitVec.ofNat 256 (memRead m (a + 64) 32) }

/-- OR bits of a number into memory, byte by byte from address a. -/
def memOr (m : Mem) (a : Nat) : Nat → Nat → Mem
  | 0, _ => m
  | n + 1, v => memOr (memSet m a (memGet m a ||| BitVec.ofNat 8 v)) (a + 1) n (v / 256)

/-- Cells of 18 bits packed in index order (Table 10-12). -/
def wrCells (m : Mem) (a : Nat) : List (Nat × BitVec 18) → Mem
  | [] => m
  | c :: r => wrCells (memOr m (a + 18 * c.1 / 8) 4 (c.2.toNat <<< (18 * c.1 % 8))) a r

def rdCell (m : Mem) (a k : Nat) : BitVec 18 :=
  BitVec.ofNat 18 (memRead m (a + 18 * k / 8) 4 >>> (18 * k % 8))

/-- Every cell that a listed byte of the section belongs to. -/
def rdCells (m : Mem) (a : Nat) : List (Nat × Byte) → Bank (BitVec 18)
  | [] => Bank.const 0
  | c :: r =>
    let off := c.1 - a
    let k0 := 8 * off / 18
    let k1 := (8 * off + 7) / 18
    ((rdCells m a r).set k0 (rdCell m a k0)).set k1 (rdCell m a k1)

/-- Weight set section (Table 10-12); bits the table leaves out in byte 23 hold the residue area's swizzle. -/
def wrSet (m : Mem) (a : Nat) (w : WeightSet) : Mem :=
  let m := memClear m a (a + 0x28000)
  let m := wrCells m a w.cells.cells
  let m := wrSeq m (a + 0x24000) 1 (fun i => (w.scales.get i).toNat) 8192 0
  let m := wrSeq m (a + 0x26000) 2 (fun i => (w.rho.get i).toNat) 512 0
  let m := memWrite m (a + 0x26400) 4 w.tw.toNat
  let m := memWrite m (a + 0x26404) 1 w.format
  let m := memWrite m (a + 0x26405) 1 (boolNat w.compressed + 2 * boolNat w.valid + 4 * boolNat w.poison)
  let m := memWrite m (a + 0x26408) 4 w.resTotal
  memWrite m (a + 0x26410) 8 (w.resArea + w.resSwizzle * 2 ^ 56)

def rdSet (m : Mem) (a : Nat) : WeightSet :=
  let fl := memRead m (a + 0x26405) 1
  let ra := memRead m (a + 0x26410) 8
  { format := memRead m (a + 0x26404) 1 % 16, compressed := fl % 2 == 1, valid := fl / 2 % 2 == 1
    poison := fl / 4 % 2 == 1, tw := BitVec.ofNat 32 (memRead m (a + 0x26400) 4)
    resTotal := memRead m (a + 0x26408) 4, resArea := ra % 2 ^ 56, resSwizzle := ra / 2 ^ 56
    cells := rdCells m a (cellsIn m a (a + 147456))
    scales := rdSeq m (a + 0x24000) 1 0 8192 0
    rho := rdSeq m (a + 0x26000) 2 0 512 0 }

def wrHandoff (m : Mem) (a : Nat) : List HandOff → Mem
  | [] => m
  | h :: r => wrHandoff (wrSeq m a 4 (fun i => (h.vals.get i).toNat) 512 0) (a + 2048) r

/-- Bit i: entry i of the hand-off queue carries poison. -/
def handoffPoison : List HandOff → Nat
  | [] => 0
  | h :: r => boolNat h.poison + 2 * handoffPoison r

def rdHandoff (m : Mem) (a p : Nat) : Nat → List HandOff
  | 0 => []
  | n + 1 => ⟨rdSeq m a 4 0 512 0, p % 2 == 1⟩ :: rdHandoff m (a + 2048) (p / 2) n

def wrWords (m : Mem) (a : Nat) : List (BitVec 33) → Mem
  | [] => m
  | x :: r => wrWords (memWrite m a 4 x.toNat) (a + 4) r

/-- Entries of a queue, with the poison that the queues' flag gives them all. -/
def rdWords (p : Bool) (m : Mem) (a : Nat) : Nat → List (BitVec 33)
  | 0 => []
  | n + 1 => BitVec.ofNat 33 (memRead m a 4 + (if p then 2 ^ 32 else 0)) :: rdWords p m (a + 4) n

/-- Some entry of the queues carries poison. -/
def queuesPoison (q : Bank (List (BitVec 33))) : Bool := q.cells.any (fun c => c.2.any (fun x => bitOf x 32))

/-- Queues of 64 entries from `a` on with their occupancy counts from `c` on. -/
def wrQueues (m : Mem) (a c : Nat) (q : Bank (List (BitVec 33))) : Nat → Nat → Mem
  | 0, _ => m
  | n + 1, i => wrQueues (memWrite (wrWords m (a + 256 * i) (q.get i)) (c + i) 1 (q.get i).length) a c q n (i + 1)

def rdQueues (p : Bool) (m : Mem) (a c : Nat) : Nat → Nat → Bank (List (BitVec 33))
  | 0, _ => Bank.const []
  | n + 1, i => (rdQueues p m a c n (i + 1)).set i (rdWords p m (a + 256 * i) (memRead m (c + i) 1))

/-- Copy the listed bytes of a scratchpad to another place, and back. -/
def copyCells (m : Mem) (src dst : Nat) : List (Nat × Byte) → Mem
  | [] => m
  | c :: r => copyCells (memSet m (dst + (c.1 - src)) c.2) src dst r

def moveBlock (m : Mem) (src dst n : Nat) : Mem :=
  copyCells (memClear m dst (dst + n)) src dst (cellsIn m src (src + n))

/-- Poison marks of a scratchpad as bits, in the order of the scratchpad image. -/
def wrMarks (m : Mem) (a base : Nat) : List (Nat × Bool) → Mem
  | [] => m
  | c :: r =>
    let i := (c.1 - base) / 128
    wrMarks (memSetBit m (a + i / 8) (i % 8) c.2) a base r

def rdMarksAux (p : Bank Bool) (m : Mem) (base a addr : Nat) : Nat → Nat → Bank Bool
  | 0, _ => p
  | n + 1, i =>
    rdMarksAux (if bitOf (memGet m addr) i then p.set (base + 128 * (8 * (addr - a) + i)) true else p) m base a addr n (i + 1)

def rdMarks (p : Bank Bool) (m : Mem) (base a : Nat) : List (Nat × Byte) → Bank Bool
  | [] => p
  | c :: r => rdMarks (rdMarksAux p m base a c.1 8 0) m base a r

def spMarks (p : Bank Bool) (core : Nat) : List (Nat × Bool) :=
  p.cells.filter (fun c => spBase core ≤ c.1 && c.1 < spBase (core + 1))

/-- Sequencer section (Table 10-10). -/
def wrSequencer (m : Mem) (a : Nat) (l : LCore) : Mem :=
  let m := wrSeq m a 8 (fun i => (l.s.get i).toNat) 64 0
  let m := wrSeq m (a + 0x200) 1 (fun i => ((List.range 8).foldl (fun acc j => acc + boolNat (l.sPoison.get (8 * i + j)) * 2 ^ j) 0)) 8 0
  let m := memWrite m (a + 0x208) 4 l.pc
  let bits (f : Nat → Bool) := (List.range 16).foldl (fun acc j => acc + boolNat (f j) * 2 ^ j) 0
  let m := memWrite m (a + 0x20C) 4 (bits (fun j => (l.d.get j).valid) + 65536 * bits (fun j => (l.d.get j).kind == .header))
  wrSeq m (a + 0x400) 32 (fun i => (l.d.get i).bits.toNat) 16 0

def rdSequencer (m : Mem) (a : Nat) (l : LCore) : LCore :=
  let fl := memRead m (a + 0x20C) 4
  { l with
    s := rdSeq m a 8 0 64 0
    sPoison := (List.range 64).foldl (fun b i => b.set i (bitOf (memGet m (a + 0x200 + i / 8)) (i % 8))) (Bank.const false)
    pc := memRead m (a + 0x208) 4 % 16384
    d := (List.range 16).foldl (fun b i => b.set i
      ⟨fl / 2 ^ i % 2 == 1, if fl / 2 ^ (16 + i) % 2 = 1 then .header else .tensor, BitVec.ofNat 256 (memRead m (a + 0x400 + 32 * i) 32)⟩)
      (Bank.const ⟨false, .tensor, 0⟩) }

/-- Write a whole context image at address `a` (R337 to R340). Held deliveries restart at zero: the saved core was running.
`digest` is the plan's, `die` the saving core's. -/
def saveImage (s : MemSys) (a core lc orbit : Nat) (digest : BitVec 384) (feeder : Bool) (l : LCore) (c : Core) : MemSys :=
  let m := memClear s.mem a (a + 0x100000)
  let m := memWrite m a 4 (65536 + core / 32 * 512 + lc)
  let m := memWrite m (a + 4) 4 (1 + 2 * boolNat feeder + 4)
  let m := memWrite m (a + 8) 8 orbit
  let m := memWrite m (a + 16) 48 digest.toNat
  let m := memWrite m (a + 88) 1 c.handoff.length
  let m := wrSequencer m (a + 0x1000) l
  let m := match c.streams with
    | [] => m
    | r :: _ => wrStream m (a + 0x2000) r
  let m := wrEntries m (a + 0x2100) c.arrayQ
  let m := memWrite m (a + 0x2900) 1 (handoffPoison c.handoff)
  let m := memWrite m (a + 0x2901) 1 c.curEpi
  let m := memWrite m (a + 0x2902) 1 (boolNat (queuesPoison c.rowQ || queuesPoison c.scaleQ))
  let m := wrEpi m (a + 0x3000) c.epi0
  let m := wrEpi m (a + 0x3400) c.epi1
  let m := wrSeq m (a + 0x3800) 32 (fun i => (c.segTable.get i).toNat) 64 0
  let m := memWrite m (a + 0x37FF) 1 c.tableSegs
  let m := wrHandoff m (a + 0x5000) c.handoff
  let m := wrQueues m (a + 0x9000) (a + 0x11400) c.rowQ 128 0
  let m := wrQueues m (a + 0x11000) (a + 0x11480) c.scaleQ 4 0
  let m := wrSet m (a + 0x12000) c.active
  let m := wrSet m (a + 0x3A000) c.shadow
  let m := wrMarks m (a + 0x83000) (spBase core) (spMarks s.poison core)
  let m := moveBlock m (spBase core) (a + 0x100000) spSize
  let grs := (List.range (ctxSize / 4096)).map (fun i => granule (a + 4096 * i))
  { s with mem := m, poison := s.poison.clear a (a + ctxSize), written := setWritten s.written grs }

/-- Header fields of an image. -/
def imgValid (m : Mem) (a : Nat) : Bool := memRead m (a + 4) 1 % 2 == 1
def imgFeeder (m : Mem) (a : Nat) : Bool := memRead m (a + 4) 1 / 2 % 2 == 1
def imgDigest (m : Mem) (a : Nat) : BitVec 384 := BitVec.ofNat 384 (memRead m (a + 16) 48)
def imgDie (m : Mem) (a : Nat) : Nat := memRead m a 4 / 512 % 4
def imgLc (m : Mem) (a : Nat) : Nat := memRead m a 4 % 512
def imgHeld (m : Mem) (a : Nat) : Nat := memRead m (a + 64) 4 % 32

/-- The core state an image holds (R109, R338). -/
def loadCore (m : Mem) (a : Nat) (c : Core) : Core :=
  { c with
    streams := if entryPresent m (a + 0x2000) then [rdStream m (a + 0x2000)] else []
    arrayQ := rdEntries m (a + 0x2100) 8
    curEpi := memRead m (a + 0x2901) 1 % 2
    epi0 := rdEpi m (a + 0x3000)
    epi1 := rdEpi m (a + 0x3400)
    segTable := rdSeq m (a + 0x3800) 32 0 64 0
    tableSegs := memRead m (a + 0x37FF) 1
    handoff := rdHandoff m (a + 0x5000) (memRead m (a + 0x2900) 1) (memRead m (a + 88) 1 % 16)
    rowQ := rdQueues (memRead m (a + 0x2902) 1 == 1) m (a + 0x9000) (a + 0x11400) 128 0
    scaleQ := rdQueues (memRead m (a + 0x2902) 1 == 1) m (a + 0x11000) (a + 0x11480) 4 0
    active := rdSet m (a + 0x12000)
    shadow := rdSet m (a + 0x3A000)
    steps := [] }

/-- The scratchpad and its poison marks from an image. -/
def loadPad (s : MemSys) (a core : Nat) : MemSys :=
  { s with
    mem := moveBlock s.mem (a + 0x100000) (spBase core) spSize
    poison := rdMarks (s.poison.clear (spBase core) (spBase (core + 1))) s.mem (spBase core) (a + 0x83000)
      (cellsIn s.mem (a + 0x83000) (a + 0x84800)) }

/-- Held record i of an image: scratchpad offset, length, MSEM, swizzle (Table 10-11). -/
def heldRec (m : Mem) (a i : Nat) : Nat × Nat × Nat × Nat :=
  let r := a + 128 + 16 * i
  (memRead m r 4 % 2 ^ 23, memRead m (r + 4) 4, memRead m (r + 8) 1 % 32, memRead m (r + 9) 1 % 4)

/-- Copy one held range from the scratchpad image into the scratchpad, byte by byte under its swizzle. -/
def copyHeldBytes (m : Mem) (a core swz : Nat) : Nat → Nat → Mem
  | 0, _ => m
  | n + 1, off =>
    let p := spAddr core swz off
    copyHeldBytes (memSet m p (memGet m (a + 0x100000 + (p - spBase core)))) a core swz n (off + 1)

/-- Poison marks of a held range come with it. -/
def copyHeldMarks (p : Bank Bool) (m : Mem) (a core swz : Nat) : Nat → Nat → Bank Bool
  | 0, _ => p
  | n + 1, off =>
    let g := granule (spAddr core swz off)
    let i := (g - spBase core) / 128
    copyHeldMarks (if bitOf (memGet m (a + 0x83000 + i / 8)) (i % 8) then p.set g true else p) m a core swz n (off + 128)

def copyHeld (s : MemSys) (a core : Nat) : Nat → Nat → MemSys
  | 0, _ => s
  | n + 1, i =>
    let r := heldRec s.mem a i
    let s' := { s with mem := copyHeldBytes s.mem a core r.2.2.2 r.2.1 r.1
                       poison := copyHeldMarks s.poison s.mem a core r.2.2.2 ((r.2.1 + 127) / 128 + 1) r.1 }
    copyHeld s' a core n (i + 1)

end Sys2Proof.Machine
end

