-- ==== Sys2Proof/Machine/Float.lean ====
section
/-! DEFINITION. Exact binary floating point: values as sign, magnitude and exponent of two, one rounding to nearest even,
and the IEEE 754 operations the module performs (R37, R59, R69). -/
namespace Sys2Proof.Machine

/-- A decoded number: m · 2^e with its sign (m may be zero), an infinity or a NaN. -/
inductive FVal where
  | fin (neg : Bool) (m : Nat) (e : Int)
  | inf (neg : Bool)
  | nan
deriving DecidableEq, Repr

/-- An IEEE 754 binary layout. -/
structure FFmt where
  ebits : Nat
  mbits : Nat
  bias : Nat
deriving DecidableEq, Repr

def fp32 : FFmt := ⟨8, 23, 127⟩
def fp64 : FFmt := ⟨11, 52, 1023⟩
def bf16 : FFmt := ⟨8, 7, 127⟩
def fp16 : FFmt := ⟨5, 10, 15⟩

/-- Exponent of the smallest subnormal unit. -/
def FFmt.qmin (F : FFmt) : Int := 1 - (F.bias : Int) - F.mbits

/-- Pattern of +infinity. -/
def FFmt.infBits (F : FFmt) : Nat := (2 ^ F.ebits - 1) * 2 ^ F.mbits

/-- The quiet NaN the module writes: 0x7FC0_0000, 0x7FC0 or 0x7E00 (R64, R69). -/
def FFmt.nanBits (F : FFmt) : Nat := F.infBits + 2 ^ (F.mbits - 1)

/-- Pattern with its sign bit. -/
def FFmt.signed (F : FFmt) (neg : Bool) (bits : Nat) : Nat := if neg then 2 ^ (F.ebits + F.mbits) + bits else bits

/-- Decode a pattern of an IEEE layout. -/
def FFmt.decode (F : FFmt) (x : Nat) : FVal :=
  let neg := (x / 2 ^ (F.ebits + F.mbits)) % 2 == 1
  let ex := (x / 2 ^ F.mbits) % 2 ^ F.ebits
  let m := x % 2 ^ F.mbits
  if ex = 2 ^ F.ebits - 1 then (if m = 0 then .inf neg else .nan)
  else if ex = 0 then .fin neg m F.qmin
  else .fin neg (2 ^ F.mbits + m) (F.qmin + ((ex : Int) - 1))

/-- m ÷ 2^k, to nearest with ties to even. -/
def rneShift (m k : Nat) : Nat :=
  if k = 0 then m else
    let q := m >>> k
    let r := m % 2 ^ k
    let h := 2 ^ (k - 1)
    if r > h ∨ (r = h ∧ q % 2 = 1) then q + 1 else q

/-- ⌊log₂ (m · 2^e)⌋ for m > 0. -/
def floorLog2 (m : Nat) (e : Int) : Int := (Nat.log2 m : Int) + e

/-- m · 2^e as a whole multiple of 2^q, cut toward zero, and whether a nonzero part was lost. -/
def cutTo (m : Nat) (e q : Int) : Nat × Bool :=
  if q ≤ e then (m <<< (e - q).toNat, false)
  else
    let k := (q - e).toNat
    (m >>> k, m % 2 ^ k != 0)

/-- The exponent of the last bit that a format of precision p keeps of m · 2^e. -/
def keepExp (p : Nat) (qmin : Int) (m : Nat) (e : Int) : Int :=
  let q := floorLog2 m e + 1 - p
  if q < qmin then qmin else q

/-- Round m · 2^e (m > 0) to precision p, to nearest even: multiple and exponent. -/
def quantize (p : Nat) (qmin : Int) (m : Nat) (e : Int) : Nat × Int :=
  let q := keepExp p qmin m e
  if q ≤ e then (m <<< (e - q).toNat, q) else (rneShift m (q - e).toNat, q)

/-- Magnitude pattern of m' · 2^q as quantize gives it; a carry out of the significand runs into the exponent. -/
def FFmt.magBits (F : FFmt) (m' : Nat) (q : Int) : Nat := (q - F.qmin).toNat * 2 ^ F.mbits + m'

/-- Round an exact number to the format: pattern, and whether a finite value became infinite. -/
def FFmt.round (F : FFmt) (neg : Bool) (m : Nat) (e : Int) : Nat × Bool :=
  if m = 0 then (F.signed neg 0, false)
  else
    let r := quantize (F.mbits + 1) F.qmin m e
    let b := F.magBits r.1 r.2
    if F.infBits ≤ b then (F.signed neg F.infBits, true) else (F.signed neg b, false)

/-- Pattern of a value (rounded if need be), with the overflow flag. -/
def FFmt.encode (F : FFmt) : FVal → Nat × Bool
  | .fin neg m e => F.round neg m e
  | .inf neg => (F.signed neg F.infBits, false)
  | .nan => (F.nanBits, false)

/-- Signed integer multiple of 2^min(e1, e2) of an exact sum. -/
def dyAdd (n1 : Bool) (m1 : Nat) (e1 : Int) (n2 : Bool) (m2 : Nat) (e2 : Int) : Bool × Nat × Int :=
  let e := if e1 ≤ e2 then e1 else e2
  let a := m1 <<< (e1 - e).toNat
  let b := m2 <<< (e2 - e).toNat
  if n1 = n2 then (n1, a + b, e)
  else if a ≥ b then (if a = b then false else n1, a - b, e) else (n2, b - a, e)

/-- Exact sum under IEEE 754 rules for specials and for the sign of a zero. -/
def FVal.add : FVal → FVal → FVal
  | .nan, _ => .nan
  | _, .nan => .nan
  | .inf a, .inf b => if a = b then .inf a else .nan
  | .inf a, _ => .inf a
  | _, .inf b => .inf b
  | .fin n1 m1 e1, .fin n2 m2 e2 =>
    if m1 = 0 ∧ m2 = 0 then .fin (n1 && n2) 0 0
    else let r := dyAdd n1 m1 e1 n2 m2 e2; .fin r.1 r.2.1 r.2.2

def FVal.neg : FVal → FVal
  | .nan => .nan
  | .inf a => .inf (!a)
  | .fin n m e => .fin (!n) m e

def FVal.abs : FVal → FVal
  | .nan => .nan
  | .inf _ => .inf false
  | .fin _ m e => .fin false m e

/-- Exact product; infinity times zero is a NaN. -/
def FVal.mul : FVal → FVal → FVal
  | .nan, _ => .nan
  | _, .nan => .nan
  | .inf a, .inf b => .inf (a != b)
  | .inf a, .fin n m _ => if m = 0 then .nan else .inf (a != n)
  | .fin n m _, .inf b => if m = 0 then .nan else .inf (n != b)
  | .fin n1 m1 e1, .fin n2 m2 e2 => .fin (n1 != n2) (m1 * m2) (e1 + e2)

def FVal.isNan : FVal → Bool
  | .nan => true
  | _ => false

def FVal.isInf : FVal → Bool
  | .inf _ => true
  | _ => false

def FVal.isZero : FVal → Bool
  | .fin _ m _ => m == 0
  | _ => false

def FVal.isFinite : FVal → Bool
  | .fin _ _ _ => true
  | _ => false

def FVal.sign : FVal → Bool
  | .fin n _ _ => n
  | .inf n => n
  | .nan => false

/-- Strict order of non-NaN values; -0.0 and +0.0 are equal. -/
def FVal.lt : FVal → FVal → Bool
  | .nan, _ => false
  | _, .nan => false
  | .inf a, .inf b => a && !b
  | .inf a, .fin _ _ _ => a
  | .fin _ _ _, .inf b => !b
  | .fin n1 m1 e1, .fin n2 m2 e2 =>
    if m1 = 0 ∧ m2 = 0 then false
    else let r := dyAdd n1 m1 e1 (!n2) m2 e2; r.1 && r.2.1 != 0

/-- Equality of numbers; a NaN equals nothing. -/
def FVal.eqv (a b : FVal) : Bool := !a.isNan && !b.isNan && !a.lt b && !b.lt a

/-- a ≤ b for numbers. -/
def FVal.le (a b : FVal) : Bool := !a.isNan && !b.isNan && !b.lt a

/-- a · 2^x. -/
def FVal.scale2 (x : Int) : FVal → FVal
  | .fin n m e => .fin n m (e + x)
  | v => v

/-- Number of bits of m. -/
def bitLen (m : Nat) : Nat := if m = 0 then 0 else Nat.log2 m + 1

/-- Quotient cut to well over `p` bits with a sticky bit below, so that one later rounding is correct. -/
def FVal.div (p : Nat) : FVal → FVal → FVal
  | .nan, _ => .nan
  | _, .nan => .nan
  | .inf _, .inf _ => .nan
  | .inf a, .fin n _ _ => .inf (a != n)
  | .fin n _ _, .inf b => .fin (n != b) 0 0
  | .fin n1 m1 e1, .fin n2 m2 e2 =>
    if m2 = 0 then (if m1 = 0 then .nan else .inf (n1 != n2))
    else
      let k := p + 3 + bitLen m2
      let a := m1 <<< k
      .fin (n1 != n2) (2 * (a / m2) + (if a % m2 = 0 then 0 else 1)) (e1 - e2 - k - 1)

/-- Bitwise integer square root: the largest r with r² ≤ n, found from bit `b` down. -/
def isqrtAux (n : Nat) : Nat → Nat → Nat
  | 0, r => r
  | b + 1, r =>
    let t := r + 2 ^ b
    isqrtAux n b (if t * t ≤ n then t else r)

def isqrt (n : Nat) : Nat := isqrtAux n (bitLen n / 2 + 1) 0

/-- √a of a number, cut with a sticky bit; √-0 = -0. -/
def FVal.sqrt (p : Nat) : FVal → FVal
  | .nan => .nan
  | .inf n => if n then .nan else .inf false
  | .fin n m e =>
    if m = 0 then .fin n 0 0
    else if n then .nan
    else
      let k := 2 * p + 6 + (if (e % 2 : Int) = 0 then 0 else 1)
      let a := m <<< k
      let r := isqrt a
      .fin false (2 * r + (if r * r = a then 0 else 1)) ((e - k) / 2 - 1)

/-- 1 ÷ √a, cut with a sticky bit; +0 gives +infinity and -0 gives -infinity (Table 8-11). -/
def FVal.rsqrt (p : Nat) : FVal → FVal
  | .nan => .nan
  | .inf n => if n then .nan else .fin false 0 0
  | .fin n m e =>
    if m = 0 then .inf n
    else if n then .nan
    else
      let odd := (e % 2 : Int) ≠ 0
      let m' := if odd then 2 * m else m
      let e' := if odd then e - 1 else e
      let k := p + 3 + bitLen m'
      let r := isqrt (2 ^ (2 * k) / m')
      .fin false (2 * r + (if r * r * m' = 2 ^ (2 * k) then 0 else 1)) (-(k : Int) - e' / 2 - 1)

/-- ln 2 · 2^256, cut. -/
def ln2Fix : Nat := 0xB17217F7D1CF79ABC9E3B39803F2F6AF40F343267298B62D8A0D175B8BAAFA2B

/-- Σ r^n / n! in fixed point of 256 fraction bits, `left` terms from term number n on. -/
def expTaylor (r : Nat) : Nat → Nat → Nat → Nat → Nat
  | 0, _, _, acc => acc
  | left + 1, n, t, acc =>
    let t' := (t * r / 2 ^ 256) / n
    expTaylor r left (n + 1) t' (acc + t')

/-- e^a to 256 bits with a sticky bit, for one later rounding to FP32. -/
def FVal.exp : FVal → FVal
  | .nan => .nan
  | .inf n => if n then .fin false 0 0 else .inf false
  | .fin n m e =>
    if m = 0 then .fin false 1 0
    else if floorLog2 m e ≥ 9 then (if n then .fin false 1 (-1000) else .fin false 1 1000)
    else
      let x : Int := (if n then -1 else 1) * ((cutTo m e (-256)).1 : Int)
      let k := x / (ln2Fix : Int)
      let r := (x - k * (ln2Fix : Int)).toNat
      .fin false (2 * expTaylor r 64 1 (2 ^ 256) (2 ^ 256) + 1) (k - 257)

/-! FP32 on patterns. -/

def f32 (x : W32) : FVal := fp32.decode x.toNat

/-- The value of an FP32 constant pattern. -/
def to32 (v : FVal) : W32 := BitVec.ofNat 32 (fp32.encode v).1

/-- A finite value that rounds to infinity in FP32. -/
def ovf32 (v : FVal) : Bool := (fp32.encode v).2

/-- Round to FP32 and read back as a value. -/
def rne32 (v : FVal) : FVal := f32 (to32 v)

def addF32 (a b : W32) : W32 := to32 ((f32 a).add (f32 b))
def mulF32 (a b : W32) : W32 := to32 ((f32 a).mul (f32 b))
/-- a · b + c with one rounding. -/
def fmaF32 (a b c : W32) : W32 := to32 (((f32 a).mul (f32 b)).add (f32 c))

def nan32 : W32 := 0x7FC00000
def isNan32 (x : W32) : Bool := (f32 x).isNan

/-! FP64 on patterns. -/

def f64 (x : W64) : FVal := fp64.decode x.toNat
def to64 (v : FVal) : W64 := BitVec.ofNat 64 (fp64.encode v).1
def addF64 (a b : W64) : W64 := to64 ((f64 a).add (f64 b))

end Sys2Proof.Machine
end

