-- ==== Sys2Proof/Machine/Formats.lean ====
section
/-! DEFINITION. Element formats, block scales, conversions into storage formats and stochastic rounding (R37 to R68). -/
namespace Sys2Proof.Machine

/-- Width in bits of a format code of Table 2-1; 0 for a reserved code. -/
def fmtBits : Nat → Nat
  | 0 => 32 | 1 => 16 | 2 => 16 | 3 => 8 | 4 => 8 | 5 => 8 | 6 => 6 | 7 => 6 | 8 => 4 | 9 => 4 | _ => 0

/-- The scaled group carries block scales (R39). -/
def isScaled (f : Nat) : Bool := 3 ≤ f && f ≤ 9
/-- The 16-bit group. -/
def is16 (f : Nat) : Bool := f == 1 || f == 2
/-- Stored in plane groups when native (R46). -/
def isSubByte (f : Nat) : Bool := 6 ≤ f && f ≤ 9
/-- FP6, FP4 and INT4, the dual-K formats (Table 3-1). -/
def isDK (f : Nat) : Bool := isSubByte f

/-- Bound M of Table 2-1. -/
def fmtBound : Nat → Int
  | 1 => 128 | 2 => 16 | 3 => 9 | 4 => 16 | 5 => 1 | 6 => 5 | 7 => 3 | 8 => 3 | 9 => 1 | _ => 0

/-- Emax of Table 2-1. -/
def fmtEmax : Nat → Int
  | 3 => 8 | 4 => 15 | 5 => 0 | 6 => 4 | 7 => 2 | 8 => 2 | 9 => 0 | _ => 0

/-- Exponent, mantissa and bias of a floating-point format. -/
def fmtFloat : Nat → FFmt
  | 0 => fp32 | 1 => bf16 | 2 => fp16 | 3 => ⟨4, 3, 7⟩ | 4 => ⟨5, 2, 15⟩ | 6 => ⟨3, 2, 3⟩ | 7 => ⟨2, 3, 1⟩ | 8 => ⟨2, 1, 1⟩
  | _ => fp32

/-- A two's complement integer of `w` bits as sign and magnitude. -/
def intFields (w x : Nat) : Bool × Nat :=
  let y := x % 2 ^ w
  if y ≥ 2 ^ (w - 1) then (true, 2 ^ w - y) else (false, y)

/-- A float pattern without infinity or NaN encodings. -/
def decodePlain (F : FFmt) (x : Nat) : FVal :=
  let neg := (x / 2 ^ (F.ebits + F.mbits)) % 2 == 1
  let ex := (x / 2 ^ F.mbits) % 2 ^ F.ebits
  let m := x % 2 ^ F.mbits
  if ex = 0 then .fin neg m F.qmin else .fin neg (2 ^ F.mbits + m) (F.qmin + ((ex : Int) - 1))

/-- The value of an element pattern (Table 2-1), without its block scale. -/
def decodeElem (f x : Nat) : FVal :=
  match f with
  | 5 => let r := intFields 8 x; .fin r.1 r.2 (-6)
  | 9 => let r := intFields 4 x; .fin r.1 r.2 (-2)
  | 3 => if x % 128 = 127 then .nan else decodePlain (fmtFloat 3) x
  | 6 => decodePlain (fmtFloat 6) x
  | 7 => decodePlain (fmtFloat 7) x
  | 8 => decodePlain (fmtFloat 8) x
  | _ => (fmtFloat f).decode x

/-- Largest finite magnitude pattern of a scaled floating-point format. -/
def fmtMaxCode : Nat → Nat
  | 3 => 0x7E | 4 => 0x7B | 6 => 0x1F | 7 => 0x1F | 8 => 0x7 | _ => 0

/-- Value of a scale byte as an exponent; 0xFF is the NaN scale and has none (R41). -/
def scaleExp (b : Byte) : Int := (b.toNat : Int) - 127

/-- An element with its block scale, exact (R258, R52). A NaN scale byte gives a NaN. -/
def decodeScaled (f x : Nat) (sc : Byte) : FVal :=
  if isScaled f then (if sc = 0xFF then .nan else (decodeElem f x).scale2 (scaleExp sc)) else decodeElem f x

/-- The 16-bit draw of stochastic rounding (R66). -/
def srDraw (seed : W64) (tid idx : Nat) : Nat :=
  let z : W64 := BitVec.ofNat 64 (tid % 2 ^ 24 * 2 ^ 40 + idx % 2 ^ 40)
  let z := z ^^^ seed
  let z := (z ^^^ (z >>> 30)) * 0xBF58476D1CE4E5B9
  let z := (z ^^^ (z >>> 27)) * 0x94D049BB133111EB
  let z := z ^^^ (z >>> 31)
  (z >>> 48).toNat

/-- Rounding of one conversion: to nearest even, or stochastic with its draw r (R65, R68). -/
inductive Rounding where
  | nearest
  | stochastic (r : Nat)
deriving DecidableEq, Repr

/-- m · 2^e as a multiple of 2^q under a rounding (R68: d is the 16 bits directly below the last bit kept). -/
def roundTo (rd : Rounding) (m : Nat) (e q : Int) : Nat :=
  if q ≤ e then m <<< (e - q).toNat
  else
    match rd with
    | .nearest => rneShift m (q - e).toNat
    | .stochastic r =>
      let d := (cutTo m e (q - 16)).1 % 65536
      (m >>> (q - e).toNat) + (if d + r ≥ 65536 then 1 else 0)

/-- Convert a finite value times 2^-x into a scaled-group format: pattern, and whether it saturated (R63, R65). -/
def convScaled (f : Nat) (rd : Rounding) (x : Int) (neg : Bool) (m : Nat) (e : Int) : Nat × Bool :=
  let w := fmtBits f
  if f = 5 ∨ f = 9 then
    let q : Int := if f = 5 then -6 else -2
    let k := roundTo rd m (e - x) q
    let top := 2 ^ (w - 1)
    if neg then (if k > top then (top, true) else ((2 ^ w - k) % 2 ^ w, false))
    else (if k > top - 1 then (top - 1, true) else (k, false))
  else
    let F := fmtFloat f
    let sg := if neg then 2 ^ (w - 1) else 0
    if m = 0 then (sg, false)
    else
      let q := keepExp (F.mbits + 1) F.qmin m (e - x)
      let b := F.magBits (roundTo rd m (e - x) q) q
      if b > fmtMaxCode f then (sg + fmtMaxCode f, true) else (sg + b, false)

/-- Convert to BF16, FP16 or FP32 under R64; a stochastic draw applies to BF16 and FP16. -/
def convIeee (f : Nat) (rd : Rounding) : FVal → Nat
  | .nan => (fmtFloat f).nanBits
  | .inf n => (fmtFloat f).signed n (fmtFloat f).infBits
  | .fin n m e =>
    let F := fmtFloat f
    if m = 0 then F.signed n 0
    else
      let q := keepExp (F.mbits + 1) F.qmin m e
      let b := F.magBits (roundTo rd m e q) q
      F.signed n (if b ≥ F.infBits then F.infBits else b)

/-- Larger magnitude exponent of two finite values, for amax (R62): ⌊log₂⌋ of the largest magnitude, none if all are 0. -/
def amaxExp : List FVal → Option Int
  | [] => none
  | .fin _ m e :: r =>
    if m = 0 then amaxExp r
    else
      match amaxExp r with
      | none => some (floorLog2 m e)
      | some x => some (if x < floorLog2 m e then floorLog2 m e else x)
  | _ :: r => amaxExp r

/-- Scale byte of an output block (Table 2-4). -/
def blockScale (f : Nat) (vals : List FVal) : Byte :=
  if vals.any (fun v => !v.isFinite) then 0xFF
  else
    match amaxExp vals with
    | none => 0x00
    | some l =>
      let x := l - fmtEmax f
      let x := if x < -127 then -127 else if x > 127 then 127 else x
      BitVec.ofNat 8 (127 + x).toNat

/-- Element of an output block whose scale byte is `sc`: pattern and saturation (Table 2-4). -/
def blockElem (f : Nat) (sc : Byte) (rd : Rounding) : FVal → Nat × Bool
  | .fin n m e =>
    if sc = 0xFF then (0, false) else convScaled f rd (scaleExp sc) n m e
  | _ => (0, false)

/-- x · 2^k modulo 65,535: a 16-bit rotation (R103). -/
def rotRes (x : Nat) (e : Int) : Nat := (x % 65535) * 2 ^ (e % 16).toNat % 65535

/-- Res of ±m · 2^e as a number below 65,535 (R103). -/
def resOf (neg : Bool) (m : Nat) (e : Int) : Nat :=
  let r := rotRes m e
  if neg then (65535 - r) % 65535 else r

/-- Residue of a value; specials have none and count zero. -/
def resVal : FVal → Nat
  | .fin n m e => resOf n m e
  | _ => 0

def resAdd (a b : Nat) : Nat := (a + b) % 65535
def resMul (a b : Nat) : Nat := a * b % 65535
def resNeg (a : Nat) : Nat := (65535 - a % 65535) % 65535

end Sys2Proof.Machine
end

