-- ==== Sys2Proof/Machine/Flags.lean ====
section
/-! DEFINITION. Status codes, the numeric flags of CORE_NUM_STATUS, the check registers, and saturating counts. -/
namespace Sys2Proof.Machine

def stDone : Byte := 0x00
def stSkips : Byte := 0x01
def stShape : Byte := 0x10
def stDesc : Byte := 0x11
def stAlias : Byte := 0x12
def stOversize : Byte := 0x14
def stSegment : Byte := 0x16
def stPoisoned : Byte := 0x17
def stRepeatOk : Byte := 0x20
def stPersistent : Byte := 0x21
def stFenced : Byte := 0x30
def stReset : Byte := 0x31
def stEscalated : Byte := 0x32

/-- A count that holds at its largest value. -/
def satAdd (cap a b : Nat) : Nat := if a + b ≥ cap then cap else a + b

/-- Flags after one FP32 result is written or handed off (R70): a NaN sets NAN_SEEN, a finite value that rounded to
infinity sets FP32_OVF. -/
def Core.noteF32 (c : Core) (v : FVal) : Core :=
  { c with nanSeen := c.nanSeen || v.isNan, fp32Ovf := c.fp32Ovf || ovf32 v }

/-- Saturations of a conversion (R63, R70). -/
def Core.noteSat (c : Core) (n : Nat) : Core := { c with satCount := satAdd 0xFFFF c.satCount n }

/-- CORE_NUM_STATUS as read (R70). -/
def Core.numStatus (c : Core) : W32 :=
  BitVec.ofNat 32 (c.satCount * 65536 + (if c.fp32Ovf then 8 else 0) + (if c.infSeen then 4 else 0)
    + (if c.nanSeen then 2 else 0) + (if c.stickySeen then 1 else 0))

/-- CORE_CHK_STATUS after a failure of KIND `kind` at WHERE `w` (R106). -/
def Core.noteCheck (c : Core) (kind w : Nat) : Core :=
  { c with chkStatus := setBits (setBits (setBits c.chkStatus 31 16 w) 7 4 kind) 0 0 1 }

/-- The repeat of the failed check passed: bit 2 of CORE_CHK_STATUS. -/
def Core.notePassed (c : Core) : Core := { c with chkStatus := setBits c.chkStatus 2 2 1 }

/-- CORE_CHK_RESID after a residue failure: C expected, Q observed. -/
def Core.noteResid (c : Core) (exp obs : Nat) : Core :=
  { c with chkResid := BitVec.ofNat 32 (exp % 65536 * 65536 + obs % 65536) }

end Sys2Proof.Machine
end

