-- ==== Sys2Proof/Machine/Operands.lean ====
section
/-! DEFINITION. Operand forms: tensor descriptors, the view they give, element addresses, reads and writes of elements and
block scales, and the checks of descriptors and of generated addresses (R287 to R303, R306 to R315). -/
namespace Sys2Proof.Machine

/-- One dimension of a view: extent, element stride, low and high padding (R289, R290). -/
structure Dim where
  ext : Nat
  str : Int
  plo : Nat
  phi : Nat
deriving DecidableEq, Repr

/-- A tensor descriptor, field by field (Table 9-1). -/
structure View where
  seg : Nat
  offset : Int
  fmt : Nat
  layout : Nat
  rank : Nat
  swz : Nat
  stoch : Bool
  zeroPad : Bool
  wr : Bool
  trec : Nat
  /-- Dimensions 0 to RANK - 1, the innermost first. -/
  dims : List Dim
deriving DecidableEq, Repr

/-- An n-bit field as a two's complement number. -/
def signedOf (n x : Nat) : Int := if x ≥ 2 ^ (n - 1) then (x : Int) - 2 ^ n else x

/-- Raw subfields of dimension 0 (Table 9-2). -/
def dim0Of (d : Desc) : Dim := ⟨bitsOf d 183 168, signedOf 4 (bitsOf d 167 164), bitsOf d 163 162, bitsOf d 161 160⟩

/-- Raw subfields of dimension k from 1 to 5; strides count 32 elements, slots in the compressed layout. -/
def dimOf (d : Desc) (k : Nat) : Dim :=
  let b := 32 * (k - 1)
  let u : Int := if bitsOf d 204 203 = 2 then 1 else 32
  ⟨bitsOf d (b + 31) (b + 18), u * signedOf 14 (bitsOf d (b + 17) (b + 4)), bitsOf d (b + 3) (b + 2), bitsOf d (b + 1) b⟩

def dimsOf (d : Desc) : List Dim :=
  let r := bitsOf d 202 200
  dim0Of d :: (List.range (r - 1)).map (fun k => dimOf d (k + 1))

def viewOf (d : Desc) : View :=
  { seg := bitsOf d 255 244, offset := bitsOf d 243 209, fmt := bitsOf d 208 205, layout := bitsOf d 204 203
    rank := bitsOf d 202 200, swz := bitsOf d 199 198, stoch := bitOf d 197, zeroPad := bitOf d 196, wr := bitOf d 195
    trec := bitsOf d 194 184, dims := dimsOf d }

/-- Extent of the view in one dimension (R290). -/
def Dim.view (d : Dim) : Nat := d.plo + d.ext + d.phi

/-- Shape of the view, innermost first. -/
def View.shape (v : View) : List Nat := v.dims.map Dim.view

def natProd : List Nat → Nat
  | [] => 1
  | a :: r => a * natProd r

/-- Innermost extent, rows (over every other dimension) and elements of the view (R251). -/
def View.inner (v : View) : Nat := (v.shape.headD 1)
def View.rows (v : View) : Nat := natProd (v.shape.drop 1)
def View.elems (v : View) : Nat := natProd v.shape

/-- Coordinates of linear index n in a shape, innermost first; an index beyond the shape goes on in the outermost
coordinate, beyond the view's extent (R292). -/
def coords : List Nat → Nat → List Nat
  | [], n => if n = 0 then [] else [n]
  | [_], n => [n]
  | e :: r, n => (if e = 0 then 0 else n % e) :: coords r (if e = 0 then 0 else n / e)

/-- Position of row r, column c: a row is the row-major index over every dimension but the innermost (R251). -/
def View.posOf (v : View) (row col : Nat) : List Nat :=
  col :: coords (v.shape.drop 1) row

/-- A coordinate is real (R290). -/
def Dim.real (d : Dim) (i : Nat) : Bool := d.plo ≤ i && i < d.plo + d.ext

/-- Every coordinate from a list is real. -/
def allReal : List Dim → List Nat → Bool
  | [], is => is.all (· == 0)
  | _ :: _, [] => false
  | d :: ds, i :: is => d.real i && allReal ds is

/-- Coordinates clamped to the real range; none where a dimension has no element (R292). -/
def clampReal : List Dim → List Nat → Option (List Nat)
  | [], _ => some []
  | _ :: _, [] => none
  | d :: ds, i :: is =>
    if d.ext = 0 then none
    else
      let j := if i < d.plo then d.plo else if i < d.plo + d.ext then i else d.plo + d.ext - 1
      (clampReal ds is).map (j :: ·)

/-- Σ (i - PLO) · stride. -/
def dotDims : List Dim → List Nat → Int
  | d :: ds, i :: is => ((i : Int) - d.plo) * d.str + dotDims ds is
  | _, _ => 0

/-- Element index of a position (R291). -/
def View.elemIndex (v : View) (pos : List Nat) : Int := v.offset + dotDims v.dims pos

/-! Segment entries (Table 9-9). -/

def segValid (e : BitVec 128) : Bool := bitOf e 127
def segOwner (e : BitVec 128) : Nat := bitsOf e 119 112
def segShared (e : BitVec 128) : Bool := bitOf e 106
def segFrozen (e : BitVec 128) : Bool := bitOf e 105
def segWrite (e : BitVec 128) : Bool := bitOf e 104
def segRead (e : BitVec 128) : Bool := bitOf e 103
def segDie (e : BitVec 128) : Nat := bitsOf e 99 98
def segTier (e : BitVec 128) : Nat := bitsOf e 97 96
def segLimit (e : BitVec 128) : Nat := bitsOf e 87 48
def segBase (e : BitVec 128) : Nat := bitsOf e 39 0

/-- Tensor record fields (Table 9-3). -/
def trSeed (r : Desc) : W64 := BitVec.ofNat 64 (bitsOf r 63 0)
def trTid (r : Desc) : Nat := bitsOf r 127 104
def trElemBase (r : Desc) : Nat := bitsOf r 99 64
def trSlot (r : Desc) : Nat := bitsOf r 191 179
def trKt (r : Desc) : Nat := bitsOf r 175 168
def trIndexBase (r : Desc) : Nat := bitsOf r 167 128
def trScaleSeg (r : Desc) : Nat := bitsOf r 255 244
def trScaleEn (r : Desc) : Bool := bitOf r 243
def trScaleOff (r : Desc) : Nat := bitsOf r 231 192

/-- Who makes a request (Table 9-10); a Coma request names the core whose scratchpad it reaches. -/
inductive Req where
  | core (n : Nat)
  | coma (engine core : Nat)
  | msu (n : Nat)
  | collective (io : Nat)
  | orbit (io : Nat)
  | host (io : Nat)
  | firmware (core : Nat)
deriving DecidableEq, Repr

/-- The core whose scratchpad a request's scratchpad segments name. -/
def Req.pad : Req → Nat
  | .core n => n
  | .coma _ c => c
  | .firmware c => c
  | _ => 0

/-- Tier and die are within reach (Table 9-10). -/
def Req.reaches (q : Req) (e : BitVec 128) : Bool :=
  match q with
  | .core _ => true
  | .coma g _ => segTier e != 1 || segDie e == g / 8
  | .msu _ => segTier e ≥ 2
  | .collective _ => segTier e ≥ 1
  | .orbit _ => segTier e ≥ 1
  | .host _ => segTier e ≥ 1
  | .firmware _ => true

/-- SOURCE of SEG_FAULT_STATUS (R315). -/
def Req.source : Req → Nat
  | .core n => n % 32
  | .coma g _ => 0x20 + g % 8
  | .msu n => if n < 12 then 0x30 + n % 3 else 0x38 + n % 2
  | .collective _ => 0x40
  | .orbit _ => 0x41
  | .host _ => 0x50
  | .firmware _ => 0xFF

/-- Segment unit that records a request's faults: compute die 0 to 3, IOA 4, IOB 5 (R315). -/
def Req.segUnit : Req → Nat
  | .core n => n / 32
  | .coma g _ => g / 8
  | .msu n => if n < 12 then n / 3 else 4 + (n - 12) / 2
  | .collective io => 4 + io
  | .orbit io => 4 + io
  | .host io => 4 + io
  | .firmware c => c / 32

/-- A write into a FROZEN segment that R313 does not bar: the update engine's are judged by the engine itself. -/
def Req.frozenOk : Req → Bool
  | .msu _ => true
  | .host _ => true
  | .firmware _ => true
  | _ => false

/-- Table 9-11, checks 1 to 5, as the KIND of the first that fails. -/
def segCheckBase (d : Dev) (q : Req) (seg : Nat) (rd wr : Bool) : Option Nat :=
  let e := d.segs.get seg
  let tag := match q with
    | .firmware _ => 0xFF
    | _ => d.ownerTag.toNat
  if !segValid e then some 1
  else if segOwner e ≠ tag then some 2
  else if !q.reaches e then some 3
  else if rd && !segRead e then some 4
  else if wr && !segWrite e then some 4
  else if wr && segFrozen e && !q.frozenOk then some 5
  else none

/-- Table 9-11 for a run of bytes of a segment: the KIND and byte offset of the first failure. -/
def segCheck (d : Dev) (q : Req) (seg : Nat) (rd wr : Bool) (off : Int) (n : Nat) : Option (Nat × Int) :=
  match segCheckBase d q seg rd wr with
  | some k => some (k, off)
  | none =>
    let lim : Int := 128 * segLimit (d.segs.get seg)
    if n = 0 then none
    else if off < 0 then some (6, off)
    else if lim < off + n then some (6, if off < lim then lim else off)
    else none

/-- Global address of byte offset `off` of a segment, for the scratchpad of core `pad` under swizzle `swz`. -/
def segAddr (d : Dev) (pad swz seg off : Nat) : Nat :=
  let e := d.segs.get seg
  let a := 128 * segBase e + off
  match segTier e with
  | 0 => spAddr pad swz a
  | 1 => dbBase (segDie e) + a
  | 2 => t1Base + a
  | _ => t2Base + a

/-- Bytes per record of the interleaved layout (Table 2-2). -/
def recordSize (f : Nat) : Nat :=
  match fmtBits f with
  | 8 => 33 | 6 => 25 | _ => 17

/-- Byte offsets within the segment, first and last, that element e touches (Table 9-4). -/
def elemSpan (v : View) (e : Nat) : Nat × Nat :=
  let w := fmtBits v.fmt
  if v.layout = 1 then
    let r := recordSize v.fmt * (e / 32)
    if w = 8 then (r + 1 + e % 32, r + 1 + e % 32)
    else if w = 6 then (r + 1 + 6 * (e % 32) / 8, r + 1 + (6 * (e % 32) + 5) / 8)
    else (r + 1 + e % 32 / 2, r + 1 + e % 32 / 2)
  else if isSubByte v.fmt then
    let g := 128 * w * (e / 1024) + e % 1024 / 8
    (g, g + 128 * (w - 1))
  else (w / 8 * e, w / 8 * e + w / 8 - 1)

/-- Global addresses that element e of a native or interleaved tensor touches. -/
def elemAddrs (d : Dev) (pad : Nat) (v : View) (e : Nat) : List Nat :=
  let w := fmtBits v.fmt
  let at_ (o : Nat) := segAddr d pad v.swz v.seg o
  let s := elemSpan v e
  if v.layout = 1 then (if s.1 = s.2 then [at_ s.1] else [at_ s.1, at_ s.2])
  else if isSubByte v.fmt then (List.range w).map (fun i => at_ (s.1 + 128 * i))
  else (List.range (w / 8)).map (fun i => at_ (s.1 + i))

/-- Little-endian value of the bytes at a list of addresses. -/
def gatherBytes (m : Mem) : List Nat → Nat
  | [] => 0
  | a :: r => (memGet m a).toNat + 256 * gatherBytes m r

/-- Bits (one per plane) of an element of a plane group. -/
def gatherPlanes (m : Mem) (bit : Nat) : List Nat → Nat
  | [] => 0
  | a :: r => (if bitOf (memGet m a) bit then 1 else 0) + 2 * gatherPlanes m bit r

/-- Pattern of stored element e (R45, R46, R49). -/
def loadElem (d : Dev) (pad : Nat) (v : View) (e : Nat) : Nat :=
  let w := fmtBits v.fmt
  let as := elemAddrs d pad v e
  if v.layout = 1 then
    if w = 8 then gatherBytes d.ms.mem as
    else if w = 6 then gatherBytes d.ms.mem as >>> (6 * (e % 32) % 8) % 64
    else if e % 2 = 0 then gatherBytes d.ms.mem as % 16 else gatherBytes d.ms.mem as / 16 % 16
  else if isSubByte v.fmt then gatherPlanes d.ms.mem (e % 8) as
  else gatherBytes d.ms.mem as

/-- The write items of element e with pattern x (R298). -/
def storeElem (d : Dev) (pad : Nat) (v : View) (e x : Nat) : List WItem :=
  let w := fmtBits v.fmt
  let as := elemAddrs d pad v e
  if v.layout = 1 then
    if w = 8 then as.map (fun a => ⟨a, 0xFF, BitVec.ofNat 8 x⟩)
    else if w = 6 then
      let sh := 6 * (e % 32) % 8
      let bits := x % 64 * 2 ^ sh
      let mask := 63 * 2 ^ sh
      (List.range as.length).map (fun i => ⟨as.getD i 0, BitVec.ofNat 8 (mask / 256 ^ i), BitVec.ofNat 8 (bits / 256 ^ i)⟩)
    else
      let sh := e % 2 * 4
      as.map (fun a => ⟨a, BitVec.ofNat 8 (15 * 2 ^ sh), BitVec.ofNat 8 (x % 16 * 2 ^ sh)⟩)
  else if isSubByte v.fmt then
    (List.range w).map (fun i => ⟨as.getD i 0, BitVec.ofNat 8 (2 ^ (e % 8)), BitVec.ofNat 8 (x / 2 ^ i % 2 * 2 ^ (e % 8))⟩)
  else (List.range (w / 8)).map (fun i => ⟨as.getD i 0, 0xFF, BitVec.ofNat 8 (x / 256 ^ i)⟩)

/-- Address of the scale byte of element e: the tensor's scale array, or the record's first byte (Table 9-4). -/
def scaleAddr (d : Dev) (pad : Nat) (v : View) (e : Nat) : Nat :=
  if v.layout = 1 then segAddr d pad v.swz v.seg (recordSize v.fmt * (e / 32))
  else
    let r := d.plan.trecs.get v.trec
    segAddr d pad v.swz (trScaleSeg r) (trScaleOff r + (e - trElemBase r) / 32)

/-- The zero encoding of every format is the pattern 0. -/
def zeroElem : Nat := 0

/-- Where a position reads from: a stored element, or the zero encoding (R292, R293). -/
def View.source (v : View) (pos : List Nat) : Option Nat :=
  if allReal v.dims pos then some (v.elemIndex pos).toNat
  else if isScaled v.fmt && !((v.dims.headD ⟨0, 0, 0, 0⟩).real (pos.headD 0)) then none
  else if v.zeroPad then none
  else (clampReal v.dims pos).map (fun p => (v.elemIndex p).toNat)

/-- Stored element whose block scale a position reads under, or none for scale byte 0x00 (R292, R293): the scale of the
block that holds the position, judged by whether the block has a real element in dimension 0. -/
def View.scaleSource (v : View) (pos : List Nat) : Option Nat :=
  let i0 := pos.headD 0 / 32 * 32
  let p := i0 :: pos.drop 1
  if allReal v.dims p then some (v.elemIndex p).toNat
  else if !((v.dims.headD ⟨0, 0, 0, 0⟩).real i0) then none
  else if v.zeroPad then none
  else (clampReal v.dims p).map (fun q => (v.elemIndex q).toNat)

/-- Pattern and scale byte that a read at a position returns. -/
def readPos (d : Dev) (pad : Nat) (v : View) (pos : List Nat) : Nat × Byte :=
  let x := match v.source pos with
    | some e => loadElem d pad v e
    | none => zeroElem
  let s : Byte := if isScaled v.fmt then
      match v.scaleSource pos with
      | some e => memGet d.ms.mem (scaleAddr d pad v e)
      | none => 0x00
    else 0x7F
  (x, s)

/-- Addresses a read at a position touches. -/
def readAddrs (d : Dev) (pad : Nat) (v : View) (pos : List Nat) : List Nat :=
  (match v.source pos with
    | some e => elemAddrs d pad v e
    | none => []) ++
  (if isScaled v.fmt then
    match v.scaleSource pos with
    | some e => [scaleAddr d pad v e]
    | none => []
   else [])

/-- Value that a read at a position decodes to (R258). -/
def readVal (d : Dev) (pad : Nat) (v : View) (pos : List Nat) : FVal :=
  let r := readPos d pad v pos
  decodeScaled v.fmt r.1 r.2

/-- A value as the vector unit holds it: beyond the FP32 range it becomes infinity of its sign (R258). -/
def toFp32Val (x : FVal) : W32 := to32 x

/-! Writing values: each element is converted by the destination's rounding; a scaled-group destination rewrites the scale
byte of each block the write touches, with amax over the positions the write covers (R299). -/

/-- Rounding of a destination element (R65, R67, R296). -/
def View.rounding (d : Dev) (v : View) (e : Nat) : Rounding :=
  if v.stoch then
    let r := d.plan.trecs.get v.trec
    .stochastic (srDraw (trSeed r) (trTid r) (trIndexBase r + (e - trElemBase r)))
  else .nearest

/-- Keep the entries of one block. -/
def inBlock (b : Nat) (l : List (Nat × FVal)) : List (Nat × FVal) := l.filter (fun c => c.1 / 32 == b)

/-- Items and saturations of one block: its scale byte, then its elements. -/
def storeBlock (d : Dev) (pad : Nat) (v : View) (l : List (Nat × FVal)) : List WItem × Nat :=
  match l with
  | [] => ([], 0)
  | c :: _ =>
    let sc := blockScale v.fmt (l.map (·.2))
    let es := l.map (fun x => (x.1, blockElem v.fmt sc (v.rounding d x.1) x.2))
    (⟨scaleAddr d pad v c.1, 0xFF, sc⟩ :: (es.map (fun x => storeElem d pad v x.1 x.2.1)).flatten,
     (es.filter (fun x => x.2.2)).length)

/-- Store a list of (element index, value): items to write and the number of saturations (R62 to R65). -/
def storeVals (d : Dev) (pad : Nat) (v : View) (l : List (Nat × FVal)) : List WItem × Nat :=
  if isScaled v.fmt then
    let blocks := (dedupAdj (l.map (fun c => c.1 / 32)))
    let bs := blocks.map (fun b => storeBlock d pad v (inBlock b l))
    ((bs.map (·.1)).flatten, (bs.map (·.2)).foldl (· + ·) 0)
  else ((l.map (fun c => storeElem d pad v c.1 (convIeee v.fmt (v.rounding d c.1) c.2))).flatten, 0)

/-- The real positions of a list of (position, value), as element indices (R294). -/
def realVals (v : View) : List (List Nat × FVal) → List (Nat × FVal)
  | [] => []
  | c :: r => if allReal v.dims c.1 then ((v.elemIndex c.1).toNat, c.2) :: realVals v r else realVals v r

/-! Checks of descriptors. -/

/-- Lowest and highest real element index, none where the view has no real element. -/
def elemRange : List Dim → Option (Int × Int)
  | [] => some (0, 0)
  | d :: ds =>
    if d.ext = 0 then none
    else
      let t : Int := d.str * ((d.ext : Int) - 1)
      (elemRange ds).map (fun r => if t < 0 then (r.1 + t, r.2) else (r.1, r.2 + t))

/-- Highest compressed slot and lowest (Table 9-4): slots step by one per 512 logical rows, by STR₁ per 512 columns. -/
def slotRange (v : View) : Option (Int × Int) :=
  match v.dims with
  | a :: b :: _ =>
    if a.ext = 0 ∨ b.ext = 0 then none
    else some (v.offset, v.offset + ((a.ext : Int) - 1) / 512 + ((b.ext : Int) - 1) / 512 * b.str)
  | _ => none

/-- Byte runs that the real elements of a view and their scales reach: (segment, first offset, length). -/
def viewRuns (d : Dev) (v : View) : List (Nat × Int × Nat) :=
  let r := d.plan.trecs.get v.trec
  if v.layout = 2 then
    match slotRange v with
    | none => []
    | some (lo, hi) =>
      (v.seg, lo * (128 * trSlot r), ((hi - lo + 1) * (128 * trSlot r)).toNat) ::
      (if isScaled v.fmt then
        let b (s : Int) : Int := (s - trElemBase r) / trKt r * 512 * 16 * trKt r + (s - trElemBase r) % trKt r * 16
        [(trScaleSeg r, trScaleOff r + b lo, ((b hi - b lo) + 511 * 16 * trKt r + 16).toNat)]
       else [])
  else
    match elemRange v.dims with
    | none => []
    | some (lo, hi) =>
      let lo := v.offset + lo
      let hi := v.offset + hi
      if lo < 0 then [(v.seg, lo, 1)]
      else
        let a := (elemSpan v lo.toNat).1
        let b := (elemSpan v hi.toNat).2
        let a := if v.layout = 1 then recordSize v.fmt * (lo.toNat / 32) else a
        (v.seg, a, b + 1 - a) ::
        (if isScaled v.fmt && v.layout == 0 then
          let s : Int := (lo - trElemBase r) / 32
          let t : Int := (hi - trElemBase r) / 32
          [(trScaleSeg r, trScaleOff r + s, (t - s + 1).toNat)]
         else [])

/-- First failure of a list of runs. -/
def checkRuns (d : Dev) (q : Req) (rd wr : Bool) : List (Nat × Int × Nat) → Option (Nat × Nat × Int)
  | [] => none
  | r :: rs =>
    match segCheck d q r.1 rd wr r.2.1 r.2.2 with
    | some k => some (r.1, k.1, k.2)
    | none => checkRuns d q rd wr rs

/-- Every region a view reaches lies within its segments with the permission needed: the fault's segment, KIND and
byte offset, or none (R242 check 6, R312). -/
def viewFault (d : Dev) (q : Req) (v : View) (wr : Bool) : Option (Nat × Nat × Int) :=
  checkRuns d q (!wr) wr (viewRuns d v)

/-- Insert by the magnitude of the stride. -/
def insDim (a : Dim) : List Dim → List Dim
  | [] => [a]
  | b :: r => if a.str.natAbs ≤ b.str.natAbs then a :: b :: r else b :: insDim a r

def sortDims : List Dim → List Dim
  | [] => []
  | a :: r => insDim a (sortDims r)

/-- Strict nesting over dimensions of extent above 1, in ascending stride (R302). -/
def nestedFrom : Nat → List Dim → Bool
  | _, [] => true
  | span, d :: r =>
    if d.str = 0 then false
    else if d.str.natAbs < span then false
    else nestedFrom (span + (d.ext - 1) * d.str.natAbs) r

def strictlyNested (v : View) : Bool := nestedFrom 1 (sortDims (v.dims.filter (fun d => d.ext > 1)))

/-- Dimension fields at or above RANK are zero (R288). -/
def upperDimsZero (d : Desc) : Bool :=
  let r := bitsOf d 202 200
  (List.range 5).all (fun k => k + 1 < r || bitsOf d (32 * k + 31) (32 * k) == 0)

/-- Table 9-6. -/
def layoutRules (d : Dev) (v : View) : Bool :=
  let d0 := v.dims.headD ⟨0, 0, 0, 0⟩
  let r := d.plan.trecs.get v.trec
  let has := v.trec < d.plan.trecCount
  match v.layout with
  | 0 =>
    if isScaled v.fmt then d0.str == 1 && d0.plo == 0 && d0.phi == 0 && v.trec != 0x7FF && (!has || trScaleEn r)
    else !v.stoch || v.trec != 0x7FF
  | 1 => isScaled v.fmt && d0.str == 1 && d0.plo == 0 && d0.phi == 0 && (!v.stoch || v.trec != 0x7FF)
  | _ =>
    v.fmt != 0 && v.rank == 2 && d0.str == 1 && v.dims.all (fun x => x.plo == 0 && x.phi == 0) && v.trec != 0x7FF &&
    (!has || (1 ≤ trKt r && 1 ≤ trSlot r && (v.dims.getD 1 ⟨0, 0, 0, 0⟩).str == trKt r && (!isScaled v.fmt || trScaleEn r)))

/-- Full validation (Table 9-5) for a requester: the status of the first check that fails, and the fault of check 5 or 8. -/
def validateDesc (d : Dev) (q : Req) (x : Desc) : Option (Nat × Option (Nat × Nat × Int)) :=
  let v := viewOf x
  let r := d.plan.trecs.get v.trec
  if v.fmt > 9 ∨ v.layout = 3 ∨ v.rank = 0 ∨ v.rank = 7 ∨ v.swz = 3 ∨ !upperDimsZero x then some (0x11, none)
  else if !layoutRules d v then some (0x11, none)
  else if v.trec ≠ 0x7FF ∧ d.plan.trecCount ≤ v.trec then some (0x11, none)
  else if isScaled v.fmt ∧ (v.offset % 32 ≠ 0 ∨ (v.trec ≠ 0x7FF ∧ trElemBase r % 32 ≠ 0)) then some (0x11, none)
  else
    match segCheckBase d q v.seg true v.wr with
    | some k => some (0x16, some (v.seg, k, 0))
    | none =>
      if v.wr ∧ segFrozen (d.segs.get v.seg) then some (0x16, some (v.seg, 5, 0))
      else if v.swz ≠ 0 ∧ segTier (d.segs.get v.seg) ≠ 0 then some (0x11, none)
      else if v.wr ∧ !strictlyNested v then some (0x12, none)
      else
        match checkRuns d q true v.wr (viewRuns d v) with
        | some f => some (0x16, some f)
        | none => none

/-- R303: a scaled-group descriptor is used only with its OFFSET on a block boundary. -/
def alignedUse (v : View) : Bool := !(isScaled v.fmt) || v.offset % 32 == 0

end Sys2Proof.Machine
end

