-- ==== Sys2Proof/Machine/Ops.lean ====
section
/-! DEFINITION. The operations that every family shares: access to cores and logical cores, reads and writes with their
error codes and poison, unit health and error records, the vote to void, stopping, starting and switching logical cores. -/
namespace Sys2Proof.Machine

def Dev.core (d : Dev) (n : Nat) : Core := d.cores.get n
def Dev.setCore (d : Dev) (n : Nat) (c : Core) : Dev := { d with cores := d.cores.set n c }
def Dev.updCore (d : Dev) (n : Nat) (f : Core → Core) : Dev := d.setCore n (f (d.core n))
def Dev.lc (d : Dev) (n : Nat) : LCore := d.lcs.get n
def Dev.setLc (d : Dev) (n : Nat) (l : LCore) : Dev := { d with lcs := d.lcs.set n l }
def Dev.updLc (d : Dev) (n : Nat) (f : LCore → LCore) : Dev := d.setLc n (f (d.lc n))
def Dev.coma (d : Dev) (n : Nat) : Coma := d.comas.get n
def Dev.setComa (d : Dev) (n : Nat) (c : Coma) : Dev := { d with comas := d.comas.set n c }
def Dev.updComa (d : Dev) (n : Nat) (f : Coma → Coma) : Dev := d.setComa n (f (d.coma n))
def Dev.die (d : Dev) (n : Nat) : Die := d.dies.get n
def Dev.updDie (d : Dev) (n : Nat) (f : Die → Die) : Dev := { d with dies := d.dies.set n (f (d.dies.get n)) }

/-! Units, error records and health (chapter 15). -/

/-- Unit IDs: class in [15:12], index in [11:0] (R466). -/
def unitCore (n : Nat) : Nat := n
def unitComa (n : Nat) : Nat := 0x1000 + n
def unitMsu (n : Nat) : Nat := 0x2000 + n
def unitColl (io : Nat) : Nat := 0x3000 + io
def unitOrb (io : Nat) : Nat := 0x4000 + io
def unitDieBuf (k : Nat) : Nat := 0x5000 + k
def unitStack (s : Nat) : Nat := 0x6000 + s
def unitT2 (g : Nat) : Nat := 0x7000 + g
def unitLink (l : Nat) : Nat := 0x8000 + l

def msuIo (n : Nat) : Nat := if n < 6 then 0 else if n < 12 then 1 else if n < 14 then 0 else 1

/-- IO die whose queue takes a unit's records. -/
def unitIo (u : Nat) : Nat :=
  let i := u % 4096
  match u / 4096 with
  | 0 => i / 64
  | 1 => i / 16
  | 2 => msuIo i
  | 3 => i % 2
  | 4 => i % 2
  | 5 => i / 2
  | 6 => i / 6
  | 7 => i / 2
  | _ => i / 24

/-- Number of the orbit now running, or of the last that ran. -/
def Dev.curOrbit (d : Dev) : Nat := match d.runs.getLast? with
  | some r => r.num
  | none => 0

/-- Put an error record into its IO die's queue of 256, or drop and count it (R490). DROPPED is filled at the delivery. -/
def Dev.pushErr (d : Dev) (type status unit kind where_ residue : Nat) : Dev :=
  let io := unitIo unit
  let h := d.health.get unit
  let q := d.errQ.get io
  if q.length ≥ 256 then { d with errDropped := d.errDropped.set io (satAdd 0xFFFF (d.errDropped.get io) 1), errSeq := d.errSeq + 1 }
  else
    let r : ErrRec :=
      { type := type, status := status, unit := unit, kind := kind, state := h.state
        level := h.level, jobTime := d.time, orbit := d.curOrbit, sequence := d.errSeq, where_ := where_, residue := residue
        poweredMin := d.poweredMin, dropped := 0 }
    { d with errQ := d.errQ.set io (q ++ [r]), errSeq := d.errSeq + 1 }

def Dev.updHealth (d : Dev) (u : Nat) (f : HealthRec → HealthRec) : Dev := { d with health := d.health.set u (f (d.health.get u)) }

/-- Count one transient: the window, the lifetime count, and the climb that HIST_LIMIT causes (R475). -/
def HealthRec.transient (h : HealthRec) (s : Settings) (now : Nat) : HealthRec :=
  let h := { h with transients := satAdd 0xFFFFFFFF h.transients 1, lastEvent := now,
                    windowStart := if h.windowOpen then h.windowStart else now, windowOpen := true }
  if h.windowCount + 1 ≥ s.histLimit then { h with windowCount := 0, windowOpen := false, climb := true }
  else { h with windowCount := h.windowCount + 1 }

/-- A transient of a unit with its error record (R470, R588). -/
def Dev.transient (d : Dev) (u kind where_ residue : Nat) : Dev :=
  let d := d.updHealth u (·.transient d.settings d.poweredMin)
  d.pushErr 0x01 0x20 u kind where_ residue

/-- An uncorrectable event of a unit of class 0x5 to 0x7 (R480, R588): TYPE MEMORY 0x04 or INTEGRITY 0x08. -/
def Dev.memEvent (d : Dev) (type u where_ : Nat) : Dev :=
  let h := d.health.get u
  let h := { h with lastEvent := d.poweredMin, windowStart := if h.windowOpen then h.windowStart else d.poweredMin,
                    windowOpen := true, memCount := satAdd 0xFFFF h.memCount 1 }
  let hit := d.settings.memLimit ≤ h.memCount
  let d := { d with health := d.health.set u (if hit then { h with memCount := 0 } else h) }
  let d := d.pushErr type 0x00 u 0 where_ 0
  if hit then d.pushErr 0x06 0x00 u 0 0 0 else d

/-! The vote to void (R472) and stopping. -/

/-- REASON bits of Table 14-9. -/
def rsLate : Nat := 0
def rsCorrMissed : Nat := 1
def rsStopped : Nat := 2
def rsPoison : Nat := 3
def rsReducedMissed : Nat := 4
def rsScaleMismatch : Nat := 5
def rsMemoryMiss : Nat := 6
def rsTime : Nat := 7

/-- Apply a function to the run of orbit n that has not completed. -/
def updRun (n : Nat) (f : OrbitRun → OrbitRun) : List OrbitRun → List OrbitRun
  | [] => []
  | r :: rs => if r.num = n ∧ !r.completed then f r :: rs else r :: updRun n f rs

def findRun (n : Nat) : List OrbitRun → Option OrbitRun
  | [] => none
  | r :: rs => if r.num = n ∧ !r.completed then some r else findRun n rs

/-- VOID message of this module for an orbit (R426, R486). -/
def voidMsg (d : Dev) (orbit unit status reason : Nat) : BitVec 256 :=
  BitVec.ofNat 256 (0x02 + d.plan.modIndex * 2 ^ 8 + orbit % 2 ^ 32 * 2 ^ 32 + unit * 2 ^ 64 + status * 2 ^ 80 + reason * 2 ^ 96)

/-- The module votes to void orbit n with a reason (R472): before its VOTE leaves, the VOTE carries it; after that a VOID
message goes out in the next control slot; after a passed VOTE_CLOSE the update is not withheld (R487). -/
def Dev.voteVoid (d : Dev) (n bit unit status : Nat) : Dev :=
  match findRun n d.runs with
  | none => d
  | some r =>
    let r' := { r with
      reason := setBits r.reason bit bit 1
      reasonUnit := if r.reason = 0 then unit else r.reasonUnit
      reasonStatus := if r.reason = 0 then status else r.reasonStatus }
    let late := r.closed && r.passed
    let d := { d with runs := updRun n (fun _ => if late then { r' with persistent := some (r'.persistent.getD 0x21) } else r') d.runs }
    let d := if r.voteSent then { d with ownMsgs := d.ownMsgs ++ [voidMsg d n unit status (2 ^ bit)] } else d
    let d := if late then { d with restrict := some (d.restrict.getD 0x21) } else d
    if late && r.persistent.isNone then d.pushErr 0x07 0x21 unit 0 0 0 else d

/-- The first stop code of an orbit with its logical core (R229). -/
def Dev.noteStop (d : Dev) (n code lc : Nat) : Dev :=
  { d with runs := updRun n (fun r => { r with stop := some (r.stop.getD (code, lc)) }) d.runs }

/-- Outstanding work of a logical core on a core: lowest program order not complete. -/
def Core.outstanding (c : Core) (lc : Nat) : List Nat :=
  (c.arrayQ.filter (fun e => e.who.lc == lc)).map (·.who.seq)
  ++ ((match c.load with
      | some j => if j.who.lc = lc then [j.who.seq] else []
      | none => [])
  ++ ((c.streams.filter (fun r => r.who.lc == lc)).map (·.who.seq)
  ++ ((c.vecQ.filter (fun r => r.who.lc == lc)).map (·.who.seq)
  ++ ((c.moveQ.filter (fun r => r.who.lc == lc)).map (·.who.seq)
  ++ (c.takes.filter (fun r => r.who.lc == lc)).map (·.who.seq)))))

/-- Every instruction that the logical core issued before program order `seq` has completed. -/
def Core.allDone (c : Core) (lc seq : Nat) : Bool := (c.outstanding lc).all (fun q => seq ≤ q)

/-- Drop the unfinished work of a logical core (at a stop). -/
def Core.dropWork (c : Core) (lc : Nat) : Core :=
  let ids := (c.streams.filter (fun r => r.who.lc == lc)).map (·.id)
  { c with
    arrayQ := c.arrayQ.filter (fun e => e.who.lc != lc)
    load := match c.load with
      | some j => if j.who.lc = lc then none else some j
      | none => none
    streams := c.streams.filter (fun r => r.who.lc != lc)
    steps := c.steps.filter (fun t => !ids.contains t.stream)
    vecQ := c.vecQ.filter (fun r => r.who.lc != lc)
    moveQ := c.moveQ.filter (fun r => r.who.lc != lc)
    takes := c.takes.filter (fun r => r.who.lc != lc)
    pendingRepeat := none }

/-- Set bank b of a logical core's semaphores to the binding's initial values (R219). -/
def LCore.resetBank (l : LCore) (b : Nat) : LCore :=
  { l with sems := (List.range 32).foldl (fun s i => s.set (32 * b + i) (l.semInit.get i)) l.sems }

/-- Semaphore i of the bank of orbit n. -/
def LCore.sem (l : LCore) (n i : Nat) : Nat := (l.sems.get (32 * (n % 2) + i)).toNat
def LCore.setSem (l : LCore) (n i v : Nat) : LCore := { l with sems := l.sems.set (32 * (n % 2) + i) (BitVec.ofNat 16 v) }

/-- A logical core ends its orbit in phase `p`: its bank is reset, and a later orbit whose start slot has passed is owed to
it at once (R219, R233). -/
def LCore.endOrbit (l : LCore) (p : Phase) : LCore :=
  let l := { l.resetBank (l.orbit % 2) with ends := l.ends + 1 }
  match l.owed with
  | some n => { l with phase := .notStarted, orbit := n, owed := none }
  | none => { l with phase := p }

/-- A logical core can take over its core (R230). -/
def LCore.ready (l : LCore) : Bool :=
  l.bound && (match l.phase with
    | .notStarted => true
    | .yielded => true
    | .yieldedWait i c => decide (c ≤ l.sem l.orbit i)
    | _ => false)

/-- The logical cores bound to a physical core, in ascending number (a logical core is bound within its die, R207). -/
def Dev.boundTo (d : Dev) (core : Nat) : List Nat :=
  ((List.range 128).map (fun i => 128 * (core / 32) + i)).filter (fun n => (d.lc n).bound && (d.lc n).phys == core)

/-- The first ready logical core after `cur` in ascending number, wrapping (R230). -/
def Dev.nextReady (d : Dev) (core cur : Nat) : Option Nat :=
  let l := (d.boundTo core).filter (fun n => (d.lc n).ready && n != cur)
  match l.find? (fun n => cur < n) with
  | some n => some n
  | none => match l.head? with
    | some n => some n
    | none => if (d.lc cur).ready && (d.lc cur).phys == core then some cur else none

/-- MSEM of each held record is incremented, in record order (R339). -/
def heldSems (m : Mem) (a n : Nat) (l : LCore) : Nat → Nat → LCore
  | 0, _ => l
  | k + 1, i =>
    let s := (heldRec m a i).2.2.1
    heldSems m a n (l.setSem n s (l.sem n s + 1)) k (i + 1)

/-- Copy held deliveries of a logical core into the scratchpad of its core (R339). -/
def Dev.takeHeld (d : Dev) (core lc : Nat) : Dev :=
  let a := ctxArea lc
  let n := imgHeld d.ms.mem a
  if n = 0 then d
  else
    let ms := copyHeld d.ms a core n 0
    let l := heldSems d.ms.mem a (d.lc lc).orbit (d.lc lc) n 0
    { d.setLc lc l with ms := { ms with mem := memWrite ms.mem (a + 64) 4 0 } }

/-- Entry registers of an orbit (Table 7-3). -/
def LCore.enter (l : LCore) (lc : Nat) (p : Plan) : LCore :=
  { l with
    s := (((((Bank.const (0 : W64)).set 0 (BitVec.ofNat 64 l.orbit)).set 1 (BitVec.ofNat 64 p.modIndex)).set 2
      (BitVec.ofNat 64 p.modules)).set 3 (BitVec.ofNat 64 lc)).set 4 l.param
    sPoison := Bank.const false
    d := Bank.const DReg.empty
    pc := l.entry
    phase := .running }

/-- A fresh start of a logical core on its physical core (R92, R212, R231). -/
def Dev.startFresh (d : Dev) (core lc : Nat) : Dev :=
  let d := d.takeHeld core lc
  let d := d.updLc lc (fun l => l.enter lc d.plan)
  d.updCore core (fun c => { c with lc := lc, occupied := true, epi0 := Epilogue.none, epi1 := Epilogue.none, curEpi := 0,
                                    tableSegs := 0, segTable := Bank.const 0 })

/-- The image at an area may be restored onto a core (R340). -/
def Dev.imageOk (d : Dev) (a core : Nat) : Bool :=
  imgValid d.ms.mem a && imgDigest d.ms.mem a == d.plan.digest && imgDie d.ms.mem a == core / 32
    && (!imgFeeder d.ms.mem a || 24 ≤ core % 32)

/-- Restore a yielded logical core from its context area (R231, R337 to R340). -/
def Dev.restoreLc (d : Dev) (core lc : Nat) : Dev :=
  let a := ctxArea lc
  let l := rdSequencer d.ms.mem (a + 0x1000) (d.lc lc)
  let l := match l.phase with
    | .yieldedWait i n => { l.setSem l.orbit i (l.sem l.orbit i - n) with phase := .running }
    | _ => { l with phase := .running }
  let d := { d.setLc lc l with ms := loadPad d.ms a core }
  let d := d.takeHeld core lc
  d.updCore core (fun c => { loadCore d.ms.mem a c with lc := lc, occupied := true })

/-- Give an unoccupied core to the next ready logical core (R230, R231). A core that is fenced or retired takes none. -/
def Dev.schedule (d : Dev) (core : Nat) : Dev :=
  let c := d.core core
  if c.occupied || c.fenced || c.retired then d
  else
    match d.nextReady core c.lc with
    | none => d
    | some n =>
      match (d.lc n).phase with
      | .notStarted => d.startFresh core n
      | _ =>
        if d.imageOk (ctxArea n) core && imgLc d.ms.mem (ctxArea n) == n then d.restoreLc core n
        else d

/-- A logical core stops with a status (R226, R228, R471, R499): it counts as halted, its work ends, the module votes to
void with REASON STOPPED, and the core goes to the next ready logical core. -/
def Dev.stopLc (d : Dev) (lc : Nat) (code : Byte) (unit : Nat) : Dev :=
  let l := d.lc lc
  let n := l.orbit
  let core := l.phys
  let isOver := match l.phase with
    | .halted => true
    | .stopped _ => true
    | _ => false
  let d := (d.noteStop n code.toNat lc).voteVoid n rsStopped unit code.toNat
  if isOver then d
  else
    let mine := (d.core core).lc == lc && (d.core core).occupied
    let d := { d with signals := d.signals.filter (fun g => match g.src with
      | some w => w.lc != lc || (d.core core).allDone lc w.seq
      | none => true) }
    let d := d.updLc lc (·.endOrbit (.stopped code))
    let d := d.updCore core (fun c =>
      let c := if mine then c.dropWork lc else c
      { c with stopCode := code, fault := true, occupied := c.occupied && !mine })
    d.schedule core

/-- R226: a poisoned control value stops the logical core before the instruction issues. -/
def Dev.stopPoisoned (d : Dev) (lc : Nat) : Dev :=
  let core := (d.lc lc).phys
  (d.updCore core (fun c => { c with poisonCtrl := true })).stopLc lc stPoisoned (unitCore core)

/-- A status from 0x10 to 0x16, or 0x21, 0x30 to 0x32, stops the logical core that receives it; the others do not. -/
def stopsLc (st : Byte) : Bool :=
  let n := st.toNat
  (0x10 ≤ n && n ≤ 0x16) || n == 0x21 || (0x30 ≤ n && n ≤ 0x32)

/-- The program counter returns to the stopping instruction (CORE_SEQ_PC). -/
def Dev.atInstr (d : Dev) (who : Issuer) : Dev :=
  d.updLc who.lc (fun l => if l.orbit = who.orbit then match l.phase with
    | .halted => l
    | .stopped _ => l
    | _ => { l with pc := who.pc }
    else l)

/-- An instruction of a logical core, or a command that it submitted, completes with a status (R228, R236). -/
def Dev.complete (d : Dev) (who : Issuer) (st : Byte) (unit : Nat) : Dev :=
  if stopsLc st then (d.atInstr who).stopLc who.lc st unit else d

/-! Retirement, climbs and persistent failures. -/

/-- Retire one core or Coma engine: it stays in reset (R477). -/
def Dev.retireOne (d : Dev) (u : Nat) : Dev :=
  let d := d.updHealth u (fun h => { h with state := 2, lastChange := d.poweredMin, climb := false })
  let d := if u < 4096 then d.updCore u (fun c => { c.reset with retired := true })
    else d.updComa (u % 4096) (fun c => { c.reset with retired := true })
  d.pushErr 0x03 0x21 u 0 0 0

/-- The unit that is retired with it: a gather core and its Coma engine (R14, R477). -/
def partner (u : Nat) : Option Nat :=
  if u < 4096 then (if 24 ≤ u % 32 then some (unitComa (8 * (u / 32) + (u % 32 - 24))) else none)
  else some (unitCore (32 * (u % 4096 / 8) + 24 + u % 4096 % 8))

/-- The physical core whose logical cores a failing core or engine takes with it. -/
def failingCore (u : Nat) : Nat := if u < 4096 then u else (partner u).getD 0

/-- Stop every logical core bound to a physical core (R471, R499). -/
def Dev.stopBound (d : Dev) (core : Nat) (code : Byte) (unit : Nat) : Dev :=
  (d.boundTo core).foldl (fun d n => match (d.lc n).phase with
    | .halted => d
    | .stopped _ => d
    | _ => d.stopLc n code unit) d

/-- Every command in an engine's queue ends with a status: the logical cores that submitted them stop. -/
def Dev.failQueue (d : Dev) (g : Nat) (code : Byte) (unit : Nat) : Dev :=
  (d.coma g).queue.foldl (fun d c => d.complete c.who code unit) d

/-- The Coma engine of a unit that is retired with its gather core. -/
def engineWith (u : Nat) : Option Nat := if 4096 ≤ u then some (u % 4096) else (partner u).map (· % 4096)

def Dev.retire (d : Dev) (u : Nat) : Dev :=
  let d := d.stopBound (failingCore u) stPersistent u
  let d := match engineWith u with
    | some g => d.failQueue g stPersistent u
    | none => d
  let d := d.retireOne u
  match partner u with
  | some p => d.retireOne p
  | none => d

/-- R479: a unit of class 0x2 to 0x4 faults the module. -/
def Dev.faultModule (d : Dev) (u : Nat) : Dev :=
  let n := d.curOrbit
  let d := d.voteVoid n rsStopped u 0x21
  let d := { d with moduleFault := true, faultN := true,
                    runs := updRun n (fun r => { r with persistent := some 0x21 }) d.runs }
  d.pushErr 0x05 0x21 u 0 0 0

/-- A persistent failure of a unit: counts, record, and the climb, retirement or module fault that follows (R471, R477). -/
def Dev.persistentAs (d : Dev) (type u kind where_ residue : Nat) : Dev :=
  let d := d.updHealth u (fun h => { h with persistents := satAdd 0xFFFFFFFF h.persistents 1,
                                            persistReset := satAdd 0xFF h.persistReset 1, lastEvent := d.poweredMin,
                                            failedOrbit := true })
  let d := d.pushErr type 0x21 u kind where_ residue
  if (d.health.get u).level ≥ 3 then
    if u / 4096 ≤ 1 then d.retire u else if u / 4096 ≤ 4 then d.faultModule u else d
  else d.updHealth u (fun h => { h with climb := true })

/-- A failed check whose repeat failed: TYPE CHECK (R588). -/
def Dev.persistent (d : Dev) (u kind where_ residue : Nat) : Dev := d.persistentAs 0x01 u kind where_ residue

/-- A repeat failed, or a failure that is persistent from the start: every logical core bound to the unit's core counts as
halted, and the unit's health changes (R471). -/
def Dev.failUnit (d : Dev) (u kind where_ residue : Nat) : Dev :=
  (d.stopBound (failingCore u) stPersistent u).persistent u kind where_ residue

/-- A climb waiting for a start slot takes effect (R474, R475, R477). -/
def Dev.applyClimb (d : Dev) (u : Nat) : Dev :=
  let h := d.health.get u
  if !h.climb ∨ h.state = 2 then d
  else if h.level ≥ 3 then
    (if u / 4096 ≤ 1 then d.retire u else if u / 4096 ≤ 4 then (d.updHealth u (fun h => { h with climb := false })).faultModule u else d)
  else
    (d.updHealth u (fun h => { h with level := h.level + 1, state := 1, climb := false, lastChange := d.poweredMin })).pushErr
      0x02 0x00 u 0 0 0

/-! Reads and writes with their error codes. -/

/-- Memory-side unit that serves an address of tier 1, tier 2 or a die buffer (R13, R346, R351, R359). -/
def msuOf (a : Nat) : Nat :=
  if a < 2 ^ 34 then 3 * ((a - 2 ^ 32) / dbSize)
  else if a < t2Base then (a - t1Base) / stackSize
  else 12 + (a - t2Base) / 4096 % 48 / 12

/-- Health unit and granule number of an address outside the scratchpads (Table 15-8, WHERE). -/
def memUnit (a : Nat) : Nat × Nat :=
  if a < 2 ^ 34 then (unitDieBuf ((a - 2 ^ 32) / dbSize), (a - 2 ^ 32) % dbSize / 512)
  else if a < t2Base then (unitStack ((a - t1Base) / stackSize), (a - t1Base) % stackSize / 4096)
  else (unitT2 ((a - t2Base) / 4096 % 48 / 12), (a - t2Base) / 4096 / 48 * 12 + (a - t2Base) / 4096 % 12)

def Dev.updMemErr (d : Dev) (u : Nat) (f : MemErr → MemErr) : Dev := { d with memErr := d.memErr.set u (f (d.memErr.get u)) }

def Dev.markPoison (d : Dev) (a : Nat) : Dev := { d with ms := { d.ms with poison := d.ms.poison.set (granule a) true } }

/-- One error-code word is read (R343, R346, R356, R361): a flipped bit is corrected and counted, an uncorrectable word is
delivered poisoned, its granule marked, counted and reported; a tier-2 line whose tag fails twice likewise. -/
def Dev.readWord (d : Dev) (w : Nat) : Dev :=
  if w < 2 ^ 32 then
    let core := w / spSize
    if d.ms.flip2.get w then
      let d := d.markPoison w
      let d := d.updCore core (fun c => { c with eccUncorr := satAdd 0xFFFF c.eccUncorr 1 }.noteCheck 0xA (w % spSize / 128) |>.notePassed)
      d.transient (unitCore core) 0xA (w % spSize / 128) 0
    else if d.ms.flip1.get w then d.updCore core (fun c => { c with eccCorr := satAdd 0xFFFF c.eccCorr 1 })
    else d
  else if hostBase ≤ w then d
  else if t1Base ≤ w ∧ w < t2Base ∧ !d.ms.written.get (granule w) then d
  else
    let m := msuOf w
    let u := memUnit w
    if d.ms.flip2.get w then
      ((d.markPoison w).updMemErr m (fun e => { e with uncorr := satAdd 0xFFF e.uncorr 1 })).memEvent 0x04 u.1 u.2
    else if t2Base ≤ w ∧ !d.ms.tagged.get w then
      ((d.markPoison w).updMemErr m (fun e => { e with tagFail := satAdd 0xFF e.tagFail 1 })).memEvent 0x08 u.1 u.2
    else if d.ms.flip1.get w then d.updMemErr m (fun e => { e with corr := satAdd 0xFFF e.corr 1 })
    else d

/-- Memory-side unit and channel of a tier-1 or tier-2 address (R352, R359). -/
def channelOf (key : W64) (a : Nat) : Nat × Nat :=
  if a < t2Base then
    let g := (a - t1Base) % stackSize / 256
    let u := Nat.xor (g / 32) (key.toNat % 2 ^ 24)
    let v := u * (key ||| 1).toNat % 2 ^ 64
    ((a - t1Base) / stackSize, Nat.xor (g % 32) (v / 2 ^ 59))
  else (12 + (a - t2Base) / 4096 % 48 / 12, (a - t2Base) / 4096 % 12)

/-- Count the 128 B accesses to the channels that a list of lines makes (R357). -/
def countLines (key : W64) (acc : Bank Nat) : List Nat → Bank Nat
  | [] => acc
  | a :: r => countLines key (if t1Base ≤ a ∧ a < hostBase then
      let c := channelOf key a
      acc.upd (32 * c.1 + c.2) (· + 1)
    else acc) r

def Dev.countAccess (d : Dev) (addrs : List Nat) : Dev :=
  { d with accesses := countLines d.ilKey d.accesses (sortNew (dedupAdj (addrs.map (· / 128 * 128)))) }

/-- A read of a list of addresses: its side effects, and whether its data is poisoned (R224). A granule of tier 1 that has
not been written is not accessed (R355). -/
def Dev.touch (d : Dev) (addrs : List Nat) : Dev × Bool :=
  let d := d.countAccess (addrs.filter (fun a => !(t1Base ≤ a ∧ a < t2Base) || d.ms.written.get (granule a)))
  let d := (sortNew (dedupAdj (addrs.map eccWord))).foldl Dev.readWord d
  (d, d.ms.anyPoison addrs)

/-- Tier-2 lines that a write covers only in part are read and checked first (R361). -/
def partialLines (masks : Bank Byte) : List Nat → List Nat
  | [] => []
  | w :: r => if t2Base ≤ w ∧ w < hostBase ∧ !coversWhole masks w 128 then w :: partialLines masks r else partialLines masks r

/-- Make a write, poisoned or clean. -/
def Dev.write (d : Dev) (items : List WItem) (p : Bool) : Dev :=
  let masks := writeMasks items
  let lines := partialLines masks (sortNew (masks.cells.map (fun c => eccWord c.1)))
  let d := d.countAccess (masks.cells.map (·.1))
  let bad := lines.filter (fun w => !d.ms.tagged.get w)
  let d := lines.foldl Dev.readWord d
  let d := { d with ms := d.ms.write items p }
  bad.foldl Dev.markPoison d

/-- Record a segment fault of a requester in its segment unit (R315). -/
def Dev.segFault (d : Dev) (q : Req) (seg kind : Nat) (off : Int) : Dev :=
  let f := d.segFaults.get q.segUnit
  let f' : SegFault := if f.fault then { f with more := true }
    else { segment := seg, kind := kind, source := q.source, offset := off.toNat % 2 ^ 48, more := f.more, fault := true }
  { d with segFaults := d.segFaults.set q.segUnit f' }

/-- Read every position of a list through a view: side effects and poison. -/
def Dev.touchView (d : Dev) (pad : Nat) (v : View) (ps : List (List Nat)) : Dev × Bool :=
  d.touch ((ps.map (readAddrs d pad v)).flatten)

/-! Signals. -/

/-- Send an increment on its way (R220). -/
def Dev.sendSignal (d : Dev) (g : SigFlight) : Dev := { d with signals := d.signals ++ [g] }

/-- The completion signal of an instruction that carries SIG_EN: one on SIG_SEM of its own logical core. -/
def Dev.sigOwn (d : Dev) (en : Bool) (who : Issuer) (sem : Nat) : Dev :=
  if en then d.sendSignal ⟨none, who.orbit, 0, who.lc, sem, 1, 0⟩ else d

/-- Draw a free value (see Config). -/
def Dev.draw (d : Dev) : Nat × Dev := (Sys2Proof.Config.freeNat d.free, { d with free := d.free + 1 })

end Sys2Proof.Machine
end

