-- ==== Sys2Proof/Machine/Issue.lean ====
section
/-! DEFINITION. How a core issues an instruction: the flow field, the interlock on s registers, the poison check, the
order of the issue checks, and what follows an issue: the program counter and the switch of logical cores (R215, R216,
R226, R230, R231, R239 to R242). -/
namespace Sys2Proof.Machine

/-! Fields of an instruction word (Table 8-1). -/

def wOpcode (w : IWord) : Nat := bitsOf w 7 0
def wCond (w : IWord) : Nat := bitsOf w 127 125
def wFreg (w : IWord) : Nat := bitsOf w 124 119
def wTarget (w : IWord) : Nat := bitsOf w 118 105

/-- s registers that the flow condition reads (Table 8-3). -/
def flowRegs (w : IWord) : List Nat :=
  if wCond w ≤ 1 then [] else if wCond w ≤ 5 then [wFreg w] else [wFreg w, (wFreg w + 1) % 64]

/-- The flow is taken (Table 8-3). -/
def flowTaken (l : LCore) (w : IWord) : Bool :=
  let a := l.s.get (wFreg w)
  let b := l.s.get ((wFreg w + 1) % 64)
  match wCond w with
  | 0 => false
  | 1 => true
  | 2 => a == 0
  | 3 => a != 0
  | 4 => a.msb
  | 5 => !a.msb
  | 6 => decide (b.toNat ≤ a.toNat)
  | _ => decide (a.toNat < b.toNat)

/-- The program counter after the flow test (R239, R240). -/
def LCore.flow (l : LCore) (w : IWord) : LCore :=
  { l with pc := if flowTaken l w then wTarget w else (l.pc + 1) % 16384 }

/-- A MOVE that loads s registers, and those registers (Table 8-13). -/
def mvLoads (w : IWord) : Bool := wOpcode w == 0x20 && bitOf w 17
def mvRegs (w : IWord) : List Nat := (List.range (bitsOf w 26 24 + 1)).map (bitsOf w 23 18 + ·)

/-- The flow is tested once the instruction's own results are there (R214); a poisoned register in the condition stops the
logical core (R226). -/
def Dev.testFlow (d : Dev) (lc : Nat) (w : IWord) : Dev :=
  if (flowRegs w).any (fun r => (d.lc lc).sPoison.get r) then d.stopPoisoned lc else d.updLc lc (fun l => l.flow w)

/-- s registers that an instruction writes: a scalar VOP, a MOVE into s registers, a TAKE. -/
def wDsts (w : IWord) : List Nat :=
  match wOpcode w with
  | 0x10 => if bitOf w 8 then [bitsOf w 21 16] else []
  | 0x20 => if mvLoads w then mvRegs w else []
  | 0x50 => [bitsOf w 13 8]
  | _ => []

/-- The logical core that runs on a core and can issue. -/
def Dev.runner (d : Dev) (core : Nat) : Option Nat :=
  let c := d.core core
  if c.occupied && !c.fenced && !c.retired && (d.lc c.lc).phase == .running then some c.lc else none

/-- A TAKE or a load of s registers that issue waits for: its flow is not tested yet, or it writes a register of the
instruction (R216, R240). -/
def Core.interlocked (c : Core) (regs : List Nat) : Bool :=
  c.takes.any (fun t => wCond t.word != 0 || regs.contains t.dst)
    || c.moveQ.any (fun r => mvLoads r.word && (wCond r.word != 0 || (mvRegs r.word).any (fun x => regs.contains x)))

/-- Every array-queue, vector, move and control instruction of the core has completed, apart from one STREAM at a step
boundary and entries not started (R338). -/
def Core.quiet (c : Core) : Bool :=
  c.load.isNone && c.steps.isEmpty && c.vecQ.isEmpty && c.moveQ.isEmpty && c.takes.isEmpty && c.pendingRepeat.isNone
    && c.streams.length ≤ 1 && c.streams.all (fun r => !r.ended && !r.held)

/-- Save the running logical core to its context area and free the core (R231, R337). -/
def Dev.saveLc (d : Dev) (core : Nat) : Dev :=
  let c := d.core core
  let l := d.lc c.lc
  let d := { d with ms := saveImage d.ms (ctxArea c.lc) core c.lc l.orbit d.plan.digest (24 ≤ core % 32) l c }
  let d := d.updLc c.lc (fun l => match l.phase with
    | .waiting i n => { l with phase := .yieldedWait i n }
    | _ => { l with phase := .yielded })
  d.setCore core { c with occupied := false, streams := [], arrayQ := [], handoff := [], rowQ := Bank.const []
                          scaleQ := Bank.const [] }

/-- What follows any event on a core: a WAIT whose count is met is released, a yield point with another logical core ready
saves and switches once the core is quiet, and an empty core takes the next ready logical core (R221, R230, R231, R283). -/
def Dev.settle (d : Dev) (core : Nat) : Dev :=
  let c := d.core core
  if !c.occupied then d.schedule core
  else
    let l := d.lc c.lc
    let other := match d.nextReady core c.lc with
      | some n => n != c.lc
      | none => false
    match l.phase with
    | .waiting i n =>
      if n ≤ l.sem l.orbit i then d.setLc c.lc { l.setSem l.orbit i (l.sem l.orbit i - n) with phase := .running }
      else if other && c.quiet then (d.saveLc core).schedule core
      else d
    | .yielded =>
      if !other then d.setLc c.lc { l with phase := .running }
      else if c.quiet then (d.saveLc core).schedule core
      else d
    | _ => d

/-- Place of word i of a core's instruction memory among the error marks. -/
def imemFlip (core i : Nat) : Nat := 2 ^ 36 + core * imemSize + 16 * i

/-- An uncorrectable instruction-memory word is a persistent failure of the core with KIND 0x9 (R243). -/
def Dev.imemBad (d : Dev) (core i : Nat) : Dev :=
  (d.updCore core (fun c =>
    let c := c.noteCheck 9 i
    { c with chkStatus := setBits c.chkStatus 1 1 1 })).failUnit (unitCore core) 9 i 0

/-- The word at the program counter is fetched: a single-bit error is corrected and counted (R243). -/
def Dev.fetched (d : Dev) (core i : Nat) : Dev :=
  if d.ms.flip1.get (imemFlip core i) then
    let d := { d with ms := { d.ms with flip1 := d.ms.flip1.set (imemFlip core i) false } }
    d.updCore core (fun c => { c with imemCorr := satAdd 0xFFFF c.imemCorr 1 })
  else d

/-- Issue one instruction word on a core. `regs` are the s registers it reads or writes, `ctl` those it uses in a role of
R226, `wait` says that the destination queue or another condition holds it back; `run` is what it does. The flow is tested
after the instruction's own register results (R214), but for a TAKE when its result arrives. A word whose error cannot be
corrected does not issue (R243). -/
def Dev.issue (d : Dev) (core : Nat) (w : IWord) (regs ctl : List Nat) (wait : Bool) (lateFlow : Bool)
    (run : Dev → Issuer → Dev) : Dev :=
  match d.runner core with
  | none => d
  | some n =>
    if (d.core core).interlocked (regs ++ flowRegs w) || wait then d
    else if d.ms.flip2.get (imemFlip core (d.lc n).pc) then (d.imemBad core (d.lc n).pc).settle core
    else
      let d := d.fetched core (d.lc n).pc
      let l := d.lc n
      if (ctl ++ (flowRegs w).filter (fun r => !(wDsts w).contains r)).any (fun r => l.sPoison.get r) then
        (d.stopPoisoned n).settle core
      else
        let who : Issuer := ⟨n, l.orbit, l.seq, l.pc⟩
        let d := run (d.setLc n { l with seq := l.seq + 1 }) who
        let l := d.lc n
        let goes := l.orbit == who.orbit && (match l.phase with
          | .running => !(lateFlow && wCond w != 0)
          | .waiting _ _ => true
          | .yielded => true
          | _ => false)
        (if goes then d.testFlow n w else d).settle core

/-- First status of a list of issue checks that fails (Table 8-4). -/
def firstFail : List (Bool × Byte) → Option Byte
  | [] => none
  | (bad, st) :: r => if bad then some st else firstFail r

/-- A d register named as a TENSOR operand is valid and of that kind (R241). -/
def LCore.tensorOk (l : LCore) (i : Nat) : Bool := (l.d.get i).valid && (l.d.get i).kind == .tensor
def LCore.headerOk (l : LCore) (i : Nat) : Bool := (l.d.get i).valid && (l.d.get i).kind == .header
def LCore.desc (l : LCore) (i : Nat) : Desc := (l.d.get i).bits
def LCore.view (l : LCore) (i : Nat) : View := viewOf (l.desc i)

/-- A 64-bit s register. -/
def LCore.reg (l : LCore) (i : Nat) : W64 := l.s.get i
/-- Write an s register with its poison bit. -/
def LCore.setReg (l : LCore) (i : Nat) (v : W64) (p : Bool) : LCore := { l with s := l.s.set i v, sPoison := l.sPoison.set i p }

/-- Tier of a view's segment. -/
def Dev.tierOf (d : Dev) (v : View) : Nat := segTier (d.segs.get v.seg)
def Dev.inPad (d : Dev) (v : View) : Bool := d.tierOf v == 0

/-- A view named where an instruction writes carries WR (R301). -/
def View.writable (v : View) : Bool := v.wr

/-- Segment faults of the regions an instruction knows at issue (check 6): (view, write). -/
def issueFault (d : Dev) (q : Req) : List (View × Bool) → Option (Nat × Nat × Int)
  | [] => none
  | (v, wr) :: r =>
    match viewFault d q v wr with
    | some f => some f
    | none => issueFault d q r

/-- Run the issue checks 2 to 5 and then 6; on a failure complete with its status, otherwise go on. -/
def Dev.checked (d : Dev) (who : Issuer) (core : Nat) (checks : List (Bool × Byte)) (regions : List (View × Bool))
    (go : Dev → Dev) : Dev :=
  match firstFail checks with
  | some st => d.complete who st (unitCore core)
  | none =>
    match issueFault d (.core core) regions with
    | some f => (d.segFault (.core core) f.1 f.2.1 f.2.2).complete who stSegment (unitCore core)
    | none => go d

end Sys2Proof.Machine
end

