-- ==== Sys2Proof/Machine/Array.lean ====
section
/-! DEFINITION. The matrix array: loading weight tiles, dense and compressed, array modes, steps, windows, residues, the
merge of residue entries, and the order of the array queue (chapters 2, 3 and 4 of the spec; R181 to R186). -/
namespace Sys2Proof.Machine

/-! Transposed reads through the staging buffer (R181, R183). -/

/-- The view with its two innermost dimensions exchanged. -/
def View.transposed (v : View) : View :=
  match v.dims with
  | a :: b :: r => { v with dims := b :: a :: r }
  | l => { v with dims := (⟨1, 0, 0, 0⟩ : Dim) :: l }

/-- Position of the stored view for a position of the transposed view. -/
def swapPos : List Nat → List Nat
  | a :: b :: r => b :: a :: r
  | l => l

/-- Conditions of R182 on a transposed operand, but for the feeder. -/
def Dev.transOk (d : Dev) (v : View) : Bool :=
  d.inPad v && (fmtBits v.fmt == 8 || fmtBits v.fmt == 16) && v.layout == 0
    && (v.dims.headD ⟨0, 0, 0, 0⟩).ext % 32 == 0

/-- Rescale one element into a block of scale exponent `x'` (R183): pattern and whether its value changed. -/
def rescaleElem (f x : Nat) (sc new : Byte) : Nat × Bool :=
  match decodeElem f x with
  | .fin n m e =>
    let y := (convScaled f .nearest (scaleExp new - scaleExp sc) n m e).1
    let back := (decodeElem f y).scale2 (scaleExp new)
    (y, !(back.eqv ((FVal.fin n m e).scale2 (scaleExp sc))))
  | _ => (x, false)

/-- Largest scale byte of a list, 0xFF when any is 0xFF (R183). -/
def maxScale (l : List Byte) : Byte := l.foldl (fun a b => if a.toNat < b.toNat then b else a) 0

/-- One block of 32 elements of a transposed row: (pattern, source scale) to (pattern, new scale) and changed elements. -/
def rescaleBlock (f : Nat) (l : List (Nat × Byte)) : List Nat × Byte × Nat :=
  let s := maxScale (l.map (·.2))
  if s = 0xFF then (l.map (fun _ => 0), 0xFF, 0)
  else
    let r := l.map (fun c => rescaleElem f c.1 c.2 s)
    (r.map (·.1), s, (r.filter (·.2)).length)

/-- Blocks of 32. -/
def chunk32 {α : Type} : Nat → List α → List (List α)
  | 0, _ => []
  | n + 1, l => if l.isEmpty then [] else l.take 32 :: chunk32 n (l.drop 32)

/-- Elements 0 to k - 1 of row `row` of an operand as the array reads it: patterns, scale bytes by block, and the elements
that a transposed read changed. A position beyond the view reads as `beyond` says. -/
def readRow (d : Dev) (pad : Nat) (v : View) (trans : Bool) (row k : Nat) : List Nat × List Byte × Nat :=
  if trans then
    let t := v.transposed
    let src (c : Nat) : Nat × Byte :=
      let p := t.posOf row c
      if isScaled v.fmt && !((t.dims.headD ⟨0, 0, 0, 0⟩).real c) then (0, 0x00) else readPos d pad v (swapPos p)
    let l := (List.range k).map src
    if isScaled v.fmt then
      let bs := (chunk32 (k / 32 + 1) l).map (rescaleBlock v.fmt)
      ((bs.map (·.1)).flatten, bs.map (·.2.1), (bs.map (·.2.2)).foldl (· + ·) 0)
    else (l.map (·.1), [], 0)
  else
    let l := (List.range k).map (fun c => readPos d pad v (v.posOf row c))
    (l.map (·.1), (List.range ((k + 31) / 32)).map (fun b => (l.getD (32 * b) (0, 0)).2), 0)

/-- Addresses that reading a row touches. -/
def rowAddrs (d : Dev) (pad : Nat) (v : View) (trans : Bool) (row k : Nat) : List Nat :=
  let t := v.transposed
  ((List.range k).map (fun c => if trans then readAddrs d pad v (swapPos (t.posOf row c)) else readAddrs d pad v (v.posOf row c))).flatten

/-! Modes (R74). -/

def modeD8 : Nat := 1
def modeD16 : Nat := 2
def modeDK : Nat := 3
def modeSP : Nat := 4

/-- Mode of a STREAM from the active weight set and the activation format; 0 where the operands do not pair (R40, R74).
A set as a core reset leaves it takes the activation's format (R80). -/
def arrayMode (w : WeightSet) (af : Nat) : Nat :=
  let wf := if w.format = 0 then af else w.format
  if af = 0 ∨ isScaled wf ≠ isScaled af then 0
  else if w.compressed then modeSP
  else if is16 wf && is16 af then modeD16
  else if isDK wf && isDK af then modeDK
  else modeD8

/-- Logical rows of a mode (Table 3-1). -/
def modeRows (m : Nat) : Nat := if m = modeSP then 512 else if m = modeDK then 256 else 128

/-! Loading weight tiles. -/

/-- Bits of a cell's element half: low element, or the element 128 logical rows higher. -/
def cellElem (c : BitVec 18) (wide hi : Bool) : Nat := if wide then bitsOf c 15 0 else if hi then bitsOf c 15 8 else bitsOf c 7 0

/-- Load one column of a dense tile: (cells to set as (p, value), scale bytes). Logical rows 128 and up go to the high
element in the formats that dual-K pairs. -/
def loadColumn (f : Nat) (x : List Nat) (ext : Nat) (p : Nat) : BitVec 18 :=
  let lo := if p < ext then x.getD p 0 else 0
  let hi := if isDK f && p + 128 < ext then x.getD (p + 128) 0 else 0
  BitVec.ofNat 18 (lo + (if isDK f then hi * 256 else 0))

/-- Residue of a weight with its block scale, as ρ sums it (R104). -/
def weightRes (f x : Nat) (sc : Byte) : Nat := resVal (decodeScaled f x sc)

/-- Columns of a dense tile from column n on: cells, scales and ρ grow column by column (R589). -/
def loadDense (d : Dev) (pad : Nat) (v : View) (trans : Bool) (rows cols : Nat) : Nat → Nat → WeightSet × Nat → WeightSet × Nat
  | 0, _, acc => acc
  | left + 1, n, (w, inexact) =>
    let r := if n < cols then readRow d pad v trans n rows else ([], [], 0)
    let cells := (List.range (min rows 128)).foldl (fun b p => b.set (512 * p + n) (loadColumn v.fmt r.1 rows p)) w.cells
    let nb := if isDK v.fmt then 8 else 4
    let scales := if isScaled v.fmt then
        (List.range nb).foldl (fun b i => b.set (16 * n + i) (r.2.1.getD i 0x00)) w.scales
      else w.scales
    let rho := (List.range r.1.length).foldl (fun b k =>
      b.upd (4 * (k % 128) + k / 128) (fun y => BitVec.ofNat 16 (resAdd y.toNat (weightRes v.fmt (r.1.getD k 0) (r.2.1.getD (k / 32) 0x7F))))) w.rho
    loadDense d pad v trans rows cols left (n + 1) ({ w with cells := cells, scales := scales, rho := rho }, inexact + r.2.2)

/-- An empty set of a format, scales at `sc`. -/
def WeightSet.emptyOf (f : Nat) (compressed : Bool) (tw : W32) (poison : Bool) (sc : Byte) : WeightSet :=
  { format := f, compressed := compressed, valid := true, poison := poison, tw := tw, resTotal := 0, resArea := 0
    resSwizzle := 0, cells := Bank.const 0, scales := Bank.const sc, rho := Bank.const 0 }

/-- The weight set that a dense WLOAD brings in, and the elements a transposed read changed (R245, R589). -/
def denseSet (d : Dev) (pad : Nat) (v : View) (trans : Bool) (tw : W32) (poison : Bool) : WeightSet × Nat :=
  let s := if trans then v.transposed else v
  let depth := if isDK v.fmt then 256 else 128
  let rows := min depth s.inner
  let cols := min 512 s.rows
  loadDense d pad v trans rows cols cols 0
    (WeightSet.emptyOf v.fmt false tw poison (if isScaled v.fmt then 0x00 else 0x7F), 0)

/-- Addresses that loading a dense tile reads. -/
def denseAddrs (d : Dev) (pad : Nat) (v : View) (trans : Bool) : List Nat :=
  let s := if trans then v.transposed else v
  let depth := if isDK v.fmt then 256 else 128
  ((List.range (min 512 s.rows)).map (fun n => rowAddrs d pad v trans n (min depth s.inner))).flatten

/-! Compressed tiles (R110 to R125). -/

/-- Byte address of tile object byte `o`. -/
def tileAddr (d : Dev) (pad : Nat) (v : View) (slot o : Nat) : Nat :=
  segAddr d pad v.swz v.seg (128 * trSlot (d.plan.trecs.get v.trec) * slot + o)

/-- Little-endian number from bytes of a tile object. -/
def tileNum (d : Dev) (pad : Nat) (v : View) (slot o n : Nat) : Nat :=
  gatherBytes d.ms.mem ((List.range n).map (fun i => tileAddr d pad v slot (o + i)))

/-- Header fields (Table 4-2). -/
def tileVersion (d : Dev) (pad : Nat) (v : View) (slot : Nat) : Nat := tileNum d pad v slot 0 4 / 256 % 256
def tileFormat (d : Dev) (pad : Nat) (v : View) (slot : Nat) : Nat := tileNum d pad v slot 0 4 % 16
def tileNnz (d : Dev) (pad : Nat) (v : View) (slot : Nat) : Nat := tileNum d pad v slot 4 4 % 2 ^ 19
def tileRes (d : Dev) (pad : Nat) (v : View) (slot : Nat) : Nat := tileNum d pad v slot 8 4 % 2 ^ 19

/-- Reserved header bits are zero and VERSION is 0x01 (Table 4-5, check 1). -/
def tileHeaderOk (d : Dev) (pad : Nat) (v : View) (slot : Nat) : Bool :=
  let w0 := tileNum d pad v slot 0 4
  tileVersion d pad v slot == 1 && w0 / 65536 == 0 && w0 / 16 % 16 == 0 && tileNum d pad v slot 4 4 / 2 ^ 19 == 0
    && tileNum d pad v slot 8 4 / 2 ^ 19 == 0 && tileNum d pad v slot 12 116 == 0

/-- R117. -/
def oversize (f nnz : Nat) : Bool := decide (262144 * (fmtBits f - 1) < nnz * fmtBits f)

/-- Bitmap word of column n. -/
def tileBits (d : Dev) (pad : Nat) (v : View) (slot n : Nat) : Nat := tileNum d pad v slot (128 + 64 * n) 64

/-- Occupied logical rows of a column, ascending. -/
def occupied (bits : Nat) : List Nat := if bits = 0 then [] else (List.range 512).filter (fun r => bits / 2 ^ r % 2 == 1)

/-- Value i of a tile object (R115). -/
def tileValue (d : Dev) (pad : Nat) (v : View) (slot i : Nat) : Nat :=
  let w := fmtBits v.fmt
  if w = 8 then tileNum d pad v slot (32896 + i) 1
  else if w = 16 then tileNum d pad v slot (32896 + 2 * i) 2
  else
    let g := 32896 + 128 * w * (i / 1024) + i % 1024 / 8
    gatherPlanes d.ms.mem (i % 8) ((List.range w).map (fun p => tileAddr d pad v slot (g + 128 * p)))

/-- Scale byte of block b of column n of the tile in a slot (Table 9-4). -/
def tileScaleAddr (d : Dev) (pad : Nat) (v : View) (slot n b : Nat) : Nat :=
  let r := d.plan.trecs.get v.trec
  let t := slot - trElemBase r
  segAddr d pad v.swz (trScaleSeg r) (trScaleOff r + (512 * (t / trKt r) + n) * 16 * trKt r + 16 * (t % trKt r) + b)

/-- Expand the occupied rows of one column (R120): cells, ρ, residue entries in ascending row order. -/
def expandRows (f n : Nat) (sc : Nat → Byte) (val : Nat → Nat) : List Nat → Nat → WeightSet × List W64 × Bank Bool → WeightSet × List W64 × Bank Bool
  | [], _, acc => acc
  | r :: rs, i, (w, res, taken) =>
    let p := r % 128
    let x := val i
    let s := if isScaled f then sc (r / 32) else 0x7F
    let acc :=
      if taken.get p then
        (w, res ++ [BitVec.ofNat 64 (n * 2 ^ 41 + r * 2 ^ 32 + (if isScaled f then s.toNat else 0) * 2 ^ 16 + x)], taken)
      else
        ({ w with cells := w.cells.set (512 * p + n) (BitVec.ofNat 18 (r / 128 * 65536 + x))
                  rho := w.rho.upd (4 * p + r / 128) (fun y => BitVec.ofNat 16 (resAdd y.toNat (weightRes f x s))) }, res, taken.set p true)
    expandRows f n sc val rs (i + 1) acc

/-- Expand every column of a tile object in order; `i` counts the values used. -/
def expandCols (d : Dev) (pad : Nat) (v : View) (slot : Nat) : Nat → Nat → Nat → WeightSet × List W64 → (WeightSet × List W64) × Nat
  | 0, _, i, acc => (acc, i)
  | left + 1, n, i, (w, res) =>
    let occ := occupied (tileBits d pad v slot n)
    let scales := if isScaled v.fmt then
        (List.range 16).foldl (fun b k => b.set (16 * n + k) (memGet d.ms.mem (tileScaleAddr d pad v slot n k))) w.scales
      else w.scales
    let r := expandRows v.fmt n (fun b => memGet d.ms.mem (tileScaleAddr d pad v slot n b)) (tileValue d pad v slot) occ i
      ({ w with scales := scales }, [], Bank.const false)
    expandCols d pad v slot left (n + 1) (i + occ.length) (r.1, res ++ r.2.1)

/-- Outcome of loading a compressed tile: its status and, on success, the set and its residue entries (Table 4-5). -/
def compressedSet (d : Dev) (core : Nat) (v rv : View) (tw : W32) (poison : Bool) :
    Byte × Option (Nat × Nat × Int) × WeightSet × List W64 :=
  let slot := (v.elemIndex (v.dims.map (·.plo))).toNat
  let w0 := WeightSet.emptyOf v.fmt true tw poison (if isScaled v.fmt then 0x00 else 0x7F)
  let nnz := tileNnz d core v slot
  let res := tileRes d core v slot
  let off := (elemSpan rv rv.offset.toNat).1
  let have_ := match viewRuns d rv with
    | r :: _ => r.2.2
    | [] => 0
  if !tileHeaderOk d core v slot then (stDesc, none, w0, [])
  else if tileFormat d core v slot ≠ v.fmt then (stDesc, none, w0, [])
  else if oversize v.fmt nnz then (stOversize, none, w0, [])
  else
    match viewFault d (.core core) rv true with
    | some f => (stSegment, some f, w0, [])
    | none =>
      if have_ < 8 * res then (stDesc, none, w0, [])
      else
        let e := expandCols d core v slot 512 0 0 (w0, [])
        if e.2 ≠ nnz then (stDesc, none, w0, e.1.2)
        else if e.1.2.length ≠ res then (stDesc, none, w0, e.1.2)
        else
          (stDone, none, { e.1.1 with resTotal := res, resArea := 128 * segBase (d.segs.get rv.seg) + off, resSwizzle := rv.swz }, e.1.2)

/-- Write items of residue entries into the residue area (R121). -/
def residueItems (core area swz : Nat) : List W64 → Nat → List WItem
  | [], _ => []
  | x :: r, i =>
    (List.range 8).map (fun k => (⟨spAddr core swz (area + 8 * i + k), 0xFF, BitVec.ofNat 8 (x.toNat / 256 ^ k)⟩ : WItem))
      ++ residueItems core area swz r (i + 1)

/-- Residue entries of a set, read from its area. -/
def readResidue (d : Dev) (core : Nat) (w : WeightSet) : List W64 :=
  (List.range w.resTotal).map (fun i =>
    BitVec.ofNat 64 (gatherBytes d.ms.mem ((List.range 8).map (fun k => spAddr core w.resSwizzle (w.resArea + 8 * i + k)))))

def resCol (x : W64) : Nat := bitsOf x 49 41
def resRow (x : W64) : Nat := bitsOf x 40 32
def resScale (x : W64) : Byte := BitVec.ofNat 8 (bitsOf x 23 16)
def resValue (x : W64) : Nat := bitsOf x 15 0

/-! Bindings to Coma engines (R127, R167). -/

/-- The engine that a core is bound to, if any. -/
def Dev.boundEngine (d : Dev) (core : Nat) : Option Nat :=
  (List.range 8).map (fun j => 8 * (core / 32) + j) |>.find? (fun g => (d.coma g).bindings.any (fun b => b.core == core))

def updBinding (core : Nat) (f : Binding → Binding) : List Binding → List Binding
  | [] => []
  | b :: r => if b.core = core then f b :: r else b :: updBinding core f r

def Dev.onBinding (d : Dev) (core : Nat) (f : Binding → Binding) : Dev :=
  match d.boundEngine core with
  | none => d
  | some g => d.updComa g (fun c => { c with bindings := updBinding core f c.bindings })

/-- Residue entries that the bound engine merges for the active set: the store where they fit the share, otherwise the
residue area (R168). -/
def Dev.mergeEntries (d : Dev) (core : Nat) : List W64 :=
  let w := (d.core core).active
  match d.boundEngine core with
  | none => []
  | some g =>
    match (d.coma g).bindings.find? (fun b => b.core == core) with
    | some b => if w.resTotal ≤ b.share then b.active.getD (readResidue d core w) else readResidue d core w
    | none => readResidue d core w

/-! One pass of one column. -/

/-- A contribution of a pass. -/
inductive Contrib where
  | num (neg : Bool) (m : Nat) (e : Int)
  | inf (neg : Bool)
  | nan
deriving DecidableEq, Repr

/-- Product of two element values with the sum of their block exponents (R52, Table 2-3). -/
def contrib (a w : FVal) (x : Int) : Contrib :=
  match a.mul w with
  | .fin n m e => .num n m (e + x)
  | .inf n => .inf n
  | .nan => .nan

/-- What the pass met of Table 2-3. -/
def specialOf (l : List Contrib) : Special :=
  if l.any (fun c => match c with
      | .nan => true
      | _ => false) then .nan
  else
    let p := l.any (fun c => c == .inf false)
    let n := l.any (fun c => c == .inf true)
    if p && n then .nan else if p then .posInf else if n then .negInf else .none

/-- Anchor of a 16-bit pass (R55): the largest ⌊log₂|c|⌋ + 1. -/
def anchor16 : List Contrib → Option Int
  | [] => none
  | .num _ m e :: r =>
    if m = 0 then anchor16 r
    else
      match anchor16 r with
      | none => some (floorLog2 m e + 1)
      | some a => some (if a < floorLog2 m e + 1 then floorLog2 m e + 1 else a)
  | _ :: r => anchor16 r

/-- One contribution truncated toward zero to a multiple of 2^(A - 69): signed multiple, lost bits, and the residue of the
lost bits (R56, R105). -/
def truncContrib (a : Int) : Contrib → Int × Bool × Nat
  | .num n m e =>
    let t := cutTo m e (a - 69)
    let lost := if t.2 then resOf n (m % 2 ^ (a - 69 - e).toNat) e else 0
    ((if n then -(t.1 : Int) else t.1), t.2, lost)
  | _ => (0, false, 0)

/-- Sum of truncated contributions, S and L (R56, R57). -/
def sumContribs (a : Int) : List Contrib → Int × Bool × Nat
  | [] => (0, false, 0)
  | c :: r =>
    let t := truncContrib a c
    let s := sumContribs a r
    (t.1 + s.1, t.2.1 || s.2.1, resAdd t.2.2 s.2.2)

/-- A window closed over a list of contributions under an anchor. -/
def winOf (a : Int) (due : Nat) (sp : Special) (l : List Contrib) : Win × Nat :=
  let s := sumContribs a l
  ({ w := BitVec.ofInt 80 s.1, sticky := s.2.1, anchor := a, due := due, special := sp }, s.2.2)

/-- Activation vector of a step: patterns by logical row, scale bytes by block. -/
structure ActVec where
  elems : List Nat
  scales : List Byte
deriving DecidableEq, Repr

/-- Logical rows of a pass and where their cells stand: (logical row, physical row, high element). -/
def passRows (high : Bool) : List (Nat × Nat × Bool) :=
  if high then (List.range 128).map (fun p => (p + 128, p, true)) else (List.range 128).map (fun p => (p, p, false))

/-- Contributions of the cells of column n in one pass (R83, R85, R126). -/
def cellContribs (w : WeightSet) (mode af : Nat) (high : Bool) (k n : Nat) (av : ActVec) : List Contrib :=
  let wf := if w.format = 0 then af else w.format
  let sa (r : Nat) : Byte := if isScaled af then av.scales.getD (r / 32) 0x00 else 0x7F
  let sw (r : Nat) : Byte := if isScaled wf then w.scales.get (16 * n + r / 32) else 0x7F
  let one (r : Nat) (x : Nat) : List Contrib :=
    if r < k then [contrib (decodeElem af (av.elems.getD r 0)) (decodeElem wf x) (scaleExp (sa r) + scaleExp (sw r))] else []
  if mode = modeSP then
    ((List.range 128).map (fun p =>
      let c := w.cells.get (512 * p + n)
      one (p + 128 * bitsOf c 17 16) (bitsOf c 15 0))).flatten
  else
    ((passRows high).map (fun t =>
      one t.1 (cellElem (w.cells.get (512 * t.2.1 + n)) (mode == modeD16 || (fmtBits wf == 16)) t.2.2))).flatten

/-- Contribution of one residue entry (R128, R129). -/
def residueContrib (w : WeightSet) (af k : Nat) (av : ActVec) (x : W64) : List Contrib :=
  let r := resRow x
  if r < k then
    let sa : Byte := if isScaled af then av.scales.getD (r / 32) 0x00 else 0x7F
    let sw : Byte := if isScaled w.format then resScale x else 0x7F
    [contrib (decodeElem af (av.elems.getD r 0)) (decodeElem w.format (resValue x)) (scaleExp sa + scaleExp sw)]
  else []

/-- First logical row and end of the blocks of a pass that take part under run-time K (R85). -/
def passBlocks (mode : Nat) (high : Bool) (k : Nat) : List Nat :=
  let lo := if high then 4 else 0
  let hi := if mode = modeSP then 16 else if high then 8 else 4
  (List.range hi).filter (fun b => lo ≤ b && 32 * b < k)

/-- A scale byte of the column's pass is the NaN scale (Table 2-3). -/
def nanScale (w : WeightSet) (mode af : Nat) (high : Bool) (k n : Nat) (av : ActVec) : Bool :=
  (passBlocks mode high k).any (fun b =>
    (isScaled af && av.scales.getD b 0x00 == 0xFF) || (isScaled (if w.format = 0 then af else w.format) && w.scales.get (16 * n + b) == 0xFF))

/-- Anchor of a scaled pass (R54): the largest block exponent plus the bounds. -/
def anchorScaled (w : WeightSet) (mode af : Nat) (high : Bool) (k n : Nat) (av : ActVec) : Int :=
  let wf := if w.format = 0 then af else w.format
  let xs := (passBlocks mode high k).map (fun b => scaleExp (av.scales.getD b 0x00) + scaleExp (w.scales.get (16 * n + b)))
  (match xs with
    | [] => 0
    | x :: r => r.foldl (fun a b => if a < b then b else a) x) + fmtBound af + fmtBound wf

/-- The window of one column's pass with the residue still due, and L (R54 to R58). -/
def columnPass (w : WeightSet) (mode af : Nat) (high : Bool) (k n : Nat) (av : ActVec) (res : List W64) : Win × Nat :=
  let cs := cellContribs w mode af high k n av
  let rs := ((res.filter (fun x => resCol x == n)).map (residueContrib w af k av)).flatten
  let sp := if nanScale w mode af high k n av then .nan else specialOf (cs ++ rs)
  let a := if isScaled af then anchorScaled w mode af high k n av else (anchor16 (cs ++ rs)).getD 0
  winOf a (res.filter (fun x => resCol x == n)).length sp cs

/-- C of a step: Σ Res(a · 2^Xa) · ρ over the logical rows below K (R104). -/
def stepCheck (w : WeightSet) (mode af k : Nat) (av : ActVec) : Nat :=
  (List.range (min k (modeRows mode))).foldl (fun acc r =>
    resAdd acc (resMul (resVal (decodeScaled af (av.elems.getD r 0) (av.scales.getD (r / 32) 0x7F)))
      (w.rho.get (4 * (r % 128) + r / 128)).toNat)) 0

/-- Every window of a step: low pass at key n, high pass of DK at key 512 + n (R90). -/
def stepWindows (w : WeightSet) (mode af k : Nat) (av : ActVec) (res : List W64) : List (Nat × (Win × Nat)) :=
  (List.range 512).map (fun n => (n, columnPass w mode af false k n av res))
    ++ (if mode = modeDK then (List.range 512).map (fun n => (512 + n, columnPass w mode af true k n av [])) else [])

def winZero : Win := { w := 0, sticky := false, anchor := 0, due := 0, special := .none }

/-- The open step that an activation vector starts (R73, R84, R88, R89). -/
def openStep (w : WeightSet) (sid idx row mode af k : Nat) (av : ActVec) (res : List W64) (poison : Bool) : OpenStep :=
  let l := stepWindows w mode af k av res
  { stream := sid, idx := idx, row := row
    acts := (Bank.const 0).putList 0 (av.elems.map (BitVec.ofNat 16))
    ascales := (Bank.const 0).putList 0 av.scales
    wins := l.foldl (fun b c => b.set c.1 c.2.1) (Bank.const winZero)
    check := stepCheck w mode af k av
    lostSum := l.foldl (fun a c => resAdd a c.2.2) 0
    poison := poison }

/-- Q of a step from its windows (R105). -/
def OpenStep.observed (s : OpenStep) : Nat :=
  s.wins.cells.foldl (fun acc c => match c.2.special with
    | .none => resAdd acc (resVal (.fin (c.2.w.msb) c.2.w.toInt.natAbs (c.2.anchor - 69)))
    | _ => acc) s.lostSum

/-- Some window of the step still awaits merged contributions. -/
def OpenStep.isOpen (s : OpenStep) : Bool := s.wins.cells.any (fun c => c.2.due != 0)

/-- Deliver one residue entry into its column's window (R58, R128, R170). -/
def deliverEntry (w : WeightSet) (af k : Nat) (av : ActVec) (s : OpenStep) (x : W64) : OpenStep :=
  let n := resCol x
  let win := s.wins.get n
  match residueContrib w af k av x with
  | [] => { s with wins := s.wins.set n { win with due := win.due - 1 } }
  | c :: _ =>
    let t := truncContrib win.anchor c
    let sa : Byte := if isScaled af then av.scales.getD (resRow x / 32) 0x00 else 0x7F
    let sw : Byte := if isScaled w.format then resScale x else 0x7F
    let kk := resMul (resVal (decodeScaled w.format (resValue x) sw)) (resVal (decodeScaled af (av.elems.getD (resRow x) 0) sa))
    { s with
      wins := s.wins.set n { win with w := win.w + BitVec.ofInt 80 t.1, sticky := win.sticky || t.2.1, due := win.due - 1 }
      lostSum := resAdd (resAdd s.lostSum t.2.2) (resNeg kk) }

/-- Deliver every residue entry of a step. -/
def deliverAll (w : WeightSet) (af k : Nat) (s : OpenStep) (res : List W64) : OpenStep :=
  let av : ActVec := ⟨(s.acts.getList 0 512).map BitVec.toNat, s.ascales.getList 0 16⟩
  res.foldl (deliverEntry w af k av) s

end Sys2Proof.Machine
end

