-- ==== Sys2Proof/Machine/Drain.lean ====
section
/-! DEFINITION. The drain: conversion of a window, the epilogue stages, segment tables, saved forms, and the writing of a
step's results (R59 to R61, R70, R90 to R96, R187 to R195). -/
namespace Sys2Proof.Machine

/-- V of a window: (2W + S) · 2^(A - 70) (R59). -/
def windowVal (w : Win) : FVal :=
  let k : Int := 2 * w.w.toInt + (if w.sticky then 1 else 0)
  .fin (decide (k < 0)) k.natAbs (w.anchor - 70)

/-- The exact value that stage 1 rounds (R59, Table 2-3); an exact zero is +0.0 (R60). -/
def drainExact (w : Win) (t p : W32) : FVal :=
  match w.special with
  | .nan => .nan
  | .posInf => ((FVal.inf false).mul (f32 t)).add (f32 p)
  | .negInf => ((FVal.inf true).mul (f32 t)).add (f32 p)
  | .none =>
    match ((windowVal w).mul (f32 t)).add (f32 p) with
    | .fin n m e => if m = 0 then .fin false 0 0 else .fin n m e
    | v => v

/-- T of R59. -/
def tileT (tw ta : W32) : W32 := mulF32 tw ta

/-- Flags of stage 1 for one conversion (R70). -/
def Core.noteWindow (c : Core) (w : Win) (v : FVal) : Core :=
  let c := c.noteF32 v
  match w.special with
  | .none => { c with stickySeen := c.stickySeen || w.sticky }
  | .nan => c
  | _ => { c with infSeen := true }

/-- Stage 1 of one column: the low pass, and in DK the high pass with P the result of the low pass (R90). -/
def drainColumn (c : Core) (s : OpenStep) (mode n : Nat) (t p : W32) : Core × W32 :=
  let w := s.wins.get n
  let v := drainExact w t p
  let c := c.noteWindow w v
  if mode = modeDK then
    let h := s.wins.get (512 + n)
    let v2 := drainExact h t (to32 v)
    (c.noteWindow h v2, to32 v2)
  else (c, to32 v)

/-! Segment tables (R192 to R194). -/

def segField (e : BitVec 256) (i : Nat) : W32 := BitVec.ofNat 32 (bitsOf e (32 * i + 31) (32 * i))

/-- Used entries: those before the first BOUND of +infinity. -/
def usedEntries (t : Nat → BitVec 256) : Nat → Nat → Nat
  | 0, i => i
  | n + 1, i => if segField (t i) 0 = 0x7F800000 then i else usedEntries t n (i + 1)

/-- R193. -/
def tableValid (t : Nat → BitVec 256) : Bool :=
  let u := usedEntries t 64 0
  u != 0 && segField (t 0) 0 == 0xFF800000
    && (List.range 64).all (fun i =>
      (if i < u then
        (i == 0 || ((f32 (segField (t i) 0)).isFinite && (i == 1 || (f32 (segField (t (i - 1)) 0)).lt (f32 (segField (t i) 0)))))
          && (List.range 5).all (fun j => (f32 (segField (t i) (j + 1))).isFinite)
       else segField (t i) 0 == 0x7F800000)
      && bitsOf (t i) 255 192 == 0)

/-- Largest used index whose BOUND is at most x. -/
def tableIndex (t : Nat → BitVec 256) (x : FVal) : Nat → Nat
  | 0 => 0
  | n + 1 => if (f32 (segField (t n) 0)).le x then n else tableIndex t x n

/-- Value of the table at x (R193) with the flags of its roundings. -/
def tableEval (c : Core) (t : Nat → BitVec 256) (u : Nat) (x : W32) : Core × W32 :=
  if isNan32 x then ({ c with nanSeen := true }, nan32)
  else
    let e := t (tableIndex t (f32 x) u)
    if (f32 (segField e 3)).isZero && (f32 (segField e 4)).isZero && (f32 (segField e 5)).isZero then (c, segField e 2)
    else
      let tv := (f32 x).add (f32 (segField e 1)).neg
      let c := { c with fp32Ovf := c.fp32Ovf || ovf32 tv }
      let tt := to32 tv
      let step (cp : Core × W32) (k : W32) : Core × W32 :=
        let v := ((f32 cp.2).mul (f32 tt)).add (f32 k)
        ({ cp.1 with fp32Ovf := cp.1.fp32Ovf || ovf32 v }, to32 v)
      let r := step (step (step (c, segField e 5) (segField e 4)) (segField e 3)) (segField e 2)
      ({ r.1 with nanSeen := r.1.nanSeen || isNan32 r.2 }, r.2)

/-! Saved forms (R187, Table 6-3). -/

/-- Byte offset and bit of element e of a one-bit plane group. -/
def bitPlace (e : Nat) : Nat × Nat := (128 * (e / 1024) + e % 1024 / 8, e % 8)

/-- Stored bit that a position of a one-bit saved form reads: a position that is not real reads under PADMODE (R292). -/
def View.bitSource (v : View) (pos : List Nat) : Option Nat :=
  if allReal v.dims pos then some (v.elemIndex pos).toNat
  else if v.zeroPad then none
  else (clampReal v.dims pos).map (fun p => (v.elemIndex p).toNat)

/-- Bit of a saved form at a position. -/
def readSavedBit (d : Dev) (pad : Nat) (v : View) (pos : List Nat) : Bool :=
  match v.bitSource pos with
  | some e => bitOf (memGet d.ms.mem (segAddr d pad v.swz v.seg (bitPlace e).1)) (bitPlace e).2
  | none => false

def savedBitAddr (d : Dev) (pad : Nat) (v : View) (pos : List Nat) : List Nat :=
  match v.bitSource pos with
  | some e => [segAddr d pad v.swz v.seg (bitPlace e).1]
  | none => []

def savedBitItem (d : Dev) (pad : Nat) (v : View) (pos : List Nat) (b : Bool) : List WItem :=
  if allReal v.dims pos then
    let p := bitPlace (v.elemIndex pos).toNat
    [⟨segAddr d pad v.swz v.seg p.1, BitVec.ofNat 8 (2 ^ p.2), BitVec.ofNat 8 (if b then 2 ^ p.2 else 0)⟩]
  else []

/-- Bit that MASK1 or SIGN1 records from z. -/
def savedBit (e : Epilogue) (z : W32) : Bool :=
  if e.save = 2 then z.msb
  else if e.func = 2 then
    (f32 (e.preg.truncate 32)).le (f32 z) && (f32 z).le (f32 (BitVec.ofNat 32 (bitsOf e.preg 63 32)))
  else (f32 0).lt (f32 z)

/-- Derivative at a saved form (R190, R191, Table 6-3). -/
def savedDeriv (d : Dev) (core : Nat) (c : Core) (e : Epilogue) (pos : List Nat) : Core × W32 :=
  let v := viewOf e.sdesc
  match e.save with
  | 1 => (c, if readSavedBit d core v pos then 0x3F800000 else 0)
  | 2 => (c, if readSavedBit d core v pos then e.preg.truncate 32 else BitVec.ofNat 32 (bitsOf e.preg 63 32))
  | _ =>
    let x := readPos d core v pos
    if (decodeElem v.fmt x.1).isNan then ({ c with markerSeen := true }, 0)
    else if x.2 = 0xFF then (c, nan32)
    else tableEval c c.segTable.get c.tableSegs (to32 (decodeScaled v.fmt x.1 x.2))

/-- Stages 2 and 3 for one output: (core with flags, z after stage 2, y after stage 3). -/
def epilogueAt (d : Dev) (core : Nat) (c : Core) (e : Epilogue) (row n : Nat) (y : W32) : Core × W32 × W32 :=
  let s2 : Core × W32 := match e.bias with
    | none => (c, y)
    | some b =>
      let bv := viewOf b
      let v := (f32 y).add (rne32 (readVal d core bv (bv.posOf 0 n)))
      (c.noteF32 v, to32 v)
  let c := s2.1
  let z := s2.2
  match e.func with
  | 1 => (c, z, if isNan32 z then z else if (f32 0).lt (f32 z) then z else 0)
  | 2 =>
    let lo : W32 := e.preg.truncate 32
    let hi : W32 := BitVec.ofNat 32 (bitsOf e.preg 63 32)
    (c, z, if isNan32 z then z else if (f32 z).lt (f32 lo) then lo else if (f32 hi).lt (f32 z) then hi else z)
  | 3 =>
    let r := tableEval c c.segTable.get c.tableSegs z
    (r.1, z, r.2)
  | 4 =>
    let r := savedDeriv d core c e ((viewOf e.sdesc).posOf row n)
    let v := (f32 z).mul (f32 r.2)
    (r.1.noteF32 v, z, to32 v)
  | _ => (c, z, z)

/-- Stages 1 to 3 over the columns below N: flags, (z, y) by column. -/
def drainColumns (d : Dev) (core : Nat) (e : Option Epilogue) (s : OpenStep) (mode : Nat) (t : W32) (p : Nat → W32) :
    Nat → Core → List (W32 × W32) → Core × List (W32 × W32)
  | 0, c, acc => (c, acc)
  | n + 1, c, acc =>
    let r := drainColumn c s mode n t (p n)
    match e with
    | none => drainColumns d core e s mode t p n r.1 ((r.2, r.2) :: acc)
    | some ep =>
      let q := epilogueAt d core r.1 ep s.row n r.2
      drainColumns d core e s mode t p n q.1 ((q.2.1, q.2.2) :: acc)

/-- Results of a row as (element index, value) at the real positions of a view (R251, R294). -/
def rowVals (v : View) (row : Nat) (l : List W32) : List (Nat × FVal) :=
  realVals v ((List.range l.length).map (fun n => (v.posOf row n, f32 (l.getD n 0))))

/-- Items of stage 4 (R187). -/
def savedItems (d : Dev) (core : Nat) (e : Epilogue) (row : Nat) (zs : List W32) : List WItem :=
  if e.func = 4 ∨ e.save = 0 then []
  else
    let v := viewOf e.sdesc
    if e.save = 3 then (storeVals d core v (rowVals v row zs)).1
    else ((List.range zs.length).map (fun n => savedBitItem d core v (v.posOf row n) (savedBit e (zs.getD n 0)))).flatten

def satsOf (d : Dev) (core : Nat) (v : View) (l : List (Nat × FVal)) : Nat := (storeVals d core v l).2

/-! STREAM fields (Table 8-6). -/

def stAcc (w : IWord) : Nat := bitsOf w 21 20
def stHandoff (w : IWord) : Bool := bitOf w 24
def stTrans (w : IWord) : Bool := bitOf w 23
def stFeed (w : IWord) : Bool := bitOf w 22

def StreamRun.epilogue (c : Core) (r : StreamRun) : Epilogue := if r.epi = 0 then c.epi0 else c.epi1

/-- Put a hand-off entry (R95). -/
def Core.handOff (c : Core) (l : List W32) (p : Bool) : Core :=
  { c with handoff := c.handoff ++ [⟨(Bank.const 0).putList 0 l, p⟩] }

/-- Addresses that stages 2 and 3 read for one row: the bias vector, and the saved form under DERIV (R91, R190, R195). -/
def epilogueAddrs (d : Dev) (core : Nat) (e : Epilogue) (row n : Nat) : List Nat :=
  (match e.bias with
    | some b => ((List.range n).map (fun i => readAddrs d core (viewOf b) ((viewOf b).posOf 0 i))).flatten
    | none => []) ++
  (if e.func = 4 then
    let v := viewOf e.sdesc
    ((List.range n).map (fun i =>
      if e.save = 3 then readAddrs d core v (v.posOf row i) else savedBitAddr d core v (v.posOf row i))).flatten
   else [])

/-- Drain one step of a STREAM: its results, flags, poison and counts (R91 to R96). -/
def Dev.drainStep (d : Dev) (core : Nat) (r : StreamRun) (s : OpenStep) : Dev :=
  let acc := stAcc r.entry.word
  let pv := viewOf r.entry.db
  let ov := viewOf r.entry.dc
  let readsP := (acc == 1 || acc == 2) && r.k != 0
  let ep := if acc ≥ 2 && r.k != 0 then some (r.epilogue (d.core core)) else none
  let pAddrs := if readsP then ((List.range r.n).map (fun n => readAddrs d core pv (pv.posOf s.row n))).flatten else []
  let eAddrs := match ep with
    | some e => epilogueAddrs d core e s.row r.n
    | none => []
  let tp := d.touch (pAddrs ++ eAddrs)
  let d := tp.1
  let ePoison := match ep with
    | some e => e.poison
    | none => false
  let poison := r.poison || s.poison || tp.2 || ePoison
  let c := d.core core
  let t := tileT c.active.tw (r.entry.v0.truncate 32)
  let p (n : Nat) : W32 := if readsP then BitVec.ofNat 32 (readPos d core pv (pv.posOf s.row n)).1 else 0
  let res : Core × List (W32 × W32) := if r.k = 0 then (c, (List.range r.n).map (fun _ => ((0 : W32), (0 : W32)))) else drainColumns d core ep s r.mode t p r.n c []
  let c := { res.1 with stepCount := res.1.stepCount + 1 }
  let ys := res.2.map (·.2)
  let silent := r.k = 0 ∧ (acc = 1 ∨ acc = 2)
  let out : Core × List WItem :=
    if silent then (c, [])
    else if acc ≤ 1 then (c, (storeVals d core pv (rowVals pv s.row ys)).1)
    else
      let zs : List W32 := res.2.map (fun x => x.1)
      let saved := match ep with
        | some e => savedItems d core e s.row zs
        | none => []
      let c := match ep with
        | some e => if e.save = 3 ∧ e.func ≠ 4 then c.noteSat (satsOf d core (viewOf e.sdesc) (rowVals (viewOf e.sdesc) s.row zs)) else c
        | none => c
      if stHandoff r.entry.word then (c.handOff ys poison, saved)
      else (c.noteSat (satsOf d core ov (rowVals ov s.row ys)), saved ++ (storeVals d core ov (rowVals ov s.row ys)).1)
  (d.setCore core out.1).write out.2 poison

end Sys2Proof.Machine
end

