-- ==== Sys2Proof/Machine/Feed.lean ====
section
/-! DEFINITION. Coma command headers, rows of Coma operands, index and route lists, the sequence table, and what a FEED
command sends to its gather core (R140 to R158, R591, R592). -/
namespace Sys2Proof.Machine

/-! Header fields (Tables 5-2 and 5-3). -/

def hCount (h : Desc) : Nat := bitsOf h 63 32
def hSigEn (h : Desc) : Bool := bitOf h 27
def hSigSem (h : Desc) : Nat := bitsOf h 26 22
def hFeed (h : Desc) : Bool := bitOf h 21
def hMask (h : Desc) : Nat := bitsOf h 20 19
def hIdxKind (h : Desc) : Nat := bitsOf h 18 17
def hEngine (h : Desc) : Nat := bitsOf h 10 8
def hOp (h : Desc) : Nat := bitsOf h 7 0
def hKeyBase (h : Desc) : Nat := bitsOf h 151 128
def hTagBase (h : Desc) : Nat := bitsOf h 110 96
def hSeqLast (h : Desc) : Nat := bitsOf h 90 80
def hSeqFirst (h : Desc) : Nat := bitsOf h 74 64
def hNorm (h : Desc) : Bool := bitOf h 128
def hCapacity (h : Desc) : Nat := bitsOf h 119 96
def hTopk (h : Desc) : Nat := bitsOf h 83 80
def hExperts (h : Desc) : Nat := bitsOf h 72 64
def hSlots (h : Desc) : Nat := bitsOf h 83 80
def hShare (h : Desc) : Nat := bitsOf h 112 96
def hCore (h : Desc) : Nat := bitsOf h 70 64
def hParam (h : Desc) : Nat := bitsOf h 255 192
def hColCount (h : Desc) : Nat := bitsOf h 151 128
def hColFirst (h : Desc) : Nat := bitsOf h 119 96
def hAuditSlot (h : Desc) : Nat := bitsOf h 69 64

/-- Bits [hi:lo] set. -/
def maskBits (hi lo : Nat) : Nat := (2 ^ (hi + 1 - lo) - 1) * 2 ^ lo

/-- Bits that Table 5-3 lists for an OP. -/
def opBits (op : Nat) : Nat :=
  match op with
  | 0x01 => maskBits 151 128 + maskBits 110 96
  | 0x02 => maskBits 151 128 + maskBits 110 96 + maskBits 90 80 + maskBits 74 64
  | 0x04 => maskBits 128 128 + maskBits 119 96 + maskBits 83 80 + maskBits 72 64
  | 0x12 => maskBits 83 80
  | 0x23 => maskBits 83 80
  | 0x21 => maskBits 112 96 + maskBits 70 64
  | 0x22 => maskBits 70 64
  | 0x24 => maskBits 255 192 + maskBits 151 128 + maskBits 119 96 + maskBits 69 64
  | 0x25 => maskBits 255 192 + maskBits 69 64
  | _ => 0

/-- Class of an OP: 1 GATHER, 2 SCATTER, 3 MERGE; 0 for an OP not in Table 5-1. -/
def opClass (op : Nat) : Nat :=
  if 0x01 ≤ op ∧ op ≤ 0x05 then 1 else if 0x11 ≤ op ∧ op ≤ 0x13 then 2 else if 0x21 ≤ op ∧ op ≤ 0x25 then 3 else 0

/-- R141: no nonzero reserved header bit. -/
def headerOk (h : Desc) : Bool :=
  let op := hOp h
  let used := maskBits 63 32 + maskBits 27 17 + maskBits 10 0 + opBits op
  let gath := op == 1 || op == 2
  opClass op != 0 && Nat.land h.toNat (2 ^ 256 - 1 - used) == 0
    && hIdxKind h < 2 && hMask h != 3 && (gath || (!hFeed h && hMask h == 0)) && (hMask h == 0 || hFeed h)
    && (hIdxKind h == 0 || op == 0x01 || op == 0x11 || op == 0x12) && (op != 0x12 || hIdxKind h == 1)

/-- Operand masks that Table 5-1 allows for a header: bit 0 OPA, bit 1 OPB, bit 2 OPC. -/
def opMasks (h : Desc) : List Nat :=
  match hOp h with
  | 0x01 => if hFeed h then [3] else [7]
  | 0x02 => if hFeed h then [1, 3] else [5, 7]
  | 0x03 => [7]
  | 0x04 => [5]
  | 0x05 => [1]
  | 0x11 => [7]
  | 0x12 => [7]
  | 0x13 => [7]
  | 0x23 => [5]
  | 0x24 => [7]
  | _ => [0]

/-! Rows of a Coma operand: the sub-tensor at one index of its outermost dimension. -/

def View.outerDim (v : View) : Dim := v.dims.getLastD ⟨1, 0, 0, 0⟩
def View.comaRows (v : View) : Nat := v.outerDim.view
def View.comaLen (v : View) : Nat := natProd (v.shape.take (v.shape.length - 1))
/-- Element j of row i. -/
def View.comaPos (v : View) (i j : Nat) : List Nat :=
  (if v.dims.length ≤ 1 then [] else coords (v.shape.take (v.shape.length - 1)) j) ++ [i]

/-- Byte runs of row i. -/
def rowRuns (d : Dev) (v : View) (i : Nat) : List (Nat × Int × Nat) :=
  let o := v.outerDim
  if o.ext = 0 then []
  else
    let j := if i < o.plo then 0 else if i < o.plo + o.ext then i - o.plo else o.ext - 1
    viewRuns d { v with dims := v.dims.take (v.dims.length - 1), offset := v.offset + j * o.str }

/-- First address check that row i fails. -/
def rowFault (d : Dev) (q : Req) (v : View) (wr : Bool) (i : Nat) : Option (Nat × Nat × Int) :=
  checkRuns d q (!wr) wr (rowRuns d v i)

/-- Byte offset in its segment of the first element of a region that is read or written as bytes. -/
def View.origin (v : View) : Nat := (elemSpan v v.offset.toNat).1
/-- Addresses of `n` bytes of such a region from byte `o` on. -/
def regionAddrs (d : Dev) (pad : Nat) (v : View) (o n : Nat) : List Nat :=
  (List.range n).map (fun i => segAddr d pad v.swz v.seg (v.origin + o + i))
def regionNum (d : Dev) (pad : Nat) (v : View) (o n : Nat) : Nat := gatherBytes d.ms.mem (regionAddrs d pad v o n)
def regionItems (d : Dev) (pad : Nat) (v : View) (o n x : Nat) : List WItem :=
  (List.range n).map (fun i => ⟨segAddr d pad v.swz v.seg (v.origin + o + i), 0xFF, BitVec.ofNat 8 (x / 256 ^ i)⟩)
def regionFault (d : Dev) (q : Req) (v : View) (wr : Bool) (o n : Nat) : Option (Nat × Nat × Int) :=
  (segCheck d q v.seg (!wr) wr (v.origin + o) n).map (fun k => (v.seg, k.1, k.2))

/-- Outcome of a part of a command that can fail: a status with the segment fault behind it, if any. -/
abbrev Failure := Byte × Option (Nat × Nat × Int)

/-- The entries of an index or route list: (index, entry bits) in list order (R143, Tables 5-5 and 5-6). -/
def readList (d : Dev) (q : Req) (v : View) (h : Desc) : Except Failure (List (Nat × Nat)) :=
  let pad := q.pad
  if hIdxKind h = 1 then
    match regionFault d q v false 0 8 with
    | some f => .error (stSegment, some f)
    | none =>
      let n := regionNum d pad v 0 4
      if hCount h < n then .error (stShape, none)
      else
        match regionFault d q v false 0 (8 + 8 * n) with
        | some f => .error (stSegment, some f)
        | none => .ok ((List.range n).map (fun i => let e := regionNum d pad v (8 + 8 * i) 8; (e % 2 ^ 24, e)))
  else
    match regionFault d q v false 0 (4 * hCount h) with
    | some f => .error (stSegment, some f)
    | none => .ok ((List.range (hCount h)).map (fun i => (regionNum d pad v (4 * i) 4, 0)))

/-- Addresses that reading the list touches. -/
def listAddrs (d : Dev) (pad : Nat) (v : View) (h : Desc) : List Nat :=
  if hIdxKind h = 1 then regionAddrs d pad v 0 (8 + 8 * regionNum d pad v 0 4) else regionAddrs d pad v 0 (4 * hCount h)

/-! The sequence table (Table 5-4). -/

def seqValid (e : BitVec 128) : Bool := bitOf e 63
def seqLen (e : BitVec 128) : Nat := bitsOf e 43 24
def seqStart (e : BitVec 128) : Nat := bitsOf e 23 0
def seqPosBase (e : BitVec 128) : Nat := bitsOf e 127 96

/-- The valid entry whose range holds a token (R158). -/
def seqOf (t : Bank (BitVec 128)) (x : Nat) : Option Nat :=
  (t.cells.find? (fun c => seqValid c.2 && seqStart c.2 ≤ x && x < seqStart c.2 + seqLen c.2)).map (·.1)

/-- Rows and positions of GATHER_SEQ (R157). -/
def seqRows (t : Bank (BitVec 128)) : Nat → Nat → List (Nat × Nat)
  | 0, _ => []
  | n + 1, s =>
    let e := t.get s
    (if seqValid e then (List.range (seqLen e)).map (fun p => (seqStart e + p, (seqPosBase e + p) % 2 ^ 32)) else [])
      ++ seqRows t n (s + 1)

/-- An element is left out by MASK (R158). -/
def masked (t : Bank (BitVec 128)) (mask keyBase q r : Nat) : Bool :=
  if mask = 0 then false
  else
    let k := keyBase + r
    match seqOf t q, seqOf t k with
    | some a, some b => a != b || (mask == 2 && q < k)
    | _, _ => true

/-- Index list of a gather command: (source row, position). -/
def gatherIndices (d : Dev) (q : Req) (die : Nat) (c : ComaCmd) : Except Failure (List (Nat × Nat)) :=
  let h := c.hdr
  if hOp h = 0x02 then
    if hSeqLast h < hSeqFirst h then .error (stDesc, none)
    else
      let l := seqRows (d.die die).seqTable (hSeqLast h + 1 - hSeqFirst h) (hSeqFirst h)
      if hCount h < l.length then .error (stShape, none) else .ok l
  else (readList d q (viewOf (c.opb.getD 0)) h).map (fun l => l.map (fun e => (e.1, 0)))

def sentinel : Nat := 0xFFFFFFFF

/-- The row entries of one step (Table 3-8, R151, R153, R591): physical row r carries logical row r on line L0 and, in the
dual-K formats, logical row r + 128 on line L1. -/
def feedRows (d : Dev) (pad : Nat) (v : View) (t : Bank (BitVec 128)) (h : Desc) (k x tag : Nat) (last : Bool) : List (Nat × W32) :=
  let out (r : Nat) : Bool := masked t (hMask h) (hKeyBase h) x r
  let el (r : Nat) : Nat := if k ≤ r ∨ out r ∨ v.comaLen ≤ r then 0 else (readPos d pad v (v.comaPos x r)).1
  ((List.range (min k 128)).map (fun r =>
    let lowOut := out r
    let hiOut := k ≤ r + 128 || out (r + 128)
    if lowOut && hiOut && !last then []
    else
      let e := el r + (if isDK v.fmt then 256 * el (r + 128) else 0)
      [(r, BitVec.ofNat 32 ((if last then 2 ^ 31 else 0) + tag * 65536 + e % 65536))])).flatten

/-- Scale byte of block b of a source row as a scale entry carries it (R591). -/
def feedScale (d : Dev) (pad : Nat) (v : View) (x b : Nat) : Nat :=
  if !isScaled v.fmt then 0x7F else if v.comaLen ≤ 32 * b then 0 else (readPos d pad v (v.comaPos x (32 * b))).2.toNat

def feedBlocks (d : Dev) (pad : Nat) (v : View) (k x tag : Nat) : List (Nat × W32) :=
  (List.range ((min k 128 + 31) / 32)).map (fun b =>
    (b, BitVec.ofNat 32 (tag * 65536 + (if isDK v.fmt && 128 < k then 256 * feedScale d pad v x (b + 4) else 0) + feedScale d pad v x b)))

/-- Steps of a FEED command over its indices (R150, R151, R591, R592). `lastIdx` is the index of the last step, none when
the command fails before it. -/
def feedOver (d : Dev) (q : Req) (v : View) (t : Bank (BitVec 128)) (h : Desc) (k : Nat) (lastIdx : Option Nat) :
    List (Nat × Nat) → Nat → List FeedStep × Failure
  | [], _ => ([], (stDone, none))
  | (x, _) :: r, i =>
    if x = sentinel then feedOver d q v t h k lastIdx r (i + 1)
    else if v.comaRows ≤ x ∨ 32767 < hTagBase h + i then ([], (stDesc, none))
    else
      match rowFault d q v false x with
      | some f => ([], (stSegment, some f))
      | none =>
        let tag := hTagBase h + i
        let rows := feedRows d q.pad v t h k x tag (lastIdx == some i)
        let rest := feedOver d q v t h k lastIdx r (i + 1)
        if rows.isEmpty then rest
        else (⟨tag, rows, feedBlocks d q.pad v k x tag⟩ :: rest.1, rest.2)

/-- Index of the last entry that is no sentinel. -/
def lastReal : List (Nat × Nat) → Nat → Option Nat
  | [], _ => none
  | (x, _) :: r, i =>
    match lastReal r (i + 1) with
    | some j => some j
    | none => if x = sentinel then none else some i

/-- Physical core whose scratchpad a command reaches (Table 9-10). -/
def Dev.padOf (d : Dev) (c : ComaCmd) : Nat := (d.lc c.who.lc).phys

/-- What a FEED command sends for run-time K: its steps and its status (R143, R150 to R153, R157, R591, R592). -/
def feedSteps (d : Dev) (g : Nat) (c : ComaCmd) (k : Nat) : List FeedStep × Failure :=
  let q : Req := .coma g (d.padOf c)
  let v := viewOf (c.opa.getD 0)
  if hCount c.hdr = 0 then ([], (stSkips, none))
  else if !alignedUse v then ([], (stDesc, none))
  else
    match gatherIndices d q (g / 8) c with
    | .error f => ([], f)
    | .ok l =>
      let t := (d.die (g / 8)).seqTable
      let dry := feedOver d q v t c.hdr 0 none l 0
      feedOver d q v t c.hdr k (if dry.2.1 = stDone then lastReal l 0 else none) l 0

/-- Addresses a gather command reads: its list and its source rows. -/
def gatherAddrs (d : Dev) (g : Nat) (c : ComaCmd) (l : List (Nat × Nat)) : List Nat :=
  let pad := d.padOf c
  let v := viewOf (c.opa.getD 0)
  (if hOp c.hdr = 0x02 then [] else listAddrs d pad (viewOf (c.opb.getD 0)) c.hdr)
    ++ ((l.filter (fun x => x.1 < v.comaRows && (rowFault d (.coma g pad) v false x.1).isNone)).map (fun x =>
      ((List.range v.comaLen).map (fun j => readAddrs d pad v (v.comaPos x.1 j))).flatten)).flatten

/-- Commands that read the sequence table (R156). -/
def readsSeq (h : Desc) : Bool := hOp h == 0x02 || (hOp h == 0x01 && hMask h != 0)

/-- A command of the die stands before this one in the order of R156. -/
def Dev.seqWait (d : Dev) (g : Nat) (c : ComaCmd) : Bool :=
  let others := ((List.range 8).map (fun j => (d.coma (8 * (g / 8) + j)).queue)).flatten
  if hOp c.hdr = 0x05 then others.any (fun o => o.ord < c.ord && (readsSeq o.hdr || hOp o.hdr == 0x05))
  else readsSeq c.hdr && others.any (fun o => o.ord < c.ord && hOp o.hdr == 0x05)

/-! The feeder queues (R99 to R102). -/

/-- An entry with its poison in bit 32. -/
def feedWord (p : Bool) (x : W32) : BitVec 33 := BitVec.ofNat 33 (x.toNat + (if p then 2 ^ 32 else 0))

/-- Every queue that a step's entries enter has room. -/
def feedFits (c : Core) (s : FeedStep) : Bool :=
  s.rows.all (fun e => (c.rowQ.get e.1).length < 64) && s.blocks.all (fun e => (c.scaleQ.get e.1).length < 64)

def feedPush (c : Core) (p : Bool) (s : FeedStep) : Core :=
  { c with rowQ := s.rows.foldl (fun b e => b.upd e.1 (· ++ [feedWord p e.2])) c.rowQ
           scaleQ := s.blocks.foldl (fun b e => b.upd e.1 (· ++ [feedWord p e.2])) c.scaleQ }

/-- Move steps into the queues while they fit. -/
def feedFill (p : Bool) : List FeedStep → Core → List FeedStep × Core
  | [], c => ([], c)
  | s :: r, c => if feedFits c s then feedFill p r (feedPush c p s) else (s :: r, c)

def entTag (x : BitVec 33) : Nat := bitsOf x 30 16
def entLast (x : BitVec 33) : Bool := bitOf x 31
def entPoison (x : BitVec 33) : Bool := bitOf x 32

/-- Outcome of forming one feeder step (R100, R102). -/
inductive FeedForm where
  | wait
  | finished
  | bad
  | step (tag : Nat) (av : ActVec) (poison : Bool) (c : Core) (r : StreamRun)
deriving DecidableEq, Repr

def minTag : List Nat → Nat
  | [] => 0
  | [a] => a
  | a :: r => min a (minTag r)

/-- Form the next step of a feeder STREAM from the queues (R100). -/
def formStep (c : Core) (r : StreamRun) (dk : Bool) : FeedForm :=
  let active := List.range (min r.k 128)
  let open_ := active.filter (fun p => !r.finished.get p)
  if open_.isEmpty then .finished
  else if open_.any (fun p => (c.rowQ.get p).isEmpty) then .wait
  else
    let t := minTag (open_.map (fun p => entTag ((c.rowQ.get p).headD 0)))
    let taking := open_.filter (fun p => entTag ((c.rowQ.get p).headD 0) == t)
    if taking.any (fun p => t + 1 ≤ r.lastTag.get p) then .bad
    else
      let elem (p : Nat) : Nat := if taking.contains p then bitsOf ((c.rowQ.get p).headD 0) 15 0 else 0
      let headTag (b : Nat) : Bool := match c.scaleQ.get b with
        | x :: _ => entTag x == t
        | [] => false
      let otherTag (b : Nat) : Bool := match c.scaleQ.get b with
        | x :: _ => entTag x != t
        | [] => false
      if (List.range 4).any (fun b => otherTag b && taking.any (fun p => p / 32 == b && elem p != 0)) then .bad
      else
        let sc (b : Nat) (hi : Bool) : Byte := if headTag b then
            BitVec.ofNat 8 (if hi then bitsOf ((c.scaleQ.get b).headD 0) 15 8 else bitsOf ((c.scaleQ.get b).headD 0) 7 0)
          else 0x7F
        let poison := taking.any (fun p => entPoison ((c.rowQ.get p).headD 0))
          || (List.range 4).any (fun b => headTag b && entPoison ((c.scaleQ.get b).headD 0))
        let low := (List.range 128).map (fun p => if dk then elem p % 256 else elem p)
        let high := if dk then (List.range 128).map (fun p => elem p / 256) else []
        let scales := (List.range 4).map (fun b => sc b false) ++ (if dk then (List.range 4).map (fun b => sc b true) else [])
        let fin := taking.foldl (fun b p => if entLast ((c.rowQ.get p).headD 0) then b.set p true else b) r.finished
        let tags := taking.foldl (fun b p => b.set p (t + 1)) r.lastTag
        let rowQ := taking.foldl (fun b p => b.upd p (List.drop 1)) c.rowQ
        let scaleQ := (List.range 4).foldl (fun b i => if headTag i then b.upd i (List.drop 1) else b) c.scaleQ
        .step t ⟨low ++ high, scales⟩ poison { c with rowQ := rowQ, scaleQ := scaleQ } { r with finished := fin, lastTag := tags }

end Sys2Proof.Machine
end

