-- ==== Sys2Proof/Machine/ArrayQueue.lean ====
section
/-! DEFINITION. The array queue: issue checks of the array instructions, how each entry starts at the head of the queue, and
the queue's advance (R73, R78, R79, R99, R108, R152, R192, R215, R244 to R256). -/
namespace Sys2Proof.Machine

def opWload : Nat := 0x01
def opWswap : Nat := 0x02
def opStream : Nat := 0x03
def opDrain : Nat := 0x04
def opVop : Nat := 0x10
def opMove : Nat := 0x20
def opMcast : Nat := 0x21
def opDmake : Nat := 0x30
def opGather : Nat := 0x40
def opScatter : Nat := 0x41
def opMerge : Nat := 0x42
def opTake : Nat := 0x50
def opSignal : Nat := 0x60
def opWait : Nat := 0x61
def opFence : Nat := 0x62
def opCheck : Nat := 0x70
def opCtxsave : Nat := 0x80
def opCtxrestore : Nat := 0x81
def opHalt : Nat := 0xF0

/-! Fields of the array instructions (Tables 8-5, 8-6, 8-8, 8-9). -/

def wlTsreg (w : IWord) : Nat := bitsOf w 23 18
def wlTrans (w : IWord) : Bool := bitOf w 17
def wlRdescEn (w : IWord) : Bool := bitOf w 16
def wlRdesc (w : IWord) : Nat := bitsOf w 15 12
def wlWdesc (w : IWord) : Nat := bitsOf w 11 8

def stSigSem (w : IWord) : Nat := bitsOf w 50 46
def stSigEn (w : IWord) : Bool := bitOf w 45
def stLimit (w : IWord) : Nat := bitsOf w 44 37
def stTsreg (w : IWord) : Nat := bitsOf w 36 31
def stShapeReg (w : IWord) : Nat := bitsOf w 30 25
def stPdesc (w : IWord) : Nat := bitsOf w 19 16
def stOdesc (w : IWord) : Nat := bitsOf w 15 12
def stAdesc (w : IWord) : Nat := bitsOf w 11 8

def shK (x : W64) : Nat := bitsOf x 51 42
def shN (x : W64) : Nat := bitsOf x 41 32
def shM (x : W64) : Nat := bitsOf x 31 0

def drPreg (w : IWord) : Nat := bitsOf w 32 27
def drTableEn (w : IWord) : Bool := bitOf w 26
def drTdesc (w : IWord) : Nat := bitsOf w 25 22
def drSdesc (w : IWord) : Nat := bitsOf w 21 18
def drSave (w : IWord) : Nat := bitsOf w 17 16
def drFunc (w : IWord) : Nat := bitsOf w 15 13
def drBiasEn (w : IWord) : Bool := bitOf w 12
def drBdesc (w : IWord) : Nat := bitsOf w 11 8
/-- PREG is read (Table 8-9). -/
def drReadsPreg (w : IWord) : Bool := drFunc w == 2 || (drFunc w == 4 && drSave w == 2)

/-- A view lies in the scratchpad of the issuing core or in the buffer of its own die. -/
def Dev.nearPlace (d : Dev) (core : Nat) (v : View) : Bool :=
  d.tierOf v == 0 || (d.tierOf v == 1 && segDie (d.segs.get v.seg) == core / 32)

/-! Issue checks. -/

/-- Table 8-4 checks 2 to 5 of a WLOAD (R245, R246, R303). -/
def wloadChecks (d : Dev) (core : Nat) (l : LCore) (w : IWord) : List (Bool × Byte) :=
  let v := l.view (wlWdesc w)
  let rv := l.view (wlRdesc w)
  [(!l.tensorOk (wlWdesc w) || (wlRdescEn w && !l.tensorOk (wlRdesc w)), stDesc),
   (!d.nearPlace core v, stDesc),
   (v.fmt == 0 || v.layout == 1, stDesc),
   (wlTrans w && !d.transOk v, stDesc),
   (wlRdescEn w != (v.layout == 2), stDesc),
   (wlRdescEn w && (!d.inPad rv || !rv.wr || rv.layout == 2 || rv.origin % 128 != 0), stDesc),
   (!alignedUse v, stDesc)]

/-- Table 8-4 checks 2 to 5 of a STREAM, as far as its operands alone decide them (R250 to R252, R303); true in the first
component of the result marks the skip of check 4. -/
def streamChecks (d : Dev) (core : Nat) (l : LCore) (w : IWord) : List (Bool × Byte) :=
  let acc := stAcc w
  let x := l.reg (stShapeReg w)
  let lim := (d.die (core / 32)).limits.get (stLimit w)
  let a := l.view (stAdesc w)
  let p := l.view (stPdesc w)
  let o := l.view (stOdesc w)
  let usesP := acc != 3
  let usesO := acc ≥ 2 && !stHandoff w
  let feed := stFeed w
  let beyond (v : View) : Bool := (!feed && decide (v.rows < shM x)) || decide (v.inner < shN x)
  [(!l.tensorOk (stAdesc w) || (usesP && !l.tensorOk (stPdesc w)) || (usesO && !l.tensorOk (stOdesc w)), stDesc),
   ((!feed && decide (lim.mmax < shM x)) || decide (lim.nmax < shN x) || decide (lim.kmax < shK x), stShape),
   ((!feed && shM x == 0) || shN x == 0, stSkips),
   (a.fmt == 0 || a.layout != 0, stDesc),
   (usesP && (p.fmt != 0 || p.layout != 0), stDesc),
   (usesO && o.layout != 0, stDesc),
   (stTrans w && (feed || !d.transOk a), stDesc),
   (feed && decide (core % 32 < 24), stDesc),
   ((acc ≤ 1 && beyond p) || (usesO && beyond o), stDesc),
   ((acc ≤ 1 && !p.wr) || (usesO && !o.wr), stDesc),
   ((!feed && !alignedUse a) || (usesO && !alignedUse o), stDesc)]

/-- Regions a STREAM knows at issue. -/
def streamRegions (l : LCore) (w : IWord) : List (View × Bool) :=
  let acc := stAcc w
  let a := l.view (stAdesc w)
  let p := l.view (stPdesc w)
  let o := l.view (stOdesc w)
  (if stFeed w then [] else [(a, false)])
    ++ ((if acc = 1 ∨ acc = 2 then [(p, false)] else [])
    ++ ((if acc ≤ 1 then [(p, true)] else []) ++ (if acc ≥ 2 && !stHandoff w then [(o, true)] else [])))

/-- Table 8-4 checks 2 to 5 of a DRAIN (R188, R256). -/
def drainChecks (d : Dev) (core : Nat) (l : LCore) (w : IWord) : List (Bool × Byte) :=
  let f := drFunc w
  let sv := drSave w
  let s := l.view (drSdesc w)
  [((drBiasEn w && !l.tensorOk (drBdesc w)) || (drTableEn w && !l.tensorOk (drTdesc w)) || (sv != 0 && !l.tensorOk (drSdesc w)), stDesc),
   (f ≥ 5, stDesc),
   ((f == 3 || (f == 4 && sv == 3)) && !drTableEn w, stDesc),
   (f == 4 && sv == 0, stDesc),
   (sv != 0 && !d.nearPlace core s, stDesc),
   (sv == 3 && ((s.fmt != 3 && s.fmt != 4) || s.layout != 0 || !alignedUse s), stDesc),
   (sv != 0 && f != 4 && !s.wr, stDesc)]

/-- The segment fault of a DRAIN's regions: the saved form, the bias vector and the table (check 6). The bits of MASK1 and
SIGN1 reach the plane groups of their elements. -/
def drainFault (d : Dev) (core : Nat) (l : LCore) (w : IWord) : Option (Nat × Nat × Int) :=
  let q : Req := .core core
  let s := l.view (drSdesc w)
  let wr := drFunc w != 4
  let f1 := if drSave w = 0 then none
    else if drSave w = 3 then viewFault d q s wr
    else
      match elemRange s.dims with
      | none => none
      | some (lo, hi) =>
        let a := (bitPlace (s.offset + lo).toNat).1
        let b := (bitPlace (s.offset + hi).toNat).1
        (segCheck d q s.seg (!wr) wr a (b + 1 - a)).map (fun k => (s.seg, k.1, k.2))
  match f1 with
  | some f => some f
  | none =>
    match (if drBiasEn w then viewFault d q (l.view (drBdesc w)) false else none) with
    | some f => some f
    | none => if drTableEn w then regionFault d q (l.view (drTdesc w)) false 0 2048 else none

/-! Entries. -/

def mkEntry (who : Issuer) (w : IWord) (v0 v1 : W64) (p : Bool) (da db dc : Desc) : ArrayEntry :=
  { who := who, word := w, v0 := v0, v1 := v1, vPoison := p, da := da, db := db, dc := dc }

def Dev.enqueue (d : Dev) (core : Nat) (e : ArrayEntry) : Dev := d.updCore core (fun c => { c with arrayQ := c.arrayQ ++ [e] })

/-! Starting a WLOAD. -/

/-- Addresses of a compressed tile object and its scale array that the load reads. -/
def compressedAddrs (d : Dev) (core : Nat) (v : View) : List Nat :=
  let slot := (v.elemIndex (v.dims.map (·.plo))).toNat
  let bits := fmtBits v.fmt
  let nnz := tileNnz d core v slot
  let vals := if bits = 8 then (nnz + 127) / 128 else if bits = 16 then (nnz + 63) / 64 else bits * ((nnz + 1023) / 1024)
  let n := min (32896 + 128 * vals) (128 * trSlot (d.plan.trecs.get v.trec))
  (List.range n).map (tileAddr d core v slot) ++
    (if isScaled v.fmt then ((List.range 512).map (fun c => (List.range 16).map (fun b => tileScaleAddr d core v slot c b))).flatten else [])

/-- The residue area after a failed load: unstated bytes (R124). -/
def freeResidue (d : Dev) (core : Nat) (rv : View) : Dev :=
  if (viewFault d (.core core) rv true).isSome then d
  else
    match viewRuns d rv with
    | [] => d
    | r :: _ =>
      let as := (List.range r.2.2).map (fun i => segAddr d core rv.swz rv.seg (r.2.1.toNat + i))
      { d with ms := { d.ms with mem := as.foldl (fun m a => memSet m a (Sys2Proof.Config.freeByte d.free a)) d.ms.mem }
               free := d.free + 1 }

def Dev.popArray (d : Dev) (core : Nat) : Dev := d.updCore core (fun c => { c with arrayQ := c.arrayQ.drop 1 })

/-- A WLOAD starts: it reads its tile (R81, R120, R124, R181, R589). -/
def startLoad (d : Dev) (core : Nat) (e : ArrayEntry) : Dev :=
  let v := viewOf e.da
  let d := d.popArray core
  let tw : W32 := e.v0.truncate 32
  if v.layout = 2 then
    let t := d.touch (compressedAddrs d core v)
    let rv := viewOf e.db
    let r := compressedSet t.1 core v rv tw (e.vPoison || t.2)
    if r.1 = stDone then
      t.1.updCore core (fun c => { c with load := some ⟨e.who, r.2.2.1, r.2.2.2, false⟩, shadow := { c.shadow with valid := false } })
    else
      let d := match r.2.1 with
        | some f => t.1.segFault (.core core) f.1 f.2.1 f.2.2
        | none => t.1
      let d := freeResidue (d.updCore core (fun c => { c with shadow := { c.shadow with valid := false } })) core rv
      d.complete e.who r.1 (unitCore core)
  else
    let trans := wlTrans e.word
    let t := d.touch (denseAddrs d core v trans)
    let r := denseSet t.1 core v trans tw (e.vPoison || t.2)
    t.1.updCore core (fun c => { c with load := some ⟨e.who, r.1, [], trans⟩
                                        shadow := { c.shadow with valid := false }
                                        tsbInexact := satAdd 0xFFFFFFFF c.tsbInexact r.2 })

/-- The shadow set becomes valid: the set, its residue area and the bound engine's store are written (R79, R121, R168). -/
def Dev.finishLoad (d : Dev) (core : Nat) (j : LoadJob) : Dev :=
  let d := d.updCore core (fun c => { c with shadow := j.set, load := none })
  let d := d.write (residueItems core j.set.resArea j.set.resSwizzle j.residue 0) j.set.poison
  d.onBinding core (fun b => { b with shadow := if j.set.compressed then some j.residue else none })

/-! Starting a STREAM. -/

/-- Every earlier STREAM has started all its steps and none is held. -/
def Core.streamsStarted (c : Core) : Bool := c.streams.all (fun r => (r.ended || r.m ≤ r.next) && !r.held)

/-- CLAMP with a NaN bound (R93). -/
def Epilogue.nanClamp (e : Epilogue) : Bool :=
  e.func == 2 && (isNan32 (e.preg.truncate 32) || isNan32 (BitVec.ofNat 32 (bitsOf e.preg 63 32)))

/-- Engine beside a gather core (R14). -/
def gatherEngine (core : Nat) : Nat := 8 * (core / 32) + (core % 32 - 24)

/-- Rules of R252 that depend on the active weight set and the epilogue state in force. -/
def streamBad (d : Dev) (core : Nat) (e : ArrayEntry) : Bool :=
  let c := d.core core
  let mode := arrayMode c.active (viewOf e.da).fmt
  mode == 0 || (stFeed e.word && c.active.compressed) || (c.active.compressed && c.active.resTotal != 0 && (d.boundEngine core).isNone)
    || (if c.curEpi = 0 then c.epi0 else c.epi1).nanClamp

/-- Addresses whose poison poisons the whole STREAM (R96, R195): activations, partial sums and, under DERIV, the saved form. -/
def streamSources (d : Dev) (core : Nat) (e : ArrayEntry) (rows : List Nat) (n k : Nat) (ep : Epilogue) : List Nat :=
  let acc := stAcc e.word
  let a := viewOf e.da
  let p := viewOf e.db
  (if stFeed e.word then [] else (rows.map (fun r => rowAddrs d core a (stTrans e.word) r k)).flatten)
    ++ ((if (acc = 1 ∨ acc = 2) ∧ k ≠ 0 then (rows.map (fun r => ((List.range n).map (fun i => readAddrs d core p (p.posOf r i))).flatten)).flatten else [])
    ++ (if acc ≥ 2 ∧ k ≠ 0 ∧ ep.func = 4 then
          let s := viewOf ep.sdesc
          (rows.map (fun r => ((List.range n).map (fun i =>
            if ep.save = 3 then readAddrs d core s (s.posOf r i) else savedBitAddr d core s (s.posOf r i))).flatten)).flatten
        else []))

/-- The STREAM enters the array with one step per destination row; `extra` counts the step at which a feeder STREAM whose
command failed finds no entries (R592). -/
def enterStream (d : Dev) (core : Nat) (e : ArrayEntry) (rows : List Nat) (extra : Nat) (poison : Bool) : Dev :=
  let c := d.core core
  let n := shN e.v1
  let k := shK e.v1
  let ep := if c.curEpi = 0 then c.epi0 else c.epi1
  let t := d.touch (streamSources d core e rows n k ep)
  t.1.updCore core (fun c =>
    { c with nextStream := c.nextStream + 1
             streams := c.streams ++ [
               { id := c.nextStream, who := e.who, entry := e, mode := arrayMode c.active (viewOf e.da).fmt
                 m := rows.length + extra, n := n, k := k, epi := c.curEpi, next := 0, drained := 0
                 lastTag := Bank.const 0, finished := Bank.const false, feedFail := false, ended := false, held := false
                 poison := poison || e.vPoison || c.active.poison || t.2, status := stDone }] })

/-- Rows that the destinations of a STREAM hold. -/
def destRows (e : ArrayEntry) : Nat :=
  let acc := stAcc e.word
  if acc ≤ 1 then (viewOf e.db).rows else if stHandoff e.word then 2 ^ 32 else (viewOf e.dc).rows

/-- A feeder STREAM at the head of the queue (R152): none while its engine's FEED command is not at the head of its queue. -/
def startFeed (d : Dev) (core : Nat) (e : ArrayEntry) : Option Dev :=
  let g := gatherEngine core
  let q := d.coma g
  match q.queue, q.feed with
  | c :: _, none =>
    if !hFeed c.hdr || d.seqWait g c || q.fenced || q.retired then none
    else
      let k := shK e.v1
      let r := feedSteps d g c k
      let t := d.touch (match gatherIndices d (.coma g (d.padOf c)) (g / 8) c with
        | .ok l => gatherAddrs d g c l
        | .error _ => [])
      let d := match r.2.2 with
        | some f => t.1.segFault (.coma g (d.padOf c)) f.1 f.2.1 f.2.2
        | none => t.1
      let steps := r.1.length
      let d := d.updComa g (fun q => { q with feed := some ⟨k, steps, false, r.1, t.2, r.2.1⟩ })
      let lim := (d.die (core / 32)).limits.get (stLimit e.word)
      let d := d.popArray core
      if lim.mmax < steps then some (d.complete e.who stShape (unitCore core))
      else if steps = 0 then
        some (if stopsLc r.2.1 then d.complete e.who stDesc (unitCore core) else d)
      else if r.1.any (fun s => destRows e ≤ s.tag) then some (d.complete e.who stDesc (unitCore core))
      else some (enterStream d core e (r.1.map (·.tag)) (if stopsLc r.2.1 then 1 else 0) t.2)
  | _, _ => none

/-- A STREAM at the head of the queue (R73, R248 to R252). -/
def startStream (d : Dev) (core : Nat) (e : ArrayEntry) : Option Dev :=
  let c := d.core core
  if !c.streamsStarted then none
  else if streamBad d core e then some ((d.popArray core).complete e.who stDesc (unitCore core))
  else if stFeed e.word then startFeed d core e
  else some (enterStream (d.popArray core) core e (List.range (shM e.v1)) 0 false)

/-! DRAIN and CHECK ARRAY at the head of the queue. -/

/-- The entries of a segment table in memory. -/
def readTable (d : Dev) (core : Nat) (t : View) : Bank (BitVec 256) :=
  (Bank.const (0 : BitVec 256)).putList 0 ((List.range 64).map (fun i => BitVec.ofNat 256 (regionNum d core t (32 * i) 32)))

/-- A STREAM in flight uses the loaded segment table. -/
def Core.tableInUse (c : Core) : Bool :=
  c.streams.any (fun r => let e := r.epilogue c; e.func == 3 || (e.func == 4 && e.save == 3))

/-- A DRAIN at the head of the queue: none while both states are in use, or while a STREAM uses a table it would replace
(R192 to R194, R254 to R256). -/
def startDrain (d : Dev) (core : Nat) (e : ArrayEntry) : Option Dev :=
  let w := e.word
  let c := d.core core
  let used (i : Nat) : Bool := c.streams.any (fun r => r.epi == i)
  if used 0 && used 1 then none
  else
    let i := if used (1 - c.curEpi) then c.curEpi else 1 - c.curEpi
    let tv := viewOf e.dc
    let t := if drTableEn w then d.touch (regionAddrs d core tv 0 2048) else (d, false)
    let tab := readTable t.1 core tv
    let loads := drTableEn w && !(c.tableSegs != 0 && tab == c.segTable)
    if loads && c.tableInUse then none
    else
      let d := t.1.popArray core
      if loads && !tableValid tab.get then
        some ((d.updCore core (fun c => { c with tableErr := true })).complete e.who stDesc (unitCore core))
      else
        let ep : Epilogue :=
          { func := drFunc w, preg := e.v0, bias := if drBiasEn w then some e.da else none
            save := drSave w, sdesc := e.db, poison := e.vPoison || t.2 }
        some (d.updCore core (fun c =>
          let c := if loads then { c with segTable := tab, tableSegs := usedEntries tab.get 64 0 } else c
          if i = 0 then { c with epi0 := ep, curEpi := 0 } else { c with epi1 := ep, curEpi := 1 }))

/-- Residue that cell (p, n) adds to ρ: (line, residue) pairs. -/
def cellRho (w : WeightSet) (p n : Nat) (c : BitVec 18) : List (Nat × Nat) :=
  let sc (b : Nat) : Byte := if isScaled w.format then w.scales.get (16 * n + b) else 0x7F
  if w.compressed then
    let j := bitsOf c 17 16
    [(j, weightRes w.format (bitsOf c 15 0) (sc (4 * j + p / 32)))]
  else if isDK w.format then
    [(0, weightRes w.format (bitsOf c 7 0) (sc (p / 32))), (1, weightRes w.format (bitsOf c 15 8) (sc (4 + p / 32)))]
  else [(0, weightRes w.format (bitsOf c 15 0) (sc (p / 32)))]

/-- ρ formed again from the registers (R108). -/
def recomputeRho (w : WeightSet) : Bank (BitVec 16) :=
  w.cells.cells.foldl (fun b c =>
    (cellRho w (c.1 / 512) (c.1 % 512) c.2).foldl (fun b x => b.upd (4 * (c.1 / 512) + x.1) (fun y => BitVec.ofNat 16 (resAdd y.toNat x.2))) b)
    (Bank.const 0)

/-- The array CHECK finds the held ρ equal to the recomputed one. -/
def WeightSet.rhoOk (w : WeightSet) : Bool :=
  w.format == 0 || (List.range 512).all (fun i => (w.rho.get i).toNat % 65535 == ((recomputeRho w).get i).toNat % 65535)

/-- CHECK ARRAY at the head of the queue (R108, R282). -/
def startCheck (d : Dev) (core : Nat) : Option Dev :=
  let c := d.core core
  if c.load.isSome || !c.streams.isEmpty || !c.steps.isEmpty || c.pendingRepeat.isSome then none
  else if c.active.rhoOk then some (d.popArray core)
  else some (d.setCore core { c.noteCheck 5 0 with pendingRepeat := some .array })

/-! The queue's advance. -/

/-- A yield with another logical core ready keeps the array from starting anything once the vector queue is empty (R109,
R338). -/
def Dev.holding (d : Dev) (core : Nat) : Bool :=
  let c := d.core core
  c.occupied && c.vecQ.isEmpty &&
    (match (d.lc c.lc).phase with
      | .waiting _ _ => true
      | .yielded => true
      | _ => false) &&
    (match d.nextReady core c.lc with
      | some n => n != c.lc
      | none => false)

/-- Start the entry at the head of the array queue, if it can start. -/
def startHead (d : Dev) (core : Nat) (e : ArrayEntry) : Option Dev :=
  let c := d.core core
  let op := wOpcode e.word
  if op = opWload then (if c.load.isSome then none else some (startLoad d core e))
  else if op = opWswap then
    (if c.load.isNone && !c.shadow.valid then some ((d.popArray core).complete e.who stDesc (unitCore core)) else none)
  else if op = opStream then startStream d core e
  else if op = opDrain then startDrain d core e
  else startCheck d core

/-- Advance the array queue while its head can start. -/
def pumpArray : Nat → Nat → Dev → Dev
  | 0, _, d => d
  | n + 1, core, d =>
    if d.holding core || (d.core core).fenced || (d.core core).retired then d
    else
      match (d.core core).arrayQ with
      | [] => d
      | e :: _ =>
        match startHead d core e with
        | none => d
        | some d' => pumpArray n core d'

def Dev.pump (d : Dev) (core : Nat) : Dev := pumpArray 16 core d

end Sys2Proof.Machine
end

