-- ==== Sys2Proof/Machine/ArrayOps.lean ====
section
/-! DEFINITION. The commands of the matrix array: WLOAD, WSWAP, STREAM, DRAIN and CHECK ARRAY at issue, and the events that
carry them out (chapters 3, 4 and 8 of the spec). -/
namespace Sys2Proof.Machine

/-- After an event on a core: the array queue advances and the sequencer goes on. -/
def Dev.after (d : Dev) (core : Nat) : Dev := (d.pump core).settle core

/-- Issue of a WLOAD (R244 to R246). -/
def issueWload (d : Dev) (core : Nat) (w : IWord) : Dev :=
  d.issue core w [wlTsreg w] [] ((d.core core).arrayQ.length ≥ 8) false (fun d who =>
    let l := d.lc who.lc
    d.checked who core (wloadChecks d core l w) [(l.view (wlWdesc w), false)] (fun d =>
      d.enqueue core (mkEntry who w (l.reg (wlTsreg w)) 0 (l.sPoison.get (wlTsreg w)) (l.desc (wlWdesc w))
        (if wlRdescEn w then l.desc (wlRdesc w) else 0) 0)))

/-- WLOAD. -/
def doWload (d : Dev) (core : Nat) (w : IWord) : Dev := (issueWload d core w).after core

/-- SHADOW_SET_VALID: the load in progress completes (R79, R81, R125, R245). -/
def doShadowSetValid (d : Dev) (core : Nat) : Dev :=
  match (d.core core).load with
  | none => d
  | some j => (d.finishLoad core j).after core

/-- WSWAP (R247). -/
def doWswap (d : Dev) (core : Nat) (w : IWord) : Dev :=
  (d.issue core w [] [] ((d.core core).arrayQ.length ≥ 8) false (fun d who =>
    d.enqueue core (mkEntry who w 0 0 false 0 0 0))).after core

/-- The exchange of R77 may take effect: a WSWAP stands at the head, the shadow load has completed, and every step of every
earlier STREAM has passed its check (R78). -/
def Core.canExchange (c : Core) : Bool :=
  (match c.arrayQ with
    | e :: _ => wOpcode e.word == opWswap
    | [] => false) && c.load.isNone && c.shadow.valid && c.steps.isEmpty && c.streamsStarted && c.pendingRepeat.isNone

/-- WEIGHT_SET_EXCHANGE (R77, R78, R122, R247). -/
def doWeightSetExchange (d : Dev) (core : Nat) : Dev :=
  if (d.core core).canExchange then
    (((d.popArray core).updCore core (fun c => { c with active := c.shadow, shadow := c.active })).onBinding core
      (fun b => { b with active := b.shadow, shadow := b.active })).after core
  else d

/-- STREAM (R248 to R252). -/
def doStream (d : Dev) (core : Nat) (w : IWord) : Dev :=
  (d.issue core w [stTsreg w, stShapeReg w] [stShapeReg w] ((d.core core).arrayQ.length ≥ 8) false (fun d who =>
    let l := d.lc who.lc
    let acc := stAcc w
    d.checked who core (streamChecks d core l w) (streamRegions l w) (fun d =>
      d.enqueue core (mkEntry who w (l.reg (stTsreg w)) (l.reg (stShapeReg w)) (l.sPoison.get (stTsreg w)) (l.desc (stAdesc w))
        (if acc = 3 then 0 else l.desc (stPdesc w)) (if acc ≥ 2 && !stHandoff w then l.desc (stOdesc w) else 0))))).after core

/-- Replace a STREAM by its identifier. -/
def updStream (r' : StreamRun) : List StreamRun → List StreamRun
  | [] => []
  | r :: rs => if r.id = r'.id then r' :: rs else r :: updStream r' rs

def findStream (id : Nat) : List StreamRun → Option StreamRun
  | [] => none
  | r :: rs => if r.id = id then some r else findStream id rs

/-- The STREAM that starts the next step: the first that has steps left. -/
def nextStarter : List StreamRun → Option StreamRun
  | [] => none
  | r :: rs => if r.held then none else if r.ended || r.m ≤ r.next then nextStarter rs else some r

/-- Steps that occupy windows or wait for the drain (R89, R95). -/
def Core.canStep (c : Core) : Bool := c.steps.length < 16 && c.handoff.length < 8

/-- The activation vector of step i of a STREAM from its scratchpad operand, and the elements a transposed read changed. -/
def actOf (d : Dev) (core : Nat) (r : StreamRun) (i : Nat) : ActVec × Nat :=
  let a := viewOf r.entry.da
  let k := min (modeRows r.mode) ((r.k + 31) / 32 * 32)
  let x := readRow d core a (stTrans r.entry.word) i k
  (⟨x.1, x.2.1⟩, x.2.2)

/-- Start a step with an activation vector (R73, R84). -/
def pushStep (d : Dev) (core : Nat) (r : StreamRun) (row : Nat) (av : ActVec) (poison : Bool) : Dev :=
  let c := d.core core
  let af := (viewOf r.entry.da).fmt
  let s := openStep c.active r.id r.next row r.mode af r.k av (if c.active.compressed then d.mergeEntries core else []) poison
  d.setCore core { c with steps := c.steps ++ [s], streams := updStream { r with next := r.next + 1 } c.streams }

/-- A feeder STREAM ends at its first step that has not started (R102, R592). -/
def endFeed (d : Dev) (core : Nat) (r : StreamRun) (bad : Bool) : Dev :=
  d.updCore core (fun c => { c with
    streams := updStream { r with ended := true, status := if bad then stDesc else r.status } c.streams
    rowQ := if bad then Bank.const [] else c.rowQ
    scaleQ := if bad then Bank.const [] else c.scaleQ })

/-- The FEED command whose entries are all taken leaves its engine's queue with its status (R145, R146, R592). -/
def finishFeed (d : Dev) (g : Nat) (f : FeedRun) : Dev :=
  let e := d.coma g
  match e.queue with
  | [] => d
  | c :: rest =>
    let d := d.setComa g { e with queue := rest, feed := none, lastStatus := f.status, lastOp := BitVec.ofNat 8 (hOp c.hdr)
                                  lastCount := f.steps, cmdError := e.cmdError || f.status.toNat ≥ 0x10 }
    if stopsLc f.status then d.complete c.who f.status (unitComa g) else d.sigOwn (hSigEn c.hdr) c.who (hSigSem c.hdr)

/-- Entries of the FEED command in progress move into the feeder queues (R151). -/
def feedIn (d : Dev) (core : Nat) : Dev :=
  let g := gatherEngine core
  match (d.coma g).feed with
  | none => d
  | some f =>
    if f.formed then
      let r := feedFill f.poison f.left (d.core core)
      (d.setCore core r.2).updComa g (fun e => { e with feed := some { f with left := r.1 } })
    else d

/-- The FEED command is over once every entry has left the queues. -/
def feedOut (d : Dev) (core : Nat) : Dev :=
  let g := gatherEngine core
  match (d.coma g).feed with
  | none => d
  | some f =>
    if f.formed && f.left.isEmpty && (d.core core).rowQ.cells.isEmpty then finishFeed d g f else d

/-- The FEED command failed, and every step it delivered in full has been taken (R592). -/
def feedFailed (d : Dev) (core : Nat) : Bool :=
  match (d.coma (gatherEngine core)).feed with
  | none => false
  | some f => f.formed && f.left.isEmpty && stopsLc f.status && (d.core core).rowQ.cells.isEmpty

/-- The step of a feeder STREAM (R100 to R102, R592). -/
def feedStep (d : Dev) (core : Nat) (r : StreamRun) : Dev :=
  let d := feedIn d core
  if feedFailed d core then feedOut (endFeed d core r true) core
  else
    match formStep (d.core core) r (r.mode == modeDK) with
    | .wait => d
    | .finished => feedOut (endFeed d core r false) core
    | .bad => endFeed d core r true
    | .step t av p c r' => 
      let d := pushStep (d.setCore core c) core r' t av p
      if feedFailed d core then d else feedOut d core

/-- ARRAY_STEP: the array starts its next step (R72 to R74, R83 to R85, R88, R89, R100, R126). -/
def doArrayStep (d : Dev) (core : Nat) : Dev :=
  let d := d.pump core
  let c := d.core core
  if d.holding core || c.fenced || c.retired || !c.canStep then d.settle core
  else
    match nextStarter c.streams with
    | none => d.settle core
    | some r =>
      (if stFeed r.entry.word then feedStep d core r
       else
        let a := actOf d core r r.next
        let d := if a.2 = 0 then d else d.updCore core (fun c => { c with tsbInexact := satAdd 0xFFFFFFFF c.tsbInexact a.2 })
        pushStep d core r r.next a.1 false).after core

/-- Apply a function to the first open step that still awaits merged contributions. -/
def deliverFirst (f : OpenStep → OpenStep) : List OpenStep → List OpenStep
  | [] => []
  | s :: r => if s.isOpen then f s :: r else s :: deliverFirst f r

/-- MERGE_DELIVERY: the bound engine delivers the residue of the earliest open step (R58, R89, R128, R129, R168 to R170). -/
def doMergeDelivery (d : Dev) (core : Nat) : Dev :=
  let c := d.core core
  match d.boundEngine core with
  | none => d
  | some g =>
    if (d.coma g).fenced || (d.coma g).retired then d
    else
      let es := d.mergeEntries core
      let go (s : OpenStep) : OpenStep := match findStream s.stream c.streams with
        | some r => deliverAll c.active (viewOf r.entry.da).fmt r.k s es
        | none => s
      (d.setCore core { c with steps := deliverFirst go c.steps }).after core

/-- A failed check is noted: CORE_CHK_STATUS, CORE_CHK_RESID and the scope to repeat (R106, R469). -/
def noteFailure (c : Core) (s : OpenStep) (kind : BitVec 4) (observed : BitVec 16) : Core :=
  let c := c.noteCheck kind.toNat s.idx
  let c := if kind = 1 then c.noteResid s.check observed.toNat else c
  { c with pendingRepeat := some (.step s.stream s.idx)
           streams := match findStream s.stream c.streams with
             | some r => updStream { r with held := true } c.streams
             | none => c.streams }

/-- Write the results of a step and take it from the open steps. -/
def drainOut (d : Dev) (core : Nat) (r : StreamRun) (s : OpenStep) : Dev :=
  let d := d.drainStep core r s
  d.updCore core (fun c => { c with
    steps := c.steps.filter (fun x => !(x.stream == s.stream && x.idx == s.idx))
    streams := match findStream r.id c.streams with
      | some r => updStream { r with drained := r.drained + 1, held := false } c.streams
      | none => c.streams })

/-- WINDOW_DRAIN: the first step, with its windows closed, is checked and drained once the hand-off queue has room (R86,
R90, R91, R94, R95, R105, R106). -/
def doWindowDrain (d : Dev) (core : Nat) (obs : CheckObs) : Dev :=
  let c := d.core core
  match c.steps with
  | [] => d
  | s :: _ =>
    match findStream s.stream c.streams with
    | none => d
    | some r =>
      if s.isOpen || r.held || c.pendingRepeat.isSome || c.fenced || c.retired || (stHandoff r.entry.word && 8 ≤ c.handoff.length) then d
      else
        match obs with
        | .pass => (drainOut d core r s).after core
        | .fail k q => (d.setCore core (noteFailure c s k q)).settle core

/-- The oldest STREAM whose last step has been drained. -/
def finishedStream : List StreamRun → Option StreamRun
  | [] => none
  | r :: _ => if r.held then none else if (r.ended || r.m ≤ r.next) && r.next ≤ r.drained then some r else none

/-- STREAM_COMPLETE (R253): the STREAM retires with its status and signals. -/
def doStreamComplete (d : Dev) (core : Nat) : Dev :=
  match finishedStream (d.core core).streams with
  | none => d
  | some r =>
    let d := d.updCore core (fun c => { c with streams := c.streams.drop 1 })
    let d := if stopsLc r.status then d.complete r.who r.status (unitCore core)
      else d.sigOwn (stSigEn r.entry.word) r.who (stSigSem r.entry.word)
    d.after core

/-- DRAIN (R254 to R256). -/
def doDrain (d : Dev) (core : Nat) (w : IWord) : Dev :=
  (d.issue core w (if drReadsPreg w then [drPreg w] else []) [] ((d.core core).arrayQ.length ≥ 8) false (fun d who =>
    let l := d.lc who.lc
    match firstFail (drainChecks d core l w) with
    | some st => d.complete who st (unitCore core)
    | none =>
      match drainFault d core l w with
      | some f => (d.segFault (.core core) f.1 f.2.1 f.2.2).complete who stSegment (unitCore core)
      | none =>
        d.enqueue core (mkEntry who w (if drReadsPreg w then l.reg (drPreg w) else 0) 0
          (drReadsPreg w && l.sPoison.get (drPreg w)) (if drBiasEn w then l.desc (drBdesc w) else 0)
          (if drSave w = 0 then 0 else l.desc (drSdesc w)) (if drTableEn w then l.desc (drTdesc w) else 0)))).after core

/-! CHECK (R282). UNIT in [9:8], DREG in [15:12]. -/

def ckUnit (w : IWord) : Nat := bitsOf w 9 8
def ckDreg (w : IWord) : Nat := bitsOf w 15 12

/-- CHECK with UNIT ARRAY (R108, R282). -/
def doCheckArray (d : Dev) (core : Nat) (w : IWord) : Dev :=
  (d.issue core w [] [] ((d.core core).arrayQ.length ≥ 8) false (fun d who =>
    d.enqueue core (mkEntry who w 0 0 false 0 0 0))).after core

end Sys2Proof.Machine
end

