-- ==== Sys2Proof/Machine/Signals.lean ====
section
/-! DEFINITION. Semaphores and the increments on their way to them: SIGNAL, SIGNAL_ARRIVAL, WAIT, FENCE and HALT (R218 to
R223, R279 to R281, R285, R423). -/
namespace Sys2Proof.Machine

/-- Instructions that a saved image holds: the suspended STREAM and the array entries not started (R338). -/
def savedWork (m : Mem) (a : Nat) : List Nat :=
  (if entryPresent m (a + 0x2000) then [(rdEntry m (a + 0x2000)).who.seq] else []) ++ (rdEntries m (a + 0x2100) 8).map (·.who.seq)

/-- Everything the logical core issued in its orbit before program order `seq` has completed, wherever it stands. -/
def Dev.doneBefore (d : Dev) (w : Issuer) : Bool :=
  let l := d.lc w.lc
  let c := d.core l.phys
  if l.orbit ≠ w.orbit then true
  else if c.occupied && c.lc == w.lc then c.allDone w.lc w.seq
  else match l.phase with
    | .yielded => (savedWork d.ms.mem (ctxArea w.lc)).all (fun q => w.seq ≤ q)
    | .yieldedWait _ _ => (savedWork d.ms.mem (ctxArea w.lc)).all (fun q => w.seq ≤ q)
    | _ => true

/-- The release condition of an increment holds (R220). -/
def Dev.released (d : Dev) (g : SigFlight) : Bool :=
  match g.src with
  | some w => d.doneBefore w
  | none => g.kind != 0 || decide (g.after ≤ (d.lc g.num).ends)

/-- The orbit of a stream signal has had its last tick (R423). -/
def Dev.lateStream (d : Dev) (n : Nat) : Bool :=
  match findRun n d.runs with
  | some r => r.ended
  | none => decide (n < d.curOrbit) || d.runs.any (fun r => r.num == n && r.completed)

def msuSemKey (n i : Nat) : Nat := 16 * (n % 2) + i
def streamKey (io n i : Nat) : Nat := 2048 * io + 1024 * (n % 2) + i

/-- The count that an increment finds, and the state with a new count. -/
def Dev.semCount (d : Dev) (g : SigFlight) : Nat :=
  if g.kind = 0 then (d.lc g.num).sem g.orbit g.sem
  else if g.kind = 1 then ((d.msus.get g.num).sems.get (msuSemKey g.orbit g.sem)).toNat
  else (d.streamSems.get (streamKey g.num g.orbit g.sem)).toNat

def Dev.setSemCount (d : Dev) (g : SigFlight) (v : Nat) : Dev :=
  if g.kind = 0 then d.updLc g.num (fun l => l.setSem g.orbit g.sem v)
  else if g.kind = 1 then
    { d with msus := d.msus.upd g.num (fun m => { m with sems := m.sems.set (msuSemKey g.orbit g.sem) (BitVec.ofNat 16 v) }) }
  else { d with streamSems := d.streamSems.set (streamKey g.num g.orbit g.sem) (BitVec.ofNat 16 v) }

/-- Logical core that answers for an increment that cannot be counted (R222): the signaller, or the target when a unit
signals the completion of the target's own instruction. -/
def SigFlight.answers (g : SigFlight) : Option Nat :=
  match g.src with
  | some w => some w.lc
  | none => if g.kind = 0 then some g.num else none

/-- The target lies in a fenced core or memory-side unit, which refuses the request (R497, R499). -/
def Dev.targetFenced (d : Dev) (g : SigFlight) : Bool :=
  if g.kind = 0 then (d.lc g.num).bound && (d.core (d.lc g.num).phys).fenced
  else if g.kind = 1 then (d.msus.get g.num).fenced
  else false

/-- An increment reaches its semaphore (R218, R220, R222, R423); a fenced target refuses it. -/
def Dev.arrive (d : Dev) (g : SigFlight) : Dev :=
  if d.targetFenced g then
    (match g.src with
      | some w => d.complete w stFenced (unitCore (d.lc w.lc).phys)
      | none => d)
  else if g.kind = 2 ∧ d.lateStream g.orbit then { d with lateSignals := d.lateSignals.upd g.num (satAdd 0xFFFF · 1) }
  else if 65535 < d.semCount g + g.inc then
    match g.answers with
    | some n => d.stopLc n stShape (unitCore (d.lc n).phys)
    | none => d
  else
    let d := d.setSemCount g (d.semCount g + g.inc)
    if g.kind = 0 then d.settle (d.lc g.num).phys else d

/-- Remove the n-th element of a list. -/
def dropNth {α : Type} : Nat → List α → List α
  | _, [] => []
  | 0, _ :: r => r
  | n + 1, a :: r => a :: dropNth n r

/-- SIGNAL_ARRIVAL: the n-th increment on its way arrives, once its release condition holds. -/
def doSignalArrival (d : Dev) (n : Nat) : Dev :=
  match d.signals[n]? with
  | none => d
  | some g => if d.released g then { d with signals := dropNth n d.signals }.arrive g else d

/-! SIGNAL (Table 8-18). -/

def sgIncreg (w : IWord) : Nat := bitsOf w 51 46
def sgIncReg (w : IWord) : Bool := bitOf w 45
def sgInc (w : IWord) : Nat := bitsOf w 44 29
def sgSem (w : IWord) : Nat := bitsOf w 28 19
def sgTnum (w : IWord) : Nat := bitsOf w 18 10
def sgTkind (w : IWord) : Nat := bitsOf w 9 8

/-- The increment that a SIGNAL sends (R279). -/
def sgAmount (l : LCore) (w : IWord) : Nat := if sgIncReg w then bitsOf (l.reg (sgIncreg w)) 15 0 else sgInc w

/-- TNUM and SEM lie in the range that TKIND allows (Tables 7-4 and 8-18). -/
def sgInRange (w : IWord) : Bool :=
  match sgTkind w with
  | 0 => decide (sgSem w < 32)
  | 1 => decide (sgTnum w < 16) && decide (sgSem w < 16)
  | 2 => decide (sgTnum w < 2)
  | _ => false

/-- SIGNAL (R220, R222, R226, R279). -/
def doSignal (d : Dev) (core : Nat) (w : IWord) : Dev :=
  let regs := if sgIncReg w then [sgIncreg w] else []
  d.issue core w regs regs false false (fun d who =>
    let k := sgAmount (d.lc who.lc) w
    if !sgInRange w then d.complete who stDesc (unitCore core)
    else if k = 0 then d
    else d.sendSignal ⟨some who, who.orbit, sgTkind w, sgTnum w, sgSem w, k, 0⟩)

/-! WAIT (R280). -/

def wtCntreg (w : IWord) : Nat := bitsOf w 35 30
def wtCntReg (w : IWord) : Bool := bitOf w 29
def wtCount (w : IWord) : Nat := bitsOf w 28 13
def wtSem (w : IWord) : Nat := bitsOf w 12 8

def wtAmount (l : LCore) (w : IWord) : Nat := if wtCntReg w then bitsOf (l.reg (wtCntreg w)) 15 0 else wtCount w

/-- WAIT (R221, R226, R230, R280): it waits at once, and the count is taken as soon as it is there. -/
def doWait (d : Dev) (core : Nat) (w : IWord) : Dev :=
  let regs := if wtCntReg w then [wtCntreg w] else []
  d.issue core w regs regs false false (fun d who =>
    d.updLc who.lc (fun l => if wtAmount l w = 0 then l else { l with phase := .waiting (wtSem w) (wtAmount l w) }))

/-! FENCE and HALT. -/

def fnModule (w : IWord) : Bool := bitOf w 8

/-- Work of the running logical core is outstanding on its core (R223). -/
def Dev.busy (d : Dev) (core : Nat) : Bool :=
  match d.runner core with
  | some n => !(d.core core).allDone n (d.lc n).seq
  | none => false

/-- FENCE (R223, R281): it issues once every earlier instruction has completed; every write is then visible, so both scopes
act alike. -/
def doFence (d : Dev) (core : Nat) (w : IWord) : Dev := d.issue core w [] [] (d.busy core) false (fun d _ => d)

/-- HALT (R219, R230, R231, R285): the logical core ends its orbit once every earlier instruction has completed. -/
def doHalt (d : Dev) (core : Nat) (w : IWord) : Dev :=
  d.issue core w [] [] (d.busy core) false (fun d who =>
    (d.updLc who.lc (·.endOrbit .halted)).updCore core (fun c => { c with occupied := false }))

end Sys2Proof.Machine
end

