-- ==== Sys2Proof/Machine/Control.lean ====
section
/-! DEFINITION. Control-queue instructions: DMAKE, TAKE and its counters, CHECK REGION and IMEM, and the context
instructions (R109, R243, R272, R273, R276 to R278, R282 to R284, R300 to R303, R320, R321, R337 to R340). -/
namespace Sys2Proof.Machine

/-! DMAKE (Table 8-16). -/

def dmListIdx (w : IWord) : Nat := bitsOf w 40 25
def dmDsrc (w : IWord) : Nat := bitsOf w 24 21
def dmSreg (w : IWord) : Nat := bitsOf w 20 15
def dmMode (w : IWord) : Nat := bitsOf w 14 12
def dmDdst (w : IWord) : Nat := bitsOf w 11 8

/-- s registers a DMAKE reads. -/
def dmRegs (w : IWord) : List Nat :=
  match dmMode w with
  | 0 => (List.range 4).map (dmSreg w + ·)
  | 2 => [dmSreg w]
  | 3 => (List.range 4).map (dmSreg w + ·)
  | _ => []

/-- 256 bits from four s registers, bits [63:0] from the first. -/
def sregDesc (l : LCore) (i : Nat) : Desc :=
  BitVec.ofNat 256 ((l.reg i).toNat + 2 ^ 64 * (l.reg (i + 1)).toNat + 2 ^ 128 * (l.reg (i + 2)).toNat + 2 ^ 192 * (l.reg (i + 3)).toNat)

/-- A descriptor with its OFFSET replaced. -/
def setOffset (x : Desc) (o : Nat) : Desc := setBits x 243 209 o

/-- DERIVE: the shifted descriptor, or its segment fault (R273, R303). -/
def deriveDesc (d : Dev) (q : Req) (x : Desc) (by_ : Int) : Except (Nat × Nat × Int) Desc :=
  let v := viewOf x
  let o := v.offset + by_
  let v' := { v with offset := o }
  match checkRuns d q true v.wr (viewRuns d v') with
  | some f => .error f
  | none =>
    if o < 0 then .error (v.seg, 6, o)
    else if 2 ^ 35 ≤ o then .error (v.seg, 6, 128 * segLimit (d.segs.get v.seg))
    else .ok (setOffset x o.toNat)

/-- Result of a DMAKE: a register to write, or a status with the fault behind it. -/
def dmakeResult (d : Dev) (core : Nat) (l : LCore) (w : IWord) : Except (Byte × Option (Nat × Nat × Int)) DReg :=
  let q : Req := .core core
  let full (x : Desc) : Except (Byte × Option (Nat × Nat × Int)) DReg :=
    match validateDesc d q x with
    | some f => .error (BitVec.ofNat 8 f.1, f.2)
    | none => .ok ⟨true, .tensor, x⟩
  let listed := decide (dmListIdx w < d.plan.descCount)
  match dmMode w with
  | 0 => if 60 < dmSreg w then .error (stDesc, none) else full (sregDesc l (dmSreg w))
  | 1 => if listed then full (d.plan.descs.get (dmListIdx w)) else .error (stDesc, none)
  | 2 =>
    if !l.tensorOk (dmDsrc w) then .error (stDesc, none)
    else
      match deriveDesc d q (l.desc (dmDsrc w)) (l.reg (dmSreg w)).toInt with
      | .error f => .error (stSegment, some f)
      | .ok x => .ok ⟨true, .tensor, x⟩
  | 3 => if 60 < dmSreg w then .error (stDesc, none) else .ok ⟨true, .header, sregDesc l (dmSreg w)⟩
  | 4 => if listed then .ok ⟨true, .header, d.plan.descs.get (dmListIdx w)⟩ else .error (stDesc, none)
  | _ => .error (stDesc, none)

/-- DMAKE (R226, R272, R273). -/
def doDmake (d : Dev) (core : Nat) (w : IWord) : Dev :=
  d.issue core w (dmRegs w) (dmRegs w) false false (fun d who =>
    match dmakeResult d core (d.lc who.lc) w with
    | .ok r => d.updLc who.lc (fun l => { l with d := l.d.set (dmDdst w) r })
    | .error (st, f) =>
      let d := d.updLc who.lc (fun l => { l with d := l.d.upd (dmDdst w) (fun r => { r with valid := false }) })
      let d := match f with
        | some f => d.segFault (.core core) f.1 f.2.1 f.2.2
        | none => d
      d.complete who st (unitCore core))

/-! TAKE (R276 to R278, R320, R321). -/

def tkInc (w : IWord) : Nat := bitsOf w 41 26
def tkCounter (w : IWord) : Nat := bitsOf w 25 20
def tkDst (w : IWord) : Nat := bitsOf w 13 8

/-- Value of a dispatch counter in the bank of orbit n, and the counter with a new value there. -/
def Counter.value (c : Counter) (n : Nat) : W32 := if n % 2 = 0 then c.bank0 else c.bank1
def Counter.put (c : Counter) (n : Nat) (v : W32) : Counter := if n % 2 = 0 then { c with bank0 := v } else { c with bank1 := v }

/-- TAKE: the counter advances, and its previous value is on its way to s[DST]. -/
def doTake (d : Dev) (core : Nat) (w : IWord) : Dev :=
  d.issue core w [tkDst w] [] false true (fun d who =>
    let c := (d.die (core / 32)).counters.get (tkCounter w)
    let v := c.value who.orbit
    if 0xFFFFFFFF < v.toNat + tkInc w then d.complete who stShape (unitCore core)
    else
      let d := d.updDie (core / 32) (fun k => { k with
        counters := k.counters.set (tkCounter w) (c.put who.orbit (BitVec.ofNat 32 (v.toNat + tkInc w))) })
      d.updCore core (fun c => { c with takes := c.takes ++ [⟨who, tkDst w, v, w⟩] }))

/-- TAKE_RESULT: the first result on its way is written, and a flow that waited for it is tested (R214, R240, R278). -/
def doTakeResult (d : Dev) (core : Nat) : Dev :=
  match (d.core core).takes with
  | [] => d
  | t :: r =>
    let d := d.updCore core (fun c => { c with takes := r })
    let d := d.updLc t.who.lc (fun l => l.setReg t.dst (t.value.zeroExtend 64) false)
    (if wCond t.word = 0 then d else d.testFlow t.who.lc t.word).settle core

/-- A logical core is over with orbit n. -/
def LCore.overWith (l : LCore) (n : Nat) : Bool :=
  decide (n < l.orbit) || (l.orbit == n && (match l.phase with
    | .halted => true
    | .stopped _ => true
    | _ => false))

/-- Bound logical cores of a die. -/
def Dev.dieCores (d : Dev) (die : Nat) : List Nat :=
  ((List.range 128).map (128 * die + ·)).filter (fun n => (d.lc n).bound)

/-- Last orbit of a parity that has started. -/
def lastOfParity (p : Nat) : List OrbitRun → Option Nat
  | [] => none
  | r :: rs =>
    match lastOfParity p rs with
    | some n => some (if r.num % 2 = p then max n r.num else n)
    | none => if r.num % 2 = p then some r.num else none

def reloadCells (p : Nat) (k : Die) : List (Nat × Counter) → Bank Counter
  | [] => k.counters
  | c :: r => if c.2.used then (reloadCells p k r).set c.1 (c.2.put p c.2.init) else reloadCells p k r

/-- COUNTER_BANK_RELOAD: once every logical core of the die is over with the last orbit of a parity, its bank of every
used counter returns to INIT (R321). -/
def doCounterBankReload (d : Dev) (die : Nat) (parity : Bool) : Dev :=
  let p := boolNat parity
  match lastOfParity p d.runs with
  | none => d
  | some n =>
    if (d.dieCores die).all (fun i => (d.lc i).overWith n) then
      d.updDie die (fun k => { k with counters := reloadCells p k k.counters.cells })
    else d

/-! CHECK REGION and IMEM (R243, R282, R343). -/

/-- Words of 128 B of a scratchpad region. -/
def regionWords (d : Dev) (core : Nat) (v : View) : List Nat :=
  ((viewRuns d v).map (fun r => dedupAdj ((List.range r.2.2).map (fun i => eccWord (segAddr d core v.swz r.1 (r.2.1.toNat + i)))))).flatten

/-- A word is read and a single flipped bit corrected in place. -/
def Dev.scrubWord (d : Dev) (w : Nat) : Dev :=
  let d' := d.readWord w
  if d.ms.flip2.get w then d' else { d' with ms := { d'.ms with flip1 := d'.ms.flip1.set w false } }

/-- CHECK with UNIT REGION (R282). -/
def doCheckRegion (d : Dev) (core : Nat) (w : IWord) : Dev :=
  d.issue core w [] [] false false (fun d who =>
    let l := d.lc who.lc
    let v := l.view (ckDreg w)
    d.checked who core [(!l.tensorOk (ckDreg w), stDesc), (!d.inPad v, stDesc)] [(v, false)] (fun d =>
      (regionWords d core v).foldl Dev.scrubWord d))

/-- One instruction-memory word is checked (R243): the lowest uncorrectable word, if any, is found last. -/
def imemScan (f1 f2 : Bank Bool) (core : Nat) : Nat → Nat × Option Nat
  | 0 => (0, none)
  | i + 1 =>
    let r := imemScan f1 f2 core i
    if f2.get (imemFlip core i) then (r.1, some (r.2.getD i))
    else (r.1 + (if f1.get (imemFlip core i) then 1 else 0), r.2)

/-- Every instruction word of a core is checked (R243): single-bit errors are corrected and counted, an uncorrectable word
is a persistent failure of the core with KIND 0x9. -/
def Dev.checkImem (d : Dev) (core : Nat) : Dev :=
  let r := imemScan d.ms.flip1 d.ms.flip2 core 16384
  let d := { d with ms := { d.ms with flip1 := d.ms.flip1.clear (imemFlip core 0) (imemFlip (core + 1) 0) } }
  let d := d.updCore core (fun c => { c with imemCorr := satAdd 0xFFFF c.imemCorr r.1 })
  match r.2 with
  | none => d
  | some i => d.imemBad core i

/-- CHECK with UNIT IMEM (R243, R282). -/
def doCheckImem (d : Dev) (core : Nat) (w : IWord) : Dev :=
  d.issue core w [] [] false false (fun d _ => d.checkImem core)

/-! CTXSAVE and CTXRESTORE (R109, R283, R284, R337 to R340). -/

def cxAreaEn (w : IWord) : Bool := bitOf w 8
def cxDreg (w : IWord) : Nat := bitsOf w 15 12

/-- CTXSAVE with AREA_EN = 0: the yield of R230, completed at once where no other logical core is ready. -/
def doCtxsaveYield (d : Dev) (core : Nat) (w : IWord) : Dev :=
  d.issue core w [] [] false false (fun d who => d.updLc who.lc (fun l => { l with phase := .yielded }))

/-- First address of the area that a view names, when it spans 7 MiB of tier 1 or tier 2 from a 4 KiB boundary. -/
def ctxAreaOf (d : Dev) (v : View) : Option Nat :=
  match viewRuns d v with
  | [] => none
  | r :: _ =>
    let a := segAddr d 0 0 v.seg r.2.1.toNat
    if 2 ≤ d.tierOf v ∧ ctxSize ≤ r.2.2 ∧ a % 4096 = 0 then some a else none

/-- Read every word of a range that holds an error, and say whether the range carries poison. -/
def Dev.touchRange (d : Dev) (lo hi : Nat) : Dev × Bool :=
  let words := ((d.ms.flip1.cells ++ d.ms.flip2.cells).filter (fun c => lo ≤ c.1 && c.1 < hi)).map (·.1)
  let d := words.foldl Dev.readWord d
  (d, d.ms.poison.cells.any (fun c => lo ≤ c.1 && c.1 < hi && c.2))

/-- CTXSAVE with AREA_EN = 1: the state goes to the named area and the logical core runs on (R283). It waits as R109 says. -/
def doCtxsaveArea (d : Dev) (core : Nat) (w : IWord) : Dev :=
  d.issue core w [] [] (!(d.core core).quiet) false (fun d who =>
    let l := d.lc who.lc
    let v := l.view (cxDreg w)
    d.checked who core [(!l.tensorOk (cxDreg w), stDesc), ((ctxAreaOf d v).isNone || !v.wr, stDesc)] [(v, true)] (fun d =>
      let a := (ctxAreaOf d v).getD 0
      let ms := saveImage d.ms a core who.lc l.orbit d.plan.digest (24 ≤ core % 32) l (d.core core)
      let lines := if t2Base ≤ a then (List.range (ctxSize / 128)).map (fun i => a + 128 * i) else []
      { d with ms := { ms with tagged := tagLines ms.tagged lines } }))

/-- Entries of an image belong to the logical core that restores it. -/
def ArrayEntry.ownedBy (e : ArrayEntry) (who : Issuer) : ArrayEntry := { e with who := { e.who with lc := who.lc, orbit := who.orbit } }

def Core.ownedBy (c : Core) (who : Issuer) : Core :=
  { c with arrayQ := c.arrayQ.map (fun e => e.ownedBy who)
           streams := c.streams.map (fun r => { r with who := { r.who with lc := who.lc, orbit := who.orbit }, entry := r.entry.ownedBy who }) }

/-- What a poisoned image gives back is poisoned (R225). -/
def Core.poisoned (c : Core) : Core :=
  { c with active := { c.active with poison := true }, shadow := { c.shadow with poison := true }
           handoff := c.handoff.map (fun h => { h with poison := true })
           epi0 := { c.epi0 with poison := true }, epi1 := { c.epi1 with poison := true }
           streams := c.streams.map (fun r => { r with poison := true }) }

/-- CTXRESTORE (R284, R340). -/
def doCtxrestore (d : Dev) (core : Nat) (w : IWord) : Dev :=
  (d.issue core w [] [] (d.busy core) false (fun d who =>
    let l := d.lc who.lc
    let v := l.view (cxDreg w)
    d.checked who core [(!l.tensorOk (cxDreg w), stDesc),
        (match ctxAreaOf d v with
          | none => true
          | some a => !d.imageOk a core, stDesc)] [(v, false)] (fun d =>
      let a := (ctxAreaOf d v).getD 0
      let t := d.touchRange a (a + ctxSize)
      let d := { t.1 with ms := loadPad t.1.ms a core }
      let d := if t.2 then { d with ms := { d.ms with
          poison := (List.range 49152).foldl (fun p i => p.set (spBase core + 128 * i) true) d.ms.poison } } else d
      d.updCore core (fun c =>
        let c := (loadCore d.ms.mem a c).ownedBy who
        if t.2 then c.poisoned else c)))).after core

end Sys2Proof.Machine
end

