-- ==== Sys2Proof/Machine/VectorOps.lean ====
section
/-! DEFINITION. The vector unit and the scalar arithmetic of the sequencer: the functions of Tables 8-11 and 8-12, the row
reduction, the vector queue, and the commands VOP_VECTOR, VOP_SCALAR and VOP_COMPLETION (R69, R70, R95, R201, R257 to R264,
R590). -/
namespace Sys2Proof.Machine

/-! Fields (Table 8-10). -/

def vpSigSem (w : IWord) : Nat := bitsOf w 44 40
def vpSigEn (w : IWord) : Bool := bitOf w 39
def vpSreg (w : IWord) : Nat := bitsOf w 38 33
def vpHandoff (w : IWord) : Bool := bitOf w 32
def vpC (w : IWord) : Nat := bitsOf w 31 28
def vpB (w : IWord) : Nat := bitsOf w 27 24
def vpA (w : IWord) : Nat := bitsOf w 23 20
def vpDst (w : IWord) : Nat := bitsOf w 19 16
def vpFunc (w : IWord) : Nat := bitsOf w 15 9
def vpScalar (w : IWord) : Bool := bitOf w 8

/-- Operand b, operand c and the scalar are used by a function of Table 8-11. -/
def usesB (f : Nat) : Bool := f == 0x00 || f == 0x01 || f == 0x02 || f == 0x03 || f == 0x04 || f == 0x05 || f == 0x09
def usesC (f : Nat) : Bool := f == 0x03
def usesS (f : Nat) : Bool := f == 0x08 || f == 0x09
def isReduce (f : Nat) : Bool := f == 0x0F || f == 0x10 || f == 0x11
def isTiesum (f : Nat) : Bool := f == 0x0E

/-- Larger of two: +0.0 above -0.0, NaN when either is NaN (Table 8-11). -/
def vecMax (a b : W32) : W32 :=
  if isNan32 a || isNan32 b then nan32
  else if (f32 a).isZero && (f32 b).isZero then (if a.msb && b.msb then 0x80000000 else 0)
  else if (f32 a).lt (f32 b) then b else a

def vecMin (a b : W32) : W32 :=
  if isNan32 a || isNan32 b then nan32
  else if (f32 a).isZero && (f32 b).isZero then (if a.msb || b.msb then 0x80000000 else 0)
  else if (f32 a).lt (f32 b) then a else b

/-- A result with the mark of a finite value that rounded to infinity (R70). -/
def rounded (v : FVal) : W32 × Bool := (to32 v, ovf32 v)

/-- Elementwise functions of Table 8-11 on FP32 patterns. -/
def vecFunc (f : Nat) (a b c s : W32) : W32 × Bool :=
  match f with
  | 0x00 => rounded ((f32 a).add (f32 b))
  | 0x01 => rounded ((f32 a).add (f32 b).neg)
  | 0x02 => rounded ((f32 a).mul (f32 b))
  | 0x03 => rounded (((f32 a).mul (f32 b)).add (f32 c))
  | 0x04 => (vecMax a b, false)
  | 0x05 => (vecMin a b, false)
  | 0x06 => rounded (f32 a).abs
  | 0x07 => rounded (f32 a).neg
  | 0x08 => rounded ((f32 a).mul (f32 s))
  | 0x09 => rounded (((f32 s).mul (f32 a)).add (f32 b))
  | 0x0A => rounded (f32 a)
  | 0x0B => rounded (f32 a).exp
  | 0x0C => ((to32 ((FVal.fin false 1 0).div 32 (f32 a))), !(f32 a).isZero && ovf32 ((FVal.fin false 1 0).div 32 (f32 a)))
  | _ => rounded ((f32 a).rsqrt 32)

/-! Row reduction (R260). -/

/-- Identity of a reduction. -/
def redInit (f : Nat) : W32 := if f = 0x10 then 0xFF800000 else 0

/-- One accumulation step: add, larger, or square-and-add. -/
def redOp (f : Nat) (acc : W32 × Bool) (x : W32) : W32 × Bool :=
  if f = 0x10 then (vecMax acc.1 x, acc.2)
  else
    let v := if f = 0x0F then (f32 acc.1).add (f32 x) else ((f32 x).mul (f32 x)).add (f32 acc.1)
    (to32 v, acc.2 || ovf32 v)

/-- Combination of two accumulators. -/
def redComb (f : Nat) (a b : W32 × Bool) : W32 × Bool :=
  if f = 0x10 then (vecMax a.1 b.1, a.2 || b.2)
  else
    let v := (f32 a.1).add (f32 b.1)
    (to32 v, a.2 || b.2 || ovf32 v)

/-- One pass over up to 512 elements: element j into accumulator j. -/
def redPass (f : Nat) : List (W32 × Bool) → List W32 → List (W32 × Bool)
  | a :: as, x :: xs => redOp f a x :: redPass f as xs
  | as, _ => as

def redAll (f : Nat) : Nat → List (W32 × Bool) → List W32 → List (W32 × Bool)
  | 0, acc, _ => acc
  | n + 1, acc, l => if l.isEmpty then acc else redAll f n (redPass f acc (l.take 512)) (l.drop 512)

def pairUp (f : Nat) : List (W32 × Bool) → List (W32 × Bool)
  | a :: b :: r => redComb f a b :: pairUp f r
  | l => l

def redTree (f : Nat) : Nat → List (W32 × Bool) → List (W32 × Bool)
  | 0, l => l
  | n + 1, l => redTree f n (pairUp f l)

/-- The reduction of one row. -/
def reduceRow (f : Nat) (l : List W32) : W32 × Bool :=
  (redTree f 9 (redAll f (l.length / 512 + 1) (List.replicate 512 (redInit f, false)) l)).headD (redInit f, false)

/-- Sum over slots in ascending order (R201). -/
def tieSum : List W32 → W32 × Bool
  | [] => (0, false)
  | a :: r => r.foldl (fun acc x => let v := (f32 acc.1).add (f32 x); (to32 v, acc.2 || ovf32 v)) (a, false)

/-! Shapes (R259, R261). -/

/-- A shape without outermost extents of 1. -/
def trimShape (l : List Nat) : List Nat := (l.reverse.dropWhile (· == 1)).reverse

def sameShape (a b : List Nat) : Bool := trimShape a == trimShape b

/-- The shape rules of R259 and R261. -/
def vopShapesOk (w : IWord) (dd a b c : View) : Bool :=
  let f := vpFunc w
  if vpHandoff w then
    !isTiesum f && dd.inner == (if isReduce f then 1 else 512)
      && (!usesB f || sameShape dd.shape b.shape) && (!usesC f || sameShape dd.shape c.shape)
  else if isTiesum f then
    let u := a.shape.getLastD 0
    2 ≤ u && u ≤ 16 && a.shape.length == dd.shape.length + 1 && a.shape.take dd.shape.length == dd.shape
  else if isReduce f then sameShape dd.shape (1 :: a.shape.drop 1)
  else sameShape dd.shape a.shape && (!usesB f || sameShape dd.shape b.shape) && (!usesC f || sameShape dd.shape c.shape)

/-- Table 8-4 checks 2 to 5 of a vector VOP (R258, R259, R261, R303). -/
def vopChecks (d : Dev) (l : LCore) (w : IWord) : List (Bool × Byte) :=
  let f := vpFunc w
  let dd := l.view (vpDst w)
  let a := l.view (vpA w)
  let b := l.view (vpB w)
  let c := l.view (vpC w)
  let usesA := !vpHandoff w
  let bad (v : View) : Bool := !d.inPad v || v.layout != 0 || !alignedUse v
  [(!l.tensorOk (vpDst w) || (usesA && !l.tensorOk (vpA w)) || (usesB f && !l.tensorOk (vpB w)) || (usesC f && !l.tensorOk (vpC w)), stDesc),
   (dd.elems == 0, stSkips),
   (0x12 ≤ f, stDesc),
   (bad dd || !dd.wr || (usesA && bad a) || (usesB f && bad b) || (usesC f && bad c), stDesc),
   (!vopShapesOk w dd a b c, stDesc)]

def vopRegions (l : LCore) (w : IWord) : List (View × Bool) :=
  let f := vpFunc w
  (if vpHandoff w then [] else [(l.view (vpA w), false)])
    ++ ((if usesB f then [(l.view (vpB w), false)] else [])
    ++ ((if usesC f then [(l.view (vpC w), false)] else []) ++ [(l.view (vpDst w), true)]))

/-! Execution. -/

/-- FP32 value that operand `v` supplies at linear index e of its shape (R258). -/
def vecRead (d : Dev) (core : Nat) (v : View) (e : Nat) : W32 := toFp32Val (readVal d core v (coords v.shape e))

/-- Outputs of a VOP: groups or rows from `lo` up to but not including `hi`, as (linear index, result, overflow). -/
def vopOutputs (d : Dev) (core : Nat) (r : VecRun) (lo hi : Nat) : List (Nat × W32 × Bool) :=
  let f := vpFunc r.word
  let dd := viewOf r.dd
  let a := viewOf r.da
  let b := viewOf r.db
  let c := viewOf r.dc
  let s : W32 := r.sval.truncate 32
  if isReduce f then
    let g := (a.inner + 511) / 512
    ((List.range dd.elems).filter (fun i => if g = 0 then lo = 0 else lo ≤ g * i + (g - 1) && g * i + (g - 1) < hi)).map (fun i =>
      (i, reduceRow f ((List.range a.inner).map (fun j => vecRead d core a (a.inner * i + j)))))
  else
    ((List.range (min dd.elems (512 * hi) - 512 * lo)).map (512 * lo + ·)).map (fun e =>
      if isTiesum f then
        (e, tieSum ((List.range (a.shape.getLastD 0)).map (fun u => vecRead d core a (dd.elems * u + e))))
      else
        (e, vecFunc f (vecRead d core a e) (if usesB f then vecRead d core b e else 0) (if usesC f then vecRead d core c e else 0) s))

/-- Outputs of one row of a VOP that takes operand a from the hand-off queue. -/
def vopHandRow (d : Dev) (core : Nat) (r : VecRun) (h : HandOff) (row : Nat) : List (Nat × W32 × Bool) :=
  let f := vpFunc r.word
  let b := viewOf r.db
  let c := viewOf r.dc
  let s : W32 := r.sval.truncate 32
  if isReduce f then [(row, reduceRow f (h.vals.getList 0 512))]
  else
    (List.range 512).map (fun j =>
      let e := 512 * row + j
      (e, vecFunc f (h.vals.get j) (if usesB f then vecRead d core b e else 0) (if usesC f then vecRead d core c e else 0) s))

/-- Groups of a VOP (R590). -/
def vopGroups (r : VecRun) : Nat :=
  let f := vpFunc r.word
  let dd := viewOf r.dd
  if vpHandoff r.word then dd.rows
  else if isReduce f then dd.elems * (((viewOf r.da).inner + 511) / 512)
  else (dd.elems + 511) / 512

/-- Addresses that a VOP reads. -/
def vopAddrs (d : Dev) (core : Nat) (r : VecRun) : List Nat :=
  let f := vpFunc r.word
  let all (x : Desc) : List Nat := let v := viewOf x; ((List.range v.elems).map (fun e => readAddrs d core v (coords v.shape e))).flatten
  (if vpHandoff r.word then [] else all r.da) ++ ((if usesB f then all r.db else []) ++ (if usesC f then all r.dc else []))

/-- Write outputs with their flags, saturations and poison (R62 to R65, R70, R225, R258). -/
def Dev.vecWrite (d : Dev) (core : Nat) (v : View) (outs : List (Nat × W32 × Bool)) (poison : Bool) : Dev :=
  let outs := outs.filter (fun o => allReal v.dims (coords v.shape o.1))
  let st := storeVals d core v (realVals v (outs.map (fun o => (coords v.shape o.1, f32 o.2.1))))
  let d := d.updCore core (fun c =>
    { c.noteSat st.2 with nanSeen := c.nanSeen || outs.any (fun o => isNan32 o.2.1), fp32Ovf := c.fp32Ovf || outs.any (fun o => o.2.2) })
  d.write st.1 poison

def updHead (f : VecRun → VecRun) : List VecRun → List VecRun
  | [] => []
  | r :: rs => f r :: rs

/-- Run a VOP from its first group not yet written to the end, or to the group whose check fails. -/
def runVec (d : Dev) (core : Nat) (r : VecRun) : Dev :=
  let t := d.touch (vopAddrs d core r)
  let d := t.1
  let poison := r.sPoison || t.2
  let n := vopGroups r
  let stop := match r.failGroup with
    | some g => min g n
    | none => n
  let failing := match r.failGroup with
    | some g => decide (g < n)
    | none => false
  let d := d.vecWrite core (viewOf r.dd) (vopOutputs d core r r.rows (if failing then stop else max n 1)) poison
  d.updCore core (fun c =>
    let c := if failing then { c.noteCheck 7 stop with pendingRepeat := some (.group stop) } else c
    { c with vecQ := updHead (fun r => { r with rows := stop, done := !failing, held := failing }) c.vecQ })

/-- One row of a VOP with HANDOFF: it takes the next queue entry (R95, R259). -/
def runHandRow (d : Dev) (core : Nat) (r : VecRun) (h : HandOff) : Dev :=
  if r.failGroup = some r.rows then
    d.updCore core (fun c => { c.noteCheck 7 r.rows with pendingRepeat := some (.group r.rows)
                                                         vecQ := updHead (fun r => { r with held := true }) c.vecQ })
  else
    let t := d.touch (if r.rows = 0 then vopAddrs d core r else [])
    let d := t.1
    let poison := r.sPoison || t.2 || h.poison
    let d := d.vecWrite core (viewOf r.dd) (vopHandRow d core r h r.rows) poison
    let n := vopGroups r
    d.updCore core (fun c => { c with
      handoff := c.handoff.drop 1
      vecQ := updHead (fun r => { r with rows := r.rows + 1, done := decide (n ≤ r.rows + 1), sPoison := poison }) c.vecQ })

/-- Advance the head of the vector queue. -/
def pumpVec : Nat → Nat → Dev → Dev
  | 0, _, d => d
  | n + 1, core, d =>
    let c := d.core core
    match c.vecQ with
    | [] => d
    | r :: _ =>
      if r.done || r.held || c.fenced || c.retired || (r.failGroup.isSome && c.pendingRepeat.isSome) then d
      else if vpHandoff r.word then
        match c.handoff with
        | [] => d
        | h :: _ => pumpVec n core (runHandRow d core r h)
      else runVec d core r

def Dev.vpump (d : Dev) (core : Nat) : Dev := pumpVec 9 core d

/-- VOP with SCALAR = 0 (R257 to R261, R590). -/
def doVopVector (d : Dev) (core : Nat) (w : IWord) (failGroup : Option Nat) : Dev :=
  if vpScalar w then d
  else
    ((d.issue core w (if usesS (vpFunc w) then [vpSreg w] else []) [] ((d.core core).vecQ.length ≥ 8) false (fun d who =>
      let l := d.lc who.lc
      let f := vpFunc w
      d.checked who core (vopChecks d l w) (vopRegions l w) (fun d =>
        d.updCore core (fun c => { c with vecQ := c.vecQ ++ [
          { who := who, word := w, sval := l.reg (vpSreg w), sPoison := usesS f && l.sPoison.get (vpSreg w)
            dd := l.desc (vpDst w), da := if vpHandoff w then 0 else l.desc (vpA w), db := if usesB f then l.desc (vpB w) else 0
            dc := if usesC f then l.desc (vpC w) else 0, failGroup := failGroup, rows := 0, done := false, held := false
            status := stDone }] })))).vpump core).after core

/-- VOP_COMPLETION: the VOP at the head of the vector queue, all written, completes and signals (R257, R262). -/
def doVopCompletion (d : Dev) (core : Nat) : Dev :=
  let d := d.vpump core
  match (d.core core).vecQ with
  | [] => d
  | r :: _ =>
    if r.done then
      (((d.updCore core (fun c => { c with vecQ := c.vecQ.drop 1 })).sigOwn (vpSigEn r.word) r.who (vpSigSem r.word)).vpump core).after core
    else d

/-! Scalar forms (Table 8-12, R263). -/

def scImm (w : IWord) : BitVec 32 := BitVec.ofNat 32 (bitsOf w 66 35)
def scUseImm (w : IWord) : Bool := bitOf w 34
def scB (w : IWord) : Nat := bitsOf w 33 28
def scA (w : IWord) : Nat := bitsOf w 27 22
def scDst (w : IWord) : Nat := bitsOf w 21 16
def scFunc (w : IWord) : Nat := bitsOf w 15 9

/-- FP32 of a signed 64-bit integer. -/
def i2f (a : W64) : W32 := to32 (.fin a.msb a.toInt.natAbs 0)

/-- FP32 truncated to a signed 64-bit integer, saturated; NaN gives 0. -/
def f2i (a : W32) : W64 :=
  match f32 a with
  | .nan => 0
  | .inf n => if n then 0x8000000000000000 else 0x7FFFFFFFFFFFFFFF
  | .fin n m e =>
    let k := (cutTo m e 0).1
    if n then (if k ≥ 2 ^ 63 then 0x8000000000000000 else BitVec.ofInt 64 (-(k : Int)))
    else if k ≥ 2 ^ 63 then 0x7FFFFFFFFFFFFFFF else BitVec.ofNat 64 k

def boolWord (b : Bool) : W64 := if b then 1 else 0

/-- Table 8-12; none for a reserved FUNC. -/
def scalarFunc (f : Nat) (a b imm : W64) : Option W64 :=
  let sh := b.toNat % 64
  match f with
  | 0x00 => some (a + b)
  | 0x01 => some (a - b)
  | 0x02 => some (a * b)
  | 0x03 => some (a &&& b)
  | 0x04 => some (a ||| b)
  | 0x05 => some (a ^^^ b)
  | 0x06 => some (a <<< sh)
  | 0x07 => some (a >>> sh)
  | 0x08 => some (a.sshiftRight sh)
  | 0x09 => some (if a.slt b then a else b)
  | 0x0A => some (if a.slt b then b else a)
  | 0x0B => some (if a.ult b then a else b)
  | 0x0C => some (if a.ult b then b else a)
  | 0x0D => some (boolWord (a.slt b))
  | 0x0E => some (boolWord (a.ult b))
  | 0x0F => some (boolWord (a == b))
  | 0x10 => some imm
  | 0x11 => some (BitVec.ofNat 64 (bitsOf imm 31 0 * 2 ^ 32 + bitsOf a 31 0))
  | 0x12 => some ((addF32 (a.truncate 32) (b.truncate 32)).zeroExtend 64)
  | 0x13 => some ((mulF32 (a.truncate 32) (b.truncate 32)).zeroExtend 64)
  | 0x14 => some ((i2f a).zeroExtend 64)
  | 0x15 => some (f2i (a.truncate 32))
  | _ => none

/-- s registers that a scalar form reads. -/
def scSources (w : IWord) : List Nat :=
  let f := scFunc w
  let unary := f == 0x11 || f == 0x14 || f == 0x15
  if f = 0x10 then [] else if unary || scUseImm w then [scA w] else [scA w, scB w]

/-- Operand b: s[SRCB], or the sign-extended immediate. -/
def scOperandB (l : LCore) (w : IWord) : W64 := if scUseImm w then (scImm w).signExtend 64 else l.reg (scB w)

/-- Result and poison of a scalar VOP (R225, R263). -/
def scalarResult (l : LCore) (w : IWord) : Option (W64 × Bool) :=
  (scalarFunc (scFunc w) (l.reg (scA w)) (scOperandB l w) ((scImm w).signExtend 64)).map
    (fun v => (v, (scSources w).any (fun r => l.sPoison.get r)))

/-- VOP with SCALAR = 1 (R214, R216, R263, R264). -/
def doVopScalar (d : Dev) (core : Nat) (w : IWord) : Dev :=
  if !vpScalar w then d
  else
    d.issue core w (scDst w :: scSources w) [] false false (fun d who =>
      match scalarResult (d.lc who.lc) w with
      | none => d.complete who stDesc (unitCore core)
      | some r => d.updLc who.lc (fun l => l.setReg (scDst w) r.1 r.2))

end Sys2Proof.Machine
end

