-- ==== Sys2Proof/Machine/MoveOps.lean ====
section
/-! DEFINITION. The move queue: MOVE, MOVE_TO_SREG, MOVE_COMPLETION, MCAST and MCAST_MEMBER_DELIVERY (R50, R181 to R186,
R225, R265 to R271, R339). -/
namespace Sys2Proof.Machine

/-! Fields (Tables 8-13 and 8-15). -/

def mvSigSem (w : IWord) : Nat := bitsOf w 32 28
def mvSigEn (w : IWord) : Bool := bitOf w 27
def mvNwords (w : IWord) : Nat := bitsOf w 26 24
def mvSreg (w : IWord) : Nat := bitsOf w 23 18
def mvToSreg (w : IWord) : Bool := bitOf w 17
def mvTrans (w : IWord) : Bool := bitOf w 16
def mvDsrc (w : IWord) : Nat := bitsOf w 15 12
def mvDdst (w : IWord) : Nat := bitsOf w 11 8

def mcSigSem (w : IWord) : Nat := bitsOf w 34 30
def mcSigEn (w : IWord) : Bool := bitOf w 29
def mcMsem (w : IWord) : Nat := bitsOf w 28 24
def mcGroup (w : IWord) : Nat := bitsOf w 23 16
def mcDdst (w : IWord) : Nat := bitsOf w 15 12
def mcDsrc (w : IWord) : Nat := bitsOf w 11 8

def isMcast (w : IWord) : Bool := wOpcode w == opMcast

/-- The rows of Table 8-14. -/
inductive MoveKind where
  /-- Bit copy between native and interleaved tensors, or within either (rows 1 and 2). -/
  | bits
  /-- Bit copy of compressed tile objects and their scale arrays (row 1). -/
  | tiles
  /-- Exact decoding into FP32 (row 3). -/
  | decode
  /-- Conversion from FP32 (row 4). -/
  | convert
  /-- Through the transposing staging buffer (row 5). -/
  | trans
deriving DecidableEq, Repr

/-- The conversion of a pair of views, or none (R182, R186, R266). -/
def moveKind (d : Dev) (trans : Bool) (s t : View) : Option MoveKind :=
  if trans then (if d.transOk s && t.fmt == s.fmt && t.layout == 0 then some .trans else none)
  else if s.fmt = t.fmt ∧ s.layout = t.layout then
    (if s.layout ≠ 2 then some .bits
     else if trSlot (d.plan.trecs.get s.trec) ≤ trSlot (d.plan.trecs.get t.trec) then some .tiles else none)
  else if s.fmt = t.fmt ∧ isScaled s.fmt ∧ s.layout ≠ 2 ∧ t.layout ≠ 2 then some .bits
  else if s.layout ≠ 0 ∨ t.layout ≠ 0 then none
  else if t.fmt = 0 then some .decode
  else if s.fmt = 0 then some .convert
  else none

def moveShapesOk (trans : Bool) (s t : View) : Bool := sameShape t.shape (if trans then s.transposed.shape else s.shape)

/-! Data. -/

/-- Pattern and scale byte of each element as it goes to DDST, with the scale stored once per block. -/
def bitItems (d : Dev) (core : Nat) (s t : View) : List WItem :=
  ((List.range t.elems).map (fun n =>
    let p := coords t.shape n
    if !allReal t.dims p then []
    else
      let r := readPos d core s (coords s.shape n)
      let e := (t.elemIndex p).toNat
      (if isScaled t.fmt && p.headD 0 % 32 == 0 then [⟨scaleAddr d core t e, 0xFF, r.2⟩] else []) ++ storeElem d core t e r.1)).flatten

/-- Tile objects of a compressed view: slot number and the place (kt, nt) of each. -/
def viewSlots (v : View) : List Nat :=
  let rows := ((v.dims.headD ⟨0, 0, 0, 0⟩).ext + 511) / 512
  let cols := ((v.dims.getD 1 ⟨0, 0, 0, 0⟩).ext + 511) / 512
  let st := (v.dims.getD 1 ⟨0, 0, 0, 0⟩).str
  ((List.range cols).map (fun (j : Nat) => (List.range rows).map (fun (i : Nat) => (v.offset + (i : Nat) + (j : Nat) * st).toNat))).flatten

/-- Pairs of addresses (source, destination) that a copy of one tile object and its scale bytes moves. -/
def tilePairs (d : Dev) (core : Nat) (s t : View) (a b : Nat) : List (Nat × Nat) :=
  (List.range (128 * trSlot (d.plan.trecs.get s.trec))).map (fun o => (tileAddr d core s a o, tileAddr d core t b o))
  ++ (if isScaled s.fmt then
      ((List.range 512).map (fun n => (List.range 16).map (fun k => (tileScaleAddr d core s a n k, tileScaleAddr d core t b n k)))).flatten
     else [])

def zipSlots : List Nat → List Nat → List (Nat × Nat)
  | a :: as, b :: bs => (a, b) :: zipSlots as bs
  | _, _ => []

def allPairs (d : Dev) (core : Nat) (s t : View) : List (Nat × Nat) :=
  ((zipSlots (viewSlots s) (viewSlots t)).map (fun x => tilePairs d core s t x.1 x.2)).flatten

/-- Rows of a transposed copy: items and the elements that the rescaling changed (R183, R186). -/
def transItems (d : Dev) (core : Nat) (s t : View) : List WItem × Nat :=
  let rows := (List.range t.rows).map (fun r =>
    let x := readRow d core s true r t.inner
    (((List.range t.inner).map (fun c =>
      let p := t.posOf r c
      if !allReal t.dims p then []
      else
        let e := (t.elemIndex p).toNat
        (if isScaled t.fmt && c % 32 == 0 then [⟨scaleAddr d core t e, 0xFF, x.2.1.getD (c / 32) 0⟩] else [])
          ++ storeElem d core t e (x.1.getD c 0))).flatten, x.2.2))
  ((rows.map (·.1)).flatten, (rows.map (·.2)).foldl (· + ·) 0)

/-- Values of DSRC at the positions of DDST. -/
def moveVals (d : Dev) (core : Nat) (s t : View) : List (Nat × FVal) :=
  realVals t ((List.range t.elems).map (fun n =>
    let x := readVal d core s (coords s.shape n)
    (coords t.shape n, if t.fmt = 0 then f32 (toFp32Val x) else x)))

/-- What a copy writes, the saturations it makes and the elements that a transposition changed. -/
def moveItems (d : Dev) (core : Nat) (k : MoveKind) (s t : View) : List WItem × Nat × Nat :=
  match k with
  | .bits => (bitItems d core s t, 0, 0)
  | .tiles => ((allPairs d core s t).map (fun x => ⟨x.2, 0xFF, memGet d.ms.mem x.1⟩), 0, 0)
  | .trans => let r := transItems d core s t; (r.1, 0, r.2)
  | _ => let r := storeVals d core t (moveVals d core s t); (r.1, r.2, 0)

/-- Addresses that a copy reads. -/
def moveAddrs (d : Dev) (core : Nat) (s t : View) : List Nat :=
  if s.layout = 2 then (allPairs d core s t).map (·.1)
  else ((List.range s.elems).map (fun n => readAddrs d core s (coords s.shape n))).flatten

/-! Held deliveries (R270, R339, Table 10-11). -/

/-- The member runs on its physical core. -/
def Dev.runs? (d : Dev) (lc : Nat) : Bool :=
  let c := d.core (d.lc lc).phys
  c.occupied && c.lc == lc

/-- Scratchpad range, in scratchpad addresses, that a delivery to DDST spans. -/
def deliveryRange (d : Dev) (t : View) : Nat × Nat :=
  let rs := (viewRuns d t).filter (fun r => segTier (d.segs.get r.1) == 0)
  let lo := rs.map (fun r => 128 * segBase (d.segs.get r.1) + r.2.1.toNat)
  let hi := rs.map (fun r => 128 * segBase (d.segs.get r.1) + r.2.1.toNat + r.2.2)
  match lo with
  | [] => (0, 0)
  | a :: as => (as.foldl min a, hi.foldl max 0 - as.foldl min a)

/-- Move the scratchpad addresses of a write from one place to another. -/
def shiftItems (src dst : Nat) (l : List WItem) : List WItem :=
  l.map (fun i => if src ≤ i.addr ∧ i.addr < src + spSize then { i with addr := dst + (i.addr - src) } else i)

/-- Set or clear the mark bits of a delivery in a context image (R224, R339). -/
def markImage (m : Mem) (a src : Nat) (masks : Bank Byte) (p : Bool) : List Nat → Mem
  | [] => m
  | g :: r =>
    let i := (g - src) / 128
    let at_ := a + 0x83000 + i / 8
    markImage (if p then memSetBit m at_ (i % 8) true
      else if coversWhole masks g 128 then memSetBit m at_ (i % 8) false else m) a src masks p r

/-- Write a delivery into a member's context area and record it as held. -/
def Dev.holdDelivery (d : Dev) (core lc : Nat) (r : MoveRun) : Dev :=
  let a := ctxArea lc
  let t := viewOf r.dd
  let masks := writeMasks r.items
  let grs := (granulesOf (masks.cells.map (·.1))).filter (fun g => spBase core ≤ g && g < spBase core + spSize)
  let rg := deliveryRange d t
  let n := imgHeld d.ms.mem a
  let ms := d.ms.write (shiftItems (spBase core) (a + 0x100000) r.items) false
  let m := markImage ms.mem a (spBase core) masks r.poison grs
  let m := memWrite (memWrite m (a + 128 + 16 * n) 4 rg.1) (a + 132 + 16 * n) 4 rg.2
  let m := memWrite (memWrite m (a + 136 + 16 * n) 1 (mcMsem r.word)) (a + 137 + 16 * n) 7 t.swz
  { d with ms := { ms with mem := memWrite m (a + 64) 4 (n + 1), written := ms.written.set (granule a) true } }

/-! The queue. -/

def updMove (f : MoveRun → MoveRun) : List MoveRun → List MoveRun
  | [] => []
  | r :: rs => f r :: rs

def Dev.popMove (d : Dev) (core : Nat) : Dev := d.updCore core (fun c => { c with moveQ := c.moveQ.drop 1 })

/-- First byte of the region of a view. -/
def View.firstByte (d : Dev) (v : View) : Int :=
  match viewRuns d v with
  | r :: _ => r.2.1
  | [] => v.origin

/-- Addresses that a load of s registers reads (R267). -/
def sregAddrs (d : Dev) (core : Nat) (v : View) (n : Nat) : List Nat :=
  (List.range n).map (fun i => segAddr d core v.swz v.seg ((v.firstByte d).toNat + i))

/-- Registers s[i] onwards from 64-bit little-endian words. -/
def loadRegs (m : Mem) (as : List Nat) (p : Bool) (first : Nat) : Nat → LCore → LCore
  | 0, l => l
  | n + 1, l => (loadRegs m as p first n l).setReg (first + n) (BitVec.ofNat 64 (gatherBytes m ((as.drop (8 * n)).take 8))) p

/-- A load of s registers reads, writes its registers and completes; its flow is tested then (R214, R225, R267). -/
def finishLoadRegs (d : Dev) (core : Nat) (r : MoveRun) : Dev :=
  let w := r.word
  let as := sregAddrs d core (viewOf r.ds) (8 * (mvNwords w + 1))
  let t := d.touch as
  let d := t.1.popMove core
  let d := d.updLc r.who.lc (fun l => loadRegs d.ms.mem as t.2 (mvSreg w) (mvNwords w + 1) l)
  let d := d.sigOwn (mvSigEn w) r.who (mvSigSem w)
  if wCond w = 0 then d else d.testFlow r.who.lc w

/-- A MOVE reads and writes; an MCAST reads once. -/
def startMove (d : Dev) (core : Nat) (r : MoveRun) : Dev :=
  let s := viewOf r.ds
  let t := viewOf r.dd
  let k := (moveKind d (!isMcast r.word && mvTrans r.word) s t).getD .bits
  let x := d.touch (moveAddrs d core s t)
  let d := x.1
  let m := moveItems d core k s t
  let d := d.updCore core (fun c =>
    { c.noteSat m.2.1 with
      tsbInexact := satAdd 0xFFFFFFFF c.tsbInexact m.2.2
      moveQ := updMove (fun r => { r with started := true, items := if isMcast r.word then m.1 else [], poison := x.2 }) c.moveQ })
  if isMcast r.word then d else d.write m.1 x.2

/-- Start what stands at the head of the move queue; an MCAST without members left completes. -/
def pumpMove : Nat → Nat → Dev → Dev
  | 0, _, d => d
  | n + 1, core, d =>
    let c := d.core core
    match c.moveQ with
    | [] => d
    | r :: _ =>
      if c.fenced || c.retired then d
      else if mvLoads r.word then pumpMove n core (finishLoadRegs d core r)
      else if !r.started then pumpMove n core (startMove d core r)
      else if isMcast r.word && r.members.isEmpty then
        pumpMove n core ((d.popMove core).sigOwn (mcSigEn r.word) r.who (mcSigSem r.word))
      else d

def Dev.mpump (d : Dev) (core : Nat) : Dev := pumpMove 40 core d

def Dev.pushMove (d : Dev) (core : Nat) (r : MoveRun) : Dev :=
  d.updCore core (fun c => { c with moveQ := c.moveQ ++ [r] })

def mkMove (who : Issuer) (w : IWord) (ds dd : Desc) (members : List Nat) : MoveRun :=
  { who := who, word := w, ds := ds, dd := dd, started := false, items := [], poison := false, members := members }

/-- Table 8-4 checks 2 to 5 of a MOVE between tensors (R266, R301, R303). -/
def moveChecks (d : Dev) (l : LCore) (w : IWord) : List (Bool × Byte) :=
  let s := l.view (mvDsrc w)
  let t := l.view (mvDdst w)
  [(!l.tensorOk (mvDsrc w) || !l.tensorOk (mvDdst w), stDesc),
   (t.elems == 0, stSkips),
   (!alignedUse s || !alignedUse t || !t.wr, stDesc),
   ((moveKind d (mvTrans w) s t).isNone, stDesc),
   (!moveShapesOk (mvTrans w) s t, stDesc)]

/-- MOVE with TO_SREG = 0 (R265, R266, R268). -/
def doMove (d : Dev) (core : Nat) (w : IWord) : Dev :=
  if mvToSreg w then d
  else
    ((d.issue core w [] [] ((d.core core).moveQ.length ≥ 8) false (fun d who =>
      let l := d.lc who.lc
      d.checked who core (moveChecks d l w) [(l.view (mvDsrc w), false), (l.view (mvDdst w), true)] (fun d =>
        d.pushMove core (mkMove who w (l.desc (mvDsrc w)) (l.desc (mvDdst w)) [])))).mpump core).after core

/-- Checks of a MOVE into s registers (R267, R303). -/
def sregChecks (l : LCore) (w : IWord) : List (Bool × Byte) :=
  [(!l.tensorOk (mvDsrc w), stDesc), (!alignedUse (l.view (mvDsrc w)) || decide (63 < mvSreg w + mvNwords w), stDesc)]

/-- MOVE with TO_SREG = 1 (R214, R216, R225, R267). -/
def doMoveToSreg (d : Dev) (core : Nat) (w : IWord) : Dev :=
  if !mvToSreg w then d
  else
    ((d.issue core w (mvRegs w) [] ((d.core core).moveQ.length ≥ 8) true (fun d who =>
      let l := d.lc who.lc
      match firstFail (sregChecks l w) with
      | some st => d.complete who st (unitCore core)
      | none =>
        let v := l.view (mvDsrc w)
        match segCheck d (.core core) v.seg true false (v.firstByte d) (8 * (mvNwords w + 1)) with
        | some f => (d.segFault (.core core) v.seg f.1 f.2).complete who stSegment (unitCore core)
        | none => d.pushMove core (mkMove who w (l.desc (mvDsrc w)) 0 []))).mpump core).after core

/-- MOVE_COMPLETION: the copy at the head of the move queue completes and signals (R265, R268). -/
def doMoveCompletion (d : Dev) (core : Nat) : Dev :=
  let d := d.mpump core
  match (d.core core).moveQ with
  | [] => d
  | r :: _ =>
    if r.started && !isMcast r.word then
      ((((d.popMove core).sigOwn (mvSigEn r.word) r.who (mvSigSem r.word)).mpump core)).after core
    else d

/-- Table 8-4 checks 2 to 5 of an MCAST (R269, R301, R303). -/
def mcastChecks (d : Dev) (l : LCore) (w : IWord) : List (Bool × Byte) :=
  let s := l.view (mcDsrc w)
  let t := l.view (mcDdst w)
  [(!l.tensorOk (mcDsrc w) || !l.tensorOk (mcDdst w), stDesc),
   (!alignedUse s || !alignedUse t || !t.wr || !d.inPad t, stDesc),
   (s.fmt != t.fmt || s.layout != t.layout || (moveKind d false s t).isNone || !moveShapesOk false s t, stDesc)]

/-- Logical cores of a multicast group of a die. -/
def groupMembers (d : Dev) (die g : Nat) : List Nat :=
  ((List.range 128).filter (fun i => bitOf ((d.die die).groups.get g) i)).map (128 * die + ·)

/-- MCAST (R269, R271). -/
def doMcast (d : Dev) (core : Nat) (w : IWord) : Dev :=
  ((d.issue core w [] [] ((d.core core).moveQ.length ≥ 8) false (fun d who =>
    let l := d.lc who.lc
    d.checked who core (mcastChecks d l w) [(l.view (mcDsrc w), false), (l.view (mcDdst w), true)] (fun d =>
      d.pushMove core (mkMove who w (l.desc (mcDsrc w)) (l.desc (mcDdst w)) (groupMembers d (core / 32) (mcGroup w)))))).mpump core).after core

/-- MCAST_MEMBER_DELIVERY: one member receives its copy, in its scratchpad or held in its context area; a member that holds
16 deliveries keeps the MCAST waiting (R270, R271, R339). -/
def doMcastMemberDelivery (d : Dev) (core member : Nat) : Dev :=
  let d := d.mpump core
  let lc := 128 * (core / 32) + member
  match (d.core core).moveQ with
  | [] => d
  | r :: _ =>
    if !isMcast r.word || !r.started || !r.members.contains lc then d
    else
      let done (d : Dev) : Dev :=
        ((d.updCore core (fun c => { c with moveQ := updMove (fun r => { r with members := r.members.filter (· != lc) }) c.moveQ })).mpump
          core).after core
      if d.runs? lc then
        let d := d.write (shiftItems (spBase core) (spBase (d.lc lc).phys) r.items) r.poison
        done (d.arrive ⟨some r.who, r.who.orbit, 0, lc, mcMsem r.word, 1, 0⟩)
      else if 16 ≤ imgHeld d.ms.mem (ctxArea lc) then d
      else done (d.holdDelivery core lc r)

end Sys2Proof.Machine
end

