-- ==== Sys2Proof/Machine/Dot.lean ====
section
/-! DEFINITION. Dot products outside the array with the array's arithmetic: the audit of the Coma engines and the stream
multiplier of the memory-side units compute each pass as a column of the array would (R51 to R61, R137, R172, R328, R329,
R397, R398). -/
namespace Sys2Proof.Machine

/-- A weight set whose column 0 holds up to 128 dense elements and their block scales. -/
def colSet (f : Nat) (elems : List Nat) (scales : List Byte) : WeightSet :=
  { WeightSet.emptyOf f false 0 false 0x7F with
    cells := (List.range elems.length).foldl (fun b p => b.set (512 * p) (BitVec.ofNat 18 (elems.getD p 0))) (Bank.const 0)
    scales := (Bank.const 0x7F).putList 0 scales }

/-- A column's window with every contribution of the pass in it, the residue entries among them (R58). -/
def fullColumn (w : WeightSet) (mode af k n : Nat) (av : ActVec) (res : List W64) : Win :=
  let cs := cellContribs w mode af false k n av
    ++ ((res.filter (fun x => resCol x == n)).map (residueContrib w af k av)).flatten
  let sp := if nanScale w mode af false k n av then .nan else specialOf cs
  let a := if isScaled af then anchorScaled w mode af false k n av else (anchor16 cs).getD 0
  (winOf a 0 sp cs).1

/-- One pass: FP32 result with tile product T and partial sum P (R59). -/
def passValue (w : WeightSet) (mode af k n : Nat) (av : ActVec) (res : List W64) (t p : W32) : W32 :=
  to32 (drainExact (fullColumn w mode af k n av res) t p)

/-- Elements and block scales of `n` positions of a row from `base` on. -/
def rowPart (d : Dev) (pad : Nat) (v : View) (row base n : Nat) : List Nat × List Byte :=
  let l := (List.range n).map (fun c => readPos d pad v (v.posOf row (base + c)))
  (l.map (·.1), (List.range ((n + 31) / 32)).map (fun b => (l.getD (32 * b) (0, 0x00)).2))

/-- A dense pass of up to 128 logical rows from `base` on: column n of W against row m of the activations. -/
def densePass (d : Dev) (pad : Nat) (w x : View) (n m base k : Nat) (t p : W32) : W32 :=
  let cnt := min 128 (k - base)
  let we := rowPart d pad w n base cnt
  let ae := rowPart d pad x m base cnt
  passValue (colSet w.fmt we.1 we.2) (if is16 w.fmt then modeD16 else modeD8) x.fmt cnt 0 ⟨ae.1, ae.2⟩ [] t p

/-- Slot of the tile that holds column n and logical row 512 kt (Table 9-4). -/
def tileSlot (w : View) (n kt : Nat) : Nat :=
  (w.offset + (kt : Int) + ((n / 512 : Nat) : Int) * (w.dims.getD 1 ⟨0, 0, 0, 0⟩).str).toNat

/-- A tile of a compressed weight tensor expanded, with its residue entries: tile row kt of the column block of column n. -/
def tileSet (d : Dev) (pad : Nat) (w : View) (n kt : Nat) : WeightSet × List W64 :=
  (expandCols d pad w (tileSlot w n kt) 512 0 0 (WeightSet.emptyOf w.fmt true 0 false (if isScaled w.fmt then 0x00 else 0x7F), [])).1

/-- A compressed pass of 512 logical rows. -/
def sparsePass (d : Dev) (pad : Nat) (w x : View) (n m kt k : Nat) (t p : W32) : W32 :=
  let s := tileSet d pad w n kt
  let ae := rowPart d pad x m (512 * kt) (min 512 (k - 512 * kt))
  passValue s.1 modeSP x.fmt (min 512 (k - 512 * kt)) (n % 512) ⟨ae.1, ae.2⟩ s.2 t p

/-- A pass of `rows` logical rows: one compressed pass, or dense passes of 128 rows under one tile product (R90). -/
def dotPass (d : Dev) (pad : Nat) (w x : View) (n m pass rows k : Nat) (t p : W32) : W32 :=
  if w.layout = 2 then sparsePass d pad w x n m pass k t p
  else (List.range (rows / 128)).foldl (fun p i =>
    if k ≤ pass * rows + 128 * i then p else densePass d pad w x n m (pass * rows + 128 * i) (min k (pass * rows + rows)) t p) p

/-- Passes `lo` up to but not including `hi` in ascending order from partial sum P; `t` gives the tile product of each. -/
def dotPasses (d : Dev) (pad : Nat) (w x : View) (n m rows k : Nat) (t : Nat → W32) (lo hi : Nat) (p : W32) : W32 :=
  (List.range (hi - lo)).foldl (fun p i => dotPass d pad w x n m (lo + i) rows k (t (lo + i)) p) p

/-- One level of the combine tree: acc[j] += acc[j + h] for j in steps of 2h (R329). -/
def treeLevel (h : Nat) (acc : List W32) : List W32 :=
  (List.range acc.length).map (fun j =>
    if j % (2 * h) = 0 ∧ j + h < acc.length then addF32 (acc.getD j 0) (acc.getD (j + h) 0) else acc.getD j 0)

/-- The tree of R329, level by level. -/
def combineTree : Nat → Nat → List W32 → List W32
  | 0, _, acc => acc
  | n + 1, h, acc => if h < acc.length then combineTree n (2 * h) (treeLevel h acc) else acc

/-- The whole product of one column and one activation row, split into chunks of `chunk` rows where that is nonzero. -/
def dotAll (d : Dev) (pad : Nat) (w x : View) (n m rows k chunk : Nat) (t : Nat → W32) : W32 :=
  let passes := (k + rows - 1) / rows
  if chunk = 0 then dotPasses d pad w x n m rows k t 0 passes 0
  else
    let per := max 1 (chunk / rows)
    let c := (passes + per - 1) / per
    let part (i : Nat) : W32 :=
      if i = 0 then dotPasses d pad w x n m rows k t 0 (min per passes - 1) 0
      else dotPasses d pad w x n m rows k t (per * i) (min (per * (i + 1)) passes) 0
    let acc := combineTree 11 1 ((List.range c).map part)
    if passes = 0 then 0
    else dotPass d pad w x n m (min per passes - 1) rows k (t (min per passes - 1)) (acc.headD 0)

/-- Addresses of the tile objects and scale bytes of column n of a compressed tensor over k logical rows. -/
def tileColAddrs (d : Dev) (pad : Nat) (w : View) (n k : Nat) : List Nat :=
  ((List.range ((k + 511) / 512)).map (fun kt =>
    let slot := tileSlot w n kt
    (List.range (128 * trSlot (d.plan.trecs.get w.trec))).map (tileAddr d pad w slot)
      ++ (if isScaled w.fmt then (List.range 16).map (tileScaleAddr d pad w slot (n % 512)) else []))).flatten

/-- Addresses that a dense or compressed weight column and an activation row touch. -/
def dotAddrs (d : Dev) (pad : Nat) (w x : View) (n m k : Nat) : List Nat :=
  ((List.range k).map (fun i => readAddrs d pad x (x.posOf m i))).flatten ++
  (if w.layout = 2 then tileColAddrs d pad w n k
   else ((List.range k).map (fun i => readAddrs d pad w (w.posOf n i))).flatten)

end Sys2Proof.Machine
end

