-- ==== Sys2Proof/Machine/ComaOps.lean ====
section
/-! DEFINITION. The Coma engines: submission by GATHER, SCATTER and MERGE, and the commands they run (chapter 5 of the spec;
R132 to R139, R165 to R173, R274, R275, R593). -/
namespace Sys2Proof.Machine

/-! Submission (R140, R141, R144, R211, R274, R275). -/

def cmOpmask (w : IWord) : Nat := bitsOf w 26 24
def cmOpc (w : IWord) : Nat := bitsOf w 23 20
def cmOpb (w : IWord) : Nat := bitsOf w 19 16
def cmOpa (w : IWord) : Nat := bitsOf w 15 12
def cmHdr (w : IWord) : Nat := bitsOf w 11 8

/-- Physical engine of logical engine j of a die under the current binding (R211). -/
def Dev.engineOf (d : Dev) (die j : Nat) : Nat := gatherEngine (d.lc (128 * die + 24 + j)).phys

/-- Operand register named by bit i of OPMASK. -/
def cmOperand (l : LCore) (w : IWord) (i r : Nat) : Option Desc := if (cmOpmask w).testBit i then some (l.desc r) else none

def cmOperandBad (l : LCore) (w : IWord) (i r : Nat) : Bool := (cmOpmask w).testBit i && !l.tensorOk r

/-- Issue checks 2 and 5 of a Coma instruction of a class. -/
def comaChecks (l : LCore) (w : IWord) (cls : Nat) : List (Bool × Byte) :=
  let h := l.desc (cmHdr w)
  [(!l.headerOk (cmHdr w) || cmOperandBad l w 0 (cmOpa w) || cmOperandBad l w 1 (cmOpb w) || cmOperandBad l w 2 (cmOpc w), stDesc),
   (opClass (hOp h) != cls || !(opMasks h).contains (cmOpmask w) || !Machine.headerOk h, stDesc)]

/-- Submission of a Coma command; it waits while the engine's queue holds 16 (R144). A fenced engine refuses it (R497), and a
retired one runs nothing (R471, R477). -/
def submitComa (d : Dev) (core : Nat) (w : IWord) (cls : Nat) : Dev :=
  let full := match d.runner core with
    | some n => decide (16 ≤ (d.coma (d.engineOf (core / 32) (hEngine ((d.lc n).desc (cmHdr w))))).queue.length)
    | none => false
  d.issue core w [] [] full false (fun d who =>
    let l := d.lc who.lc
    match firstFail (comaChecks l w cls) with
    | some st => d.complete who st (unitCore core)
    | none =>
      let g := d.engineOf (core / 32) (hEngine (l.desc (cmHdr w)))
      if (d.coma g).retired then d.complete who stPersistent (unitComa g)
      else if (d.coma g).fenced then d.complete who stFenced (unitComa g)
      else
      let c : ComaCmd :=
        { who := who, ord := d.comaOrd, hdr := l.desc (cmHdr w), opa := cmOperand l w 0 (cmOpa w), opb := cmOperand l w 1 (cmOpb w)
          opc := cmOperand l w 2 (cmOpc w) }
      { d with comaOrd := d.comaOrd + 1 }.updComa g (fun e => { e with queue := e.queue ++ [c] }))

/-- GATHER. -/
def doGather (d : Dev) (core : Nat) (w : IWord) : Dev := submitComa d core w 1
/-- SCATTER. -/
def doScatter (d : Dev) (core : Nat) (w : IWord) : Dev := submitComa d core w 2
/-- MERGE. -/
def doMerge (d : Dev) (core : Nat) (w : IWord) : Dev := submitComa d core w 3

/-! Running the head of a queue (R143, R145, R146, R149, R228). -/

/-- What a command did: the state, its status, the fault behind it, and the rows or entries it produced. -/
structure ComaOut where
  dev : Dev
  st : Byte
  fault : Option (Nat × Nat × Int)
  count : Nat

/-- A command completes: it leaves the queue, its status is recorded, and it signals or stops its logical core. -/
def Dev.comaDone (d : Dev) (g : Nat) (c : ComaCmd) (st : Byte) (fault : Option (Nat × Nat × Int)) (count : Nat) : Dev :=
  let d := match fault with
    | some f => d.segFault (.coma g (d.padOf c)) f.1 f.2.1 f.2.2
    | none => d
  let d := d.updComa g (fun e =>
    { e with queue := e.queue.drop 1, feed := none, lastStatus := st, lastOp := BitVec.ofNat 8 (hOp c.hdr), lastCount := count
             cmdError := e.cmdError || decide (0x10 ≤ st.toNat) })
  if stopsLc st then d.complete c.who st (unitComa g) else d.sigOwn (hSigEn c.hdr) c.who (hSigSem c.hdr)

/-- Run the command at the head of an engine's queue when it is of the given OP. A mismatch of the engine's duplicated logic
repeats the command once; a second one completes it with CHECK_FAILED_PERSISTENT (R149, R469 to R471). -/
def runComa (d : Dev) (g op : Nat) (mismatch : Bool) (go : Dev → ComaCmd → ComaOut) : Dev :=
  let e := d.coma g
  match e.queue with
  | [] => d
  | c :: _ =>
    if hOp c.hdr ≠ op || e.fenced || e.retired || d.seqWait g c then d
    else if (d.health.get (unitComa g)).failedOrbit then d.comaDone g c stPersistent none 0
    else if mismatch then
      (if e.pendingRepeat then
        ((d.updComa g (fun e => { e with pendingRepeat := false, parityErr := true })).comaDone g c stPersistent none 0).failUnit
          (unitComa g) 0 c.ord 0
       else d.updComa g (fun e => { e with pendingRepeat := true, parityErr := true }))
    else
      let d := if e.pendingRepeat then
          (d.updComa g (fun e => { e with pendingRepeat := false })).transient (unitComa g) 0 c.ord 0
        else d
      let o := go d c
      o.dev.comaDone g c o.st o.fault o.count

def ComaCmd.a (c : ComaCmd) : View := viewOf (c.opa.getD 0)
def ComaCmd.b (c : ComaCmd) : View := viewOf (c.opb.getD 0)
def ComaCmd.c (c : ComaCmd) : View := viewOf (c.opc.getD 0)

/-- Every operand present starts on a block boundary (R303). -/
def ComaCmd.aligned (c : ComaCmd) : Bool :=
  (c.opa.isNone || alignedUse c.a) && (c.opb.isNone || alignedUse c.b) && (c.opc.isNone || alignedUse c.c)

/-- Bits of source row i as they go to destination row k, with the scale bytes of the blocks; none gives the zero row. -/
def copyRow (d : Dev) (pad : Nat) (s t : View) (i : Option Nat) (k : Nat) : List WItem :=
  ((List.range t.comaLen).map (fun j =>
    let p := t.comaPos k j
    if !allReal t.dims p then []
    else
      let r := match i with
        | some i => readPos d pad s (s.comaPos i j)
        | none => (zeroElem, (0x00 : Byte))
      let e := (t.elemIndex p).toNat
      (if isScaled t.fmt && p.headD 0 % 32 == 0 then [⟨scaleAddr d pad t e, 0xFF, r.2⟩] else []) ++ storeElem d pad t e r.1)).flatten

/-! GATHER_ROWS and GATHER_SEQ (R148, R150, R157). -/

/-- Copy rows one by one; a failing row ends the command, and the rows before it stay written. -/
def gatherLoop (q : Req) (s t : View) (ob : Option View) (poison : Bool) : List (Nat × Nat) → Nat → Dev → ComaOut
  | [], i, d => ⟨d, stDone, none, i⟩
  | (x, pos) :: r, i, d =>
    if x ≠ sentinel ∧ s.comaRows ≤ x then ⟨d, stDesc, none, i⟩
    else
      match (if x = sentinel then none else rowFault d q s false x) with
      | some f => ⟨d, stSegment, some f, i⟩
      | none =>
        match rowFault d q t true i with
        | some f => ⟨d, stSegment, some f, i⟩
        | none =>
          match ob.bind (fun o => regionFault d q o true (4 * i) 4) with
          | some f => ⟨d, stSegment, some f, i⟩
          | none =>
            let items := copyRow d q.pad s t (if x = sentinel then none else some x) i
              ++ (match ob with
                | some o => regionItems d q.pad o (4 * i) 4 pos
                | none => [])
            gatherLoop q s t ob poison r (i + 1) (d.write items poison)

/-- Operands of a copy of rows: native, of one format and one row length, and the destination writable. -/
def rowsOk (s t : View) : Bool := s.layout == 0 && t.layout == 0 && s.fmt == t.fmt && s.comaLen == t.comaLen && t.wr

def gatherCopy (g : Nat) (d : Dev) (c : ComaCmd) : ComaOut :=
  let q : Req := .coma g (d.padOf c)
  let ob := if hOp c.hdr = 0x02 then c.opb.map viewOf else none
  if hCount c.hdr = 0 then ⟨d, stSkips, none, 0⟩
  else if !c.aligned || !rowsOk c.a c.c || (match ob with
      | some o => !o.wr
      | none => false) then ⟨d, stDesc, none, 0⟩
  else
    match gatherIndices d q (g / 8) c with
    | .error f => ⟨d, f.1, f.2, 0⟩
    | .ok l =>
      let t := d.touch (gatherAddrs d g c l)
      gatherLoop q c.a c.c ob t.2 l 0 t.1

/-- The engine forms the entries of a FEED command that a STREAM has taken (R145, R151, R153). -/
def formFeed (d : Dev) (g : Nat) (mismatch : Bool) : Dev :=
  let e := d.coma g
  match e.queue, e.feed with
  | c :: _, some f =>
    if f.formed || e.fenced || e.retired then d
    else if mismatch then
      (if e.pendingRepeat then
        ((d.updComa g (fun e => { e with pendingRepeat := false, parityErr := true })).comaDone g c stPersistent none 0).failUnit
          (unitComa g) 0 c.ord 0
       else d.updComa g (fun e => { e with pendingRepeat := true, parityErr := true }))
    else
      let d := if e.pendingRepeat then
          (d.updComa g (fun e => { e with pendingRepeat := false })).transient (unitComa g) 0 c.ord 0
        else d
      let core := 32 * (g / 8) + 24 + g % 8
      (feedOut (feedIn (d.updComa g (fun e => { e with feed := some { f with formed := true } })) core) core).after core
  | _, _ => d

/-- The head of an engine's queue is a FEED command. -/
def Dev.headFeeds (d : Dev) (g : Nat) : Bool :=
  match (d.coma g).queue with
  | c :: _ => hFeed c.hdr
  | [] => false

/-- GATHER_ROWS. -/
def doGatherRows (d : Dev) (g : Nat) (mismatch : Bool) : Dev :=
  if d.headFeeds g then (match (d.coma g).queue with
    | c :: _ => if hOp c.hdr = 0x01 then formFeed d g mismatch else d
    | [] => d)
  else runComa d g 0x01 mismatch (gatherCopy g)

/-- GATHER_SEQ. -/
def doGatherSeq (d : Dev) (g : Nat) (mismatch : Bool) : Dev :=
  if d.headFeeds g then (match (d.coma g).queue with
    | c :: _ => if hOp c.hdr = 0x02 then formFeed d g mismatch else d
    | [] => d)
  else runComa d g 0x02 mismatch (gatherCopy g)

/-! ROUTE (R159 to R161, R593). -/

/-- Score a ranks below score b. -/
def scoreLt (a b : W32) : Bool :=
  if isNan32 a then !isNan32 b else if isNan32 b then false else (f32 a).lt (f32 b)

/-- The expert with the largest score, the lowest on a tie. -/
def bestScore : List (Nat × W32) → Option (Nat × W32)
  | [] => none
  | a :: r =>
    match bestScore r with
    | none => some a
    | some b => if scoreLt a.2 b.2 then some b else some a

/-- The k largest in descending order. -/
def topScores : Nat → List (Nat × W32) → List (Nat × W32)
  | 0, _ => []
  | k + 1, l =>
    match bestScore l with
    | none => []
    | some b => b :: topScores k (l.filter (fun x => x.1 != b.1))

/-- Gate of each chosen score (R160). -/
def gatesOf (norm : Bool) (l : List W32) : List W32 :=
  if norm then
    let sum := match l with
      | [] => (0 : W32)
      | a :: r => r.foldl addF32 a
    l.map (fun s => to32 ((f32 s).div 32 (f32 sum)))
  else l

/-- A claim: expert, score, gate, slot, token. -/
structure Claim where
  expert : Nat
  score : W32
  gate : W32
  slot : Nat
  token : Nat
deriving DecidableEq, Repr

/-- The lists and drop counts after claims in order. -/
def makeClaims (cap : Nat) : List Claim → Bank (List Nat) × Bank Nat → Bank (List Nat) × Bank Nat
  | [], acc => acc
  | c :: r, (lists, drops) =>
    if isNan32 c.score ∨ cap ≤ (lists.get c.expert).length then makeClaims cap r (lists, drops.upd c.expert (· + 1))
    else makeClaims cap r (lists.upd c.expert (· ++ [c.gate.toNat * 2 ^ 32 + c.slot * 2 ^ 29 + c.token % 2 ^ 24]), drops)

/-- Choices of one token: (expert, score, gate) by slot. -/
def tokenChoices (d : Dev) (pad : Nat) (v : View) (h : Desc) (t : Nat) : List (Nat × W32 × W32) :=
  let l := topScores (hTopk h) ((List.range (hExperts h)).map (fun e => (e, BitVec.ofNat 32 (readPos d pad v (v.posOf t e)).1)))
  let g := gatesOf (hNorm h) (l.map (·.2))
  (List.range l.length).map (fun j => ((l.getD j (0, 0)).1, (l.getD j (0, 0)).2, g.getD j 0))

/-- Claims in slot-major order. -/
def routeClaims (d : Dev) (pad : Nat) (v : View) (h : Desc) : List Claim :=
  let ch := (List.range (hCount h)).map (fun t => (t, tokenChoices d pad v h t))
  ((List.range (hTopk h)).map (fun j => ch.map (fun c =>
    let x := c.2.getD j (0, 0, 0)
    (⟨x.1, x.2.1, x.2.2, j, c.1⟩ : Claim)))).flatten

def routeStride (cap : Nat) : Nat := (8 + 8 * cap + 127) / 128 * 128

/-- Bytes of a region. -/
def viewBytes (d : Dev) (v : View) : Nat :=
  match viewRuns d v with
  | r :: _ => r.2.2
  | [] => 0

/-- The route lists as writes (R161, Tables 5-5 and 5-6). -/
def routeItems (d : Dev) (pad : Nat) (v : View) (cap : Nat) (r : Bank (List Nat) × Bank Nat) : Nat → List WItem
  | 0 => []
  | n + 1 =>
    let l := r.1.get n
    routeItems d pad v cap r n ++ regionItems d pad v (n * routeStride cap) 8 (r.2.get n * 2 ^ 32 + l.length)
      ++ ((List.range l.length).map (fun i => regionItems d pad v (n * routeStride cap + 8 + 8 * i) 8 (l.getD i 0))).flatten

def routeCmd (g : Nat) (d : Dev) (c : ComaCmd) : ComaOut :=
  let h := c.hdr
  let q : Req := .coma g (d.padOf c)
  let need := hExperts h * routeStride (hCapacity h)
  if hCount h = 0 then ⟨d, stSkips, none, 0⟩
  else if hExperts h < 1 ∨ 256 < hExperts h ∨ hTopk h < 1 ∨ 8 < hTopk h ∨ hCapacity h < 1 ∨ hExperts h < hTopk h ∨ c.a.fmt ≠ 0
      ∨ c.a.layout ≠ 0 ∨ c.a.inner ≠ hExperts h ∨ c.a.rows < hCount h ∨ viewBytes d c.c < need ∨ !c.c.wr ∨ !c.aligned then
    ⟨d, stDesc, none, 0⟩
  else
    match viewFault d q c.a false with
    | some f => ⟨d, stSegment, some f, 0⟩
    | none =>
      match regionFault d q c.c true 0 need with
      | some f => ⟨d, stSegment, some f, 0⟩
      | none =>
        let t := d.touch (((List.range (hCount h)).map (fun i =>
          ((List.range (hExperts h)).map (fun e => readAddrs d q.pad c.a (c.a.posOf i e))).flatten)).flatten)
        let r := makeClaims (hCapacity h) (routeClaims t.1 q.pad c.a h) (Bank.const [], Bank.const 0)
        let drops := r.2.cells.foldl (fun a x => a + x.2) 0
        let d := t.1.write (routeItems t.1 q.pad c.c (hCapacity h) r (hExperts h)) t.2
        let d := d.updComa g (fun e => { e with routeDrops := satAdd 0xFFFFFFFF e.routeDrops drops })
        ⟨d, if drops = 0 then stDone else stSkips, none, r.1.cells.foldl (fun a x => a + x.2.length) 0⟩

/-- ROUTE. -/
def doRoute (d : Dev) (g : Nat) (mismatch : Bool) : Dev := runComa d g 0x04 mismatch (routeCmd g)

/-! SEQLOAD (R155, R156). -/

/-- Entries with a reserved bit, with START + LENGTH beyond 2^24, or overlapping a later valid one. -/
def seqBad : List (BitVec 128) → Bool
  | [] => false
  | e :: r =>
    bitsOf e 95 64 != 0 || bitsOf e 62 44 != 0 || (seqValid e && (decide (2 ^ 24 < seqStart e + seqLen e)
      || r.any (fun o => seqValid o && decide (seqStart e < seqStart o + seqLen o) && decide (seqStart o < seqStart e + seqLen e))))
    || seqBad r

def seqloadCmd (g : Nat) (d : Dev) (c : ComaCmd) : ComaOut :=
  let q : Req := .coma g (d.padOf c)
  if !c.aligned then ⟨d, stDesc, none, 0⟩
  else
    match regionFault d q c.a false 0 32768 with
    | some f => ⟨d, stSegment, some f, 0⟩
    | none =>
      let t := d.touch (regionAddrs d q.pad c.a 0 32768)
      let l := (List.range 2048).map (fun i => BitVec.ofNat 128 (regionNum t.1 q.pad c.a (16 * i) 16))
      if seqBad l then ⟨t.1, stDesc, none, 0⟩
      else ⟨t.1.updDie (g / 8) (fun k => { k with seqTable := (Bank.const 0).putList 0 l }), stDone, none, 2048⟩

/-- SEQLOAD. -/
def doSeqload (d : Dev) (g : Nat) (mismatch : Bool) : Dev := runComa d g 0x05 mismatch (seqloadCmd g)

/-! SCATTER_ROWS and SCATTER_SLOT (R162, R163). -/

/-- The first offending entry decides: (key, beyond); none where every entry may be written. -/
def offending : List Nat → List (Nat × Bool) → Option Byte
  | _, [] => none
  | seen, (k, beyond) :: r =>
    if k = sentinel then offending seen r
    else if beyond then some stDesc
    else if seen.contains k then some stAlias
    else offending (k :: seen) r

def scatterLoop (q : Req) (s t : View) (poison : Bool) : List (Nat × Nat) → Nat → Dev → ComaOut
  | [], i, d => ⟨d, stDone, none, i⟩
  | (x, _) :: r, i, d =>
    if x = sentinel then scatterLoop q s t poison r (i + 1) d
    else
      match rowFault d q s false i with
      | some f => ⟨d, stSegment, some f, i⟩
      | none =>
        match rowFault d q t true x with
        | some f => ⟨d, stSegment, some f, i⟩
        | none => scatterLoop q s t poison r (i + 1) (d.write (copyRow d q.pad s t (some i) x) poison)

/-- Addresses of the first n rows of a source. -/
def rowsAddrs (d : Dev) (pad : Nat) (v : View) (n : Nat) : List Nat :=
  ((List.range n).map (fun i => ((List.range v.comaLen).map (fun j => readAddrs d pad v (v.comaPos i j))).flatten)).flatten

def scatterRows (g : Nat) (d : Dev) (c : ComaCmd) : ComaOut :=
  let q : Req := .coma g (d.padOf c)
  if hCount c.hdr = 0 then ⟨d, stSkips, none, 0⟩
  else if !c.aligned || !rowsOk c.a c.c then ⟨d, stDesc, none, 0⟩
  else
    match readList d q c.b c.hdr with
    | .error f => ⟨d, f.1, f.2, 0⟩
    | .ok l =>
      match offending [] (l.map (fun e => (e.1, decide (c.c.comaRows ≤ e.1)))) with
      | some st => ⟨d, st, none, 0⟩
      | none =>
        let t := d.touch (listAddrs d q.pad c.b c.hdr ++ rowsAddrs d q.pad c.a l.length)
        scatterLoop q c.a c.c t.2 l 0 t.1

/-- SCATTER_ROWS. -/
def doScatterRows (d : Dev) (g : Nat) (mismatch : Bool) : Dev := runComa d g 0x11 mismatch (scatterRows g)

/-- Position in a slot buffer of element x of a slot of a token row. -/
def slotPos (x slot token : Nat) : List Nat := [x, slot, token]

/-- A slot buffer of FP32 with SLOTS slots (Table 5-1). -/
def slotBuf (v : View) (slots : Nat) : Bool :=
  v.fmt == 0 && v.layout == 0 && v.wr && v.rank == 3 && v.shape.getD 1 0 == slots && decide (1 ≤ slots) && decide (slots ≤ 8)

def slotLoop (q : Req) (s t : View) (poison : Bool) : List (Nat × Nat) → Nat → Dev → ComaOut
  | [], i, d => ⟨d, stDone, none, i⟩
  | (tok, e) :: r, i, d =>
    match rowFault d q s false i with
    | some f => ⟨d, stSegment, some f, i⟩
    | none =>
      match rowFault d q t true tok with
      | some f => ⟨d, stSegment, some f, i⟩
      | none =>
        let vals := (List.range s.comaLen).map (fun x =>
          (slotPos x (e / 2 ^ 29 % 8) tok, f32 (mulF32 (BitVec.ofNat 32 (e / 2 ^ 32)) (BitVec.ofNat 32 (readPos d q.pad s (s.comaPos i x)).1))))
        slotLoop q s t poison r (i + 1) (d.write (storeVals d q.pad t (realVals t vals)).1 poison)

def scatterSlot (g : Nat) (d : Dev) (c : ComaCmd) : ComaOut :=
  let q : Req := .coma g (d.padOf c)
  let h := c.hdr
  if hCount h = 0 then ⟨d, stSkips, none, 0⟩
  else if !c.aligned || c.a.fmt != 0 || c.a.layout != 0 || !slotBuf c.c (hSlots h) || c.a.comaLen != c.c.inner then ⟨d, stDesc, none, 0⟩
  else
    match readList d q c.b h with
    | .error f => ⟨d, f.1, f.2, 0⟩
    | .ok l =>
      match offending [] (l.map (fun e => (8 * e.1 + e.2 / 2 ^ 29 % 8, decide (hSlots h ≤ e.2 / 2 ^ 29 % 8) || decide (c.c.comaRows ≤ e.1)))) with
      | some st => ⟨d, st, none, 0⟩
      | none =>
        let t := d.touch (listAddrs d q.pad c.b h ++ rowsAddrs d q.pad c.a l.length)
        slotLoop q c.a c.c t.2 l 0 t.1

/-- SCATTER_SLOT. -/
def doScatterSlot (d : Dev) (g : Nat) (mismatch : Bool) : Dev := runComa d g 0x12 mismatch (scatterSlot g)

/-! SLOTSUM (R164). -/

/-- Sum of the slots of one element. -/
def slotSumAt (d : Dev) (pad : Nat) (v : View) (slots tok x : Nat) : W32 :=
  let at_ (s : Nat) : W32 := BitVec.ofNat 32 (readPos d pad v (slotPos x s tok)).1
  (List.range (slots - 1)).foldl (fun acc s => addF32 acc (at_ (s + 1))) (at_ 0)

def slotsumLoop (q : Req) (s t : View) (slots : Nat) (poison : Bool) : Nat → Nat → Dev → ComaOut
  | 0, i, d => ⟨d, stDone, none, i⟩
  | n + 1, i, d =>
    match rowFault d q s true i with
    | some f => ⟨d, stSegment, some f, i⟩
    | none =>
      match rowFault d q t true i with
      | some f => ⟨d, stSegment, some f, i⟩
      | none =>
        let vals := (List.range t.comaLen).map (fun x => (t.comaPos i x, f32 (slotSumAt d q.pad s slots i x)))
        let zeros := ((List.range slots).map (fun k => (List.range s.inner).map (fun x => (slotPos x k i, FVal.fin false 0 0)))).flatten
        let d' := d.write (storeVals d q.pad t (realVals t vals)).1 poison
        slotsumLoop q s t slots poison n (i + 1) (d'.write (storeVals d' q.pad s (realVals s zeros)).1 poison)

def slotsumCmd (g : Nat) (d : Dev) (c : ComaCmd) : ComaOut :=
  let q : Req := .coma g (d.padOf c)
  let h := c.hdr
  if hCount h = 0 then ⟨d, stSkips, none, 0⟩
  else if !c.aligned || !slotBuf c.a (hSlots h) || c.c.layout != 0 || !c.c.wr || c.c.comaLen != c.a.inner || decide (c.a.comaRows < hCount h) then
    ⟨d, stDesc, none, 0⟩
  else
    let t := d.touch (rowsAddrs d q.pad c.a (hCount h))
    slotsumLoop q c.a c.c (hSlots h) t.2 (hCount h) 0 t.1

/-- SLOTSUM. -/
def doSlotsum (d : Dev) (g : Nat) (mismatch : Bool) : Dev := runComa d g 0x23 mismatch (slotsumCmd g)

/-! Column selections (R132, R133, R165, R166). -/

/-- Column n is selected. -/
def selected (d : Dev) (pad : Nat) (v : View) (n : Nat) : Bool := (regionNum d pad v (n / 8) 1).testBit (n % 8)

/-- Selected columns below COUNT in ascending order. -/
def selection (d : Dev) (pad : Nat) (v : View) (count : Nat) : List Nat := (List.range count).filter (selected d pad v)

def selAddrs (d : Dev) (pad : Nat) (v : View) (count : Nat) : List Nat := regionAddrs d pad v 0 ((count + 7) / 8)

/-- Values of a packed tile's columns in order: (occupancy word, values) per column (R111 to R116, R165). -/
def packCols (d : Dev) (pad : Nat) (w : View) (kt : Nat) : List Nat → List (Nat × List Nat)
  | [] => []
  | n :: r =>
    let slot := tileSlot w n kt
    let bits := tileBits d pad w slot (n % 512)
    let before := (List.range (n % 512)).foldl (fun a i => a + (occupied (tileBits d pad w slot i)).length) 0
    (bits, (List.range (occupied bits).length).map (fun i => tileValue d pad w slot (before + i))) :: packCols d pad w kt r

/-- Residue entries of a column: occupied rows beyond the first of each group of four (R119, R121). -/
def colResidue (bits : Nat) : Nat :=
  let occ := occupied bits
  occ.length - (List.range 128).foldl (fun a p => a + (if occ.any (fun r => r % 128 == p) then 1 else 0)) 0

/-- Value bytes of a tile object: (byte offset, byte) (R114, R115). -/
def valueBytes (f : Nat) (vals : List Nat) : List (Nat × Byte) :=
  let w := fmtBits f
  if w = 8 then (List.range ((vals.length + 127) / 128 * 128)).map (fun i => (i, BitVec.ofNat 8 (vals.getD i 0)))
  else if w = 16 then
    (List.range ((vals.length + 63) / 64 * 128)).map (fun i => (i, BitVec.ofNat 8 (vals.getD (i / 2) 0 / 256 ^ (i % 2))))
  else
    (List.range (128 * w * ((vals.length + 1023) / 1024))).map (fun i =>
      let grp := i / (128 * w)
      let plane := i % (128 * w) / 128
      let base := 1024 * grp + 8 * (i % 128)
      (i, BitVec.ofNat 8 ((List.range 8).foldl (fun a b => a + (vals.getD (base + b) 0 / 2 ^ plane % 2) * 2 ^ b) 0)))

/-- A whole tile object as a write into a slot. -/
def tileItems (d : Dev) (pad : Nat) (t : View) (slot : Nat) (cols : List (Nat × List Nat)) : List WItem :=
  let at_ (o : Nat) : Nat := tileAddr d pad t slot o
  let num (o n x : Nat) : List WItem := (List.range n).map (fun i => ⟨at_ (o + i), 0xFF, BitVec.ofNat 8 (x / 256 ^ i)⟩)
  let vals := (cols.map (·.2)).flatten
  num 0 4 (0x100 + t.fmt) ++ num 4 4 vals.length ++ num 8 4 ((cols.map (fun c => colResidue c.1)).foldl (· + ·) 0) ++ num 12 116 0
    ++ ((List.range 512).map (fun n => num (128 + 64 * n) 64 (cols.getD n (0, [])).1)).flatten
    ++ (valueBytes t.fmt vals).map (fun b => ⟨at_ (32896 + b.1), 0xFF, b.2⟩)

def tileBytes (f n : Nat) : Nat := 32896 + (valueBytes f (List.replicate n 0)).length

/-- The packed tiles of a compressed source: false where one does not fit its slot. -/
def packTiles (d : Dev) (pad : Nat) (s t : View) (sel : List Nat) : Bool × List WItem :=
  let kts := ((s.dims.headD ⟨0, 0, 0, 0⟩).ext + 511) / 512
  let tiles := ((List.range ((sel.length + 511) / 512)).map (fun j => (List.range kts).map (fun kt => (j, kt)))).flatten
  let out := tiles.map (fun x =>
    let ns := (sel.drop (512 * x.1)).take 512
    let cols := packCols d pad s x.2 ns
    let slot := tileSlot t (512 * x.1) x.2
    let fits := tileBytes t.fmt ((cols.map (fun c => c.2.length)).foldl (· + ·) 0) ≤ 128 * trSlot (d.plan.trecs.get t.trec)
    let scales := if isScaled t.fmt then ((List.range 512).map (fun n => (List.range 16).map (fun b =>
        (⟨tileScaleAddr d pad t slot n b, 0xFF, match ns[n]? with
          | some m => memGet d.ms.mem (tileScaleAddr d pad s (tileSlot s m x.2) (m % 512) b)
          | none => 0x00⟩ : WItem)))).flatten else []
    (decide fits, tileItems d pad t slot cols ++ scales))
  (out.all (·.1), (out.map (·.2)).flatten)

/-- Every source tile under a selection has a sound header (Table 4-5). -/
def packSound (d : Dev) (pad : Nat) (s : View) (sel : List Nat) : Bool :=
  let kts := ((s.dims.headD ⟨0, 0, 0, 0⟩).ext + 511) / 512
  sel.all (fun n => (List.range kts).all (fun kt =>
    let slot := tileSlot s n kt
    tileHeaderOk d pad s slot && tileFormat d pad s slot == s.fmt))

def gatherCols (g : Nat) (d : Dev) (c : ComaCmd) : ComaOut :=
  let q : Req := .coma g (d.padOf c)
  let h := c.hdr
  let s := c.a
  let t := c.c
  let cols := (s.dims.getD 1 ⟨1, 0, 0, 0⟩).view
  if hCount h = 0 then ⟨d, stSkips, none, 0⟩
  else if !c.aligned || s.fmt != t.fmt || s.layout != t.layout || s.layout == 1 || s.rank != 2 || t.rank != 2 || !t.wr
      || decide (cols < hCount h) || s.inner != t.inner then ⟨d, stDesc, none, 0⟩
  else
    match regionFault d q c.b false 0 ((hCount h + 7) / 8) with
    | some f => ⟨d, stSegment, some f, 0⟩
    | none =>
      match viewFault d q s false with
      | some f => ⟨d, stSegment, some f, 0⟩
      | none =>
        match viewFault d q t true with
        | some f => ⟨d, stSegment, some f, 0⟩
        | none =>
          let sel := selection d q.pad c.b (hCount h)
          if s.layout = 2 then
            if !packSound d q.pad s sel then ⟨d, stDesc, none, 0⟩
            else
              let x := d.touch (selAddrs d q.pad c.b (hCount h) ++ (sel.map (fun n => tileColAddrs d q.pad s n s.inner)).flatten)
              let p := packTiles x.1 q.pad s t sel
              if p.1 then ⟨x.1.write p.2 x.2, stDone, none, sel.length⟩ else ⟨x.1, stDesc, none, 0⟩
          else
            let x := d.touch (selAddrs d q.pad c.b (hCount h) ++ (sel.map (fun n =>
              ((List.range s.comaLen).map (fun j => readAddrs d q.pad s (s.comaPos n j))).flatten)).flatten)
            let full := (sel.length + 511) / 512 * 512
            let items := ((List.range full).map (fun j => copyRow x.1 q.pad s t sel[j]? j)).flatten
            ⟨x.1.write items x.2, stDone, none, sel.length⟩

/-- GATHER_COLS. -/
def doGatherCols (d : Dev) (g : Nat) (mismatch : Bool) : Dev := runComa d g 0x03 mismatch (gatherCols g)

def scatterCols (g : Nat) (d : Dev) (c : ComaCmd) : ComaOut :=
  let q : Req := .coma g (d.padOf c)
  let h := c.hdr
  let s := c.a
  let t := c.c
  if hCount h = 0 then ⟨d, stSkips, none, 0⟩
  else if !c.aligned || s.fmt != 0 || s.layout != 0 || t.layout != 0 || !t.wr || s.rows != t.rows || decide (t.inner < hCount h) then
    ⟨d, stDesc, none, 0⟩
  else
    match regionFault d q c.b false 0 ((hCount h + 7) / 8) with
    | some f => ⟨d, stSegment, some f, 0⟩
    | none =>
      match viewFault d q s false with
      | some f => ⟨d, stSegment, some f, 0⟩
      | none =>
        match viewFault d q t true with
        | some f => ⟨d, stSegment, some f, 0⟩
        | none =>
          let sel := selection d q.pad c.b (hCount h)
          let x := d.touch (selAddrs d q.pad c.b (hCount h) ++ ((List.range s.rows).map (fun m =>
            ((List.range sel.length).map (fun j => readAddrs d q.pad s (s.posOf m j))).flatten)).flatten)
          let vals := ((List.range t.rows).map (fun m => (List.range (hCount h)).map (fun n =>
            (t.posOf m n, if selected x.1 q.pad c.b n then
                f32 (BitVec.ofNat 32 (readPos x.1 q.pad s (s.posOf m (sel.filter (· < n)).length)).1)
              else FVal.fin false 0 0)))).flatten
          ⟨x.1.write (storeVals x.1 q.pad t (realVals t vals)).1 x.2, stDone, none, sel.length⟩

/-- SCATTER_COLS. -/
def doScatterCols (d : Dev) (g : Nat) (mismatch : Bool) : Dev := runComa d g 0x13 mismatch (scatterCols g)

/-! Merge bindings (R167, R168). -/

/-- Physical core that CORE of a header names (R211). -/
def Dev.boundCore (d : Dev) (die : Nat) (h : Desc) : Nat := (d.lc (128 * die + hCore h)).phys

def storeUsed (l : List Binding) : Nat := l.foldl (fun a b => a + 2 * b.share) 0

def mergeBind (g : Nat) (d : Dev) (c : ComaCmd) : ComaOut :=
  let e := d.coma g
  let p := d.boundCore (g / 8) c.hdr
  let twice := (List.range 8).any (fun j => (d.coma (8 * (g / 8) + j)).bindings.any (fun b => b.core == p))
  if 4 ≤ e.bindings.length ∨ 131072 < storeUsed e.bindings + 2 * hShare c.hdr ∨ 65536 < hShare c.hdr ∨ twice then ⟨d, stDesc, none, 0⟩
  else ⟨d.updComa g (fun e => { e with bindings := e.bindings ++ [⟨p, hShare c.hdr, none, none⟩] }), stDone, none, 0⟩

/-- MERGE_BIND. -/
def doMergeBind (d : Dev) (g : Nat) (mismatch : Bool) : Dev := runComa d g 0x21 mismatch (mergeBind g)

def mergeUnbind (g : Nat) (d : Dev) (c : ComaCmd) : ComaOut :=
  let p := d.boundCore (g / 8) c.hdr
  ⟨d.updComa g (fun e => { e with bindings := e.bindings.filter (fun b => b.core != p) }), stDone, none, 0⟩

/-- MERGE_UNBIND: it takes effect once the bound core has no step in flight. -/
def doMergeUnbind (d : Dev) (g : Nat) (mismatch : Bool) : Dev :=
  match (d.coma g).queue with
  | [] => d
  | c :: _ => if (d.core (d.boundCore (g / 8) c.hdr)).steps.isEmpty then runComa d g 0x22 mismatch (mergeUnbind g) else d

/-! The audit (R135 to R139, R171 to R173). -/

/-- Segments of tier 1 that hold a run of bytes at a tier address. -/
def tierSegs (d : Dev) (a n : Nat) : List Nat :=
  (d.segs.cells.filter (fun s => segValid s.2 && segTier s.2 == 2 && decide (128 * segBase s.2 ≤ a)
    && decide (a + n ≤ 128 * (segBase s.2 + segLimit s.2)))).map (·.1)

/-- A parameter address is a tier-1 address; it passes the segment table when a segment that holds it permits the access. -/
def paramFault (d : Dev) (q : Req) (wr : Bool) (a n : Nat) : Option (Nat × Nat × Int) :=
  match tierSegs d a n with
  | [] => some (0, 1, a)
  | s :: r =>
    let chk (s : Nat) := segCheck d q s (!wr) wr ((a : Int) - 128 * segBase (d.segs.get s)) n
    if (s :: r).any (fun s => (chk s).isNone) then none else (chk s).map (fun f => (s, f.1, f.2))

def paramAddrs (a n : Nat) : List Nat := (List.range n).map (fun i => t1Base + a + i)
def paramNum (d : Dev) (a n : Nat) : Nat := memRead d.ms.mem (t1Base + a) n

/-- Audit parameter block (Table 5-8). -/
structure AuditParams where
  seed : W64
  tid : Nat
  enabled : Bool
  abs : Bool
  shift : Nat
  theta : W32
  base : Nat
  record : Nat
  bias : Nat
  tscale : Nat
  passRows : Nat
  chunkRows : Nat
  reserved : Bool
deriving DecidableEq, Repr

def auditParams (d : Dev) (a : Nat) : AuditParams :=
  let w1 := paramNum d (a + 8) 4
  let w4 := paramNum d (a + 48) 4
  { seed := BitVec.ofNat 64 (paramNum d a 8), tid := w1 / 256, enabled := w1.testBit 7, abs := w1.testBit 6, shift := w1 % 32
    theta := BitVec.ofNat 32 (paramNum d (a + 12) 4), base := paramNum d (a + 16) 8 % 2 ^ 40, record := paramNum d (a + 24) 8
    bias := paramNum d (a + 32) 8, tscale := paramNum d (a + 40) 8, passRows := w4 % 4, chunkRows := paramNum d (a + 52) 4
    reserved := w1.testBit 5 || paramNum d (a + 16) 8 / 2 ^ 40 != 0 || w4 / 4 != 0 || paramNum d (a + 56) 8 != 0 }

def AuditParams.rows (p : AuditParams) : Nat := 128 * 2 ^ p.passRows

/-- Sampled (R136). -/
def AuditParams.sampled (p : AuditParams) (n : Nat) : Bool := decide (srDraw p.seed p.tid (p.base + n) < 2 ^ (16 - p.shift))

/-- The value after stage 2 of the drain for column n and vector m (R137, R172). -/
def auditValue (d : Dev) (pad : Nat) (p : AuditParams) (w x : View) (n m : Nat) : W32 :=
  let k := w.inner
  let kt := (k + p.rows - 1) / p.rows
  let pair (i : Nat) : W32 :=
    let a := p.tscale + 8 * (n / 512 * kt + i)
    tileT (BitVec.ofNat 32 (paramNum d a 4)) (BitVec.ofNat 32 (paramNum d (a + 4) 4))
  let y := dotAll d pad w x n m p.rows k p.chunkRows pair
  if p.bias = 0 then y else addF32 y (BitVec.ofNat 32 (paramNum d (p.bias + 4 * n) 4))

/-- A hit (R137). -/
def AuditParams.hit (p : AuditParams) (y : W32) : Bool :=
  isNan32 y || (f32 p.theta).lt (if p.abs then (f32 y).abs else f32 y)

/-- Counts of one column of one batch: skipped, sampled, pairs, hits, columns hit. -/
def auditColumn (d : Dev) (pad : Nat) (p : AuditParams) (sel w x : View) (n : Nat) : Nat × Nat × Nat × Nat × Nat :=
  if selected d pad sel n then (0, 0, 0, 0, 0)
  else if !p.sampled n then (1, 0, 0, 0, 0)
  else
    let hits := ((List.range x.rows).filter (fun m => p.hit (auditValue d pad p w x n m))).length
    (1, 1, x.rows, hits, if hits = 0 then 0 else 1)

def AuditSlot.add (s : AuditSlot) (c : Nat × Nat × Nat × Nat × Nat) : AuditSlot :=
  { skipped := satAdd 0xFFFFFFFF s.skipped c.1, sampled := satAdd 0xFFFFFFFF s.sampled c.2.1, pairs := satAdd 0xFFFFFFFF s.pairs c.2.2.1
    hits := satAdd 0xFFFFFFFF s.hits c.2.2.2.1, colsHit := satAdd 0xFFFFFFFF s.colsHit c.2.2.2.2 }

/-- Parameter runs that an audited column reads. -/
def auditRuns (p : AuditParams) (k cols : Nat) : List (Nat × Nat) :=
  let kt := (k + p.rows - 1) / p.rows
  [(p.tscale, 8 * (kt * ((cols + 511) / 512)))] ++ (if p.bias = 0 then [] else [(p.bias, 4 * cols)])

def auditCmd (g : Nat) (d : Dev) (c : ComaCmd) : ComaOut :=
  let q : Req := .coma g (d.padOf c)
  let h := c.hdr
  let a := hParam h
  let w := c.a
  let x := c.c
  let last := hColFirst h + hColCount h
  match paramFault d q false a 64 with
  | some f => ⟨d, stSegment, some f, 0⟩
  | none =>
    let p := auditParams d a
    if a % 64 ≠ 0 ∨ p.reserved ∨ 16 < p.shift then ⟨d, stDesc, none, 0⟩
    else if !p.enabled then ⟨d, stDone, none, 0⟩
    else if !c.aligned || !((isScaled w.fmt && isScaled x.fmt) || (is16 w.fmt && is16 x.fmt)) || w.layout == 1 || x.layout != 0
        || decide ((w.dims.getD 1 ⟨1, 0, 0, 0⟩).view < last) || p.passRows == 3 || (w.layout == 2) != (p.passRows == 2)
        || p.chunkRows % p.rows != 0 then ⟨d, stDesc, none, 0⟩
    else
      match viewFault d q w false with
      | some f => ⟨d, stSegment, some f, 0⟩
      | none =>
        match viewFault d q x false with
        | some f => ⟨d, stSegment, some f, 0⟩
        | none =>
          match regionFault d q c.b false 0 ((last + 7) / 8) with
          | some f => ⟨d, stSegment, some f, 0⟩
          | none =>
            match (auditRuns p w.inner last).findSome? (fun r => paramFault d q false r.1 r.2) with
            | some f => ⟨d, stSegment, some f, 0⟩
            | none =>
              let cols := (List.range (hColCount h)).map (hColFirst h + ·)
              let hit := cols.filter (fun n => !selected d q.pad c.b n && p.sampled n)
              let t := d.touch (paramAddrs a 64 ++ selAddrs d q.pad c.b last ++ (hit.map (fun n =>
                ((List.range x.rows).map (fun m => dotAddrs d q.pad w x n m w.inner)).flatten)).flatten)
              let counts := cols.map (auditColumn t.1 q.pad p c.b w x)
              let d := t.1.updDie (g / 8) (fun k => { k with slots := counts.foldl (fun b n => b.upd (hAuditSlot h) (·.add n)) k.slots })
              let d := d.updComa g (fun e => { e with
                auditPairs := satAdd 0xFFFFFFFF e.auditPairs ((counts.map (·.2.2.1)).foldl (· + ·) 0)
                auditHits := satAdd 0xFFFFFFFF e.auditHits ((counts.map (·.2.2.2.1)).foldl (· + ·) 0) })
              ⟨d, stDone, none, hit.length⟩

/-- AUDIT. -/
def doAudit (d : Dev) (g : Nat) (mismatch : Bool) : Dev := runComa d g 0x24 mismatch (auditCmd g)

def AuditSlot.zero : AuditSlot := ⟨0, 0, 0, 0, 0⟩

/-- Sum of a slot over the four dies. -/
def slotTotal (d : Dev) (i : Nat) : AuditSlot :=
  (List.range 4).foldl (fun s k => let x := (d.die k).slots.get i; s.add (x.skipped, x.sampled, x.pairs, x.hits, x.colsHit)) AuditSlot.zero

/-- Audit record (Table 4-8). -/
def auditRecord (p : AuditParams) (s : AuditSlot) (orbit : Nat) : Nat :=
  s.skipped + 2 ^ 32 * s.sampled + 2 ^ 64 * s.pairs + 2 ^ 96 * s.hits + 2 ^ 128 * s.colsHit + 2 ^ 160 * p.theta.toNat
    + 2 ^ 192 * (orbit % 2 ^ 32) + 2 ^ 224 * ((if p.abs then 2 ^ 24 else 0) + p.shift * 65536 + p.tid % 65536)

def auditClose (g : Nat) (d : Dev) (c : ComaCmd) : ComaOut :=
  let q : Req := .coma g (d.padOf c)
  let a := hParam c.hdr
  let i := hAuditSlot c.hdr
  match paramFault d q false a 64 with
  | some f => ⟨d, stSegment, some f, 0⟩
  | none =>
    let p := auditParams d a
    if a % 64 ≠ 0 ∨ p.reserved ∨ 16 < p.shift then ⟨d, stDesc, none, 0⟩
    else if !p.enabled then ⟨d, stDone, none, 0⟩
    else if p.record % 32 ≠ 0 then ⟨d, stDesc, none, 0⟩
    else
      match paramFault d q true p.record 32 with
      | some f => ⟨d, stSegment, some f, 0⟩
      | none =>
        let t := d.touch (paramAddrs a 64)
        let d := t.1.write (wBytes (t1Base + p.record) 32 (auditRecord p (slotTotal t.1 i) c.who.orbit)) t.2
        ⟨(List.range 4).foldl (fun d k => d.updDie k (fun k => { k with slots := k.slots.set i AuditSlot.zero })) d, stDone, none, 1⟩

/-- AUDIT_CLOSE. -/
def doAuditClose (d : Dev) (g : Nat) (mismatch : Bool) : Dev := runComa d g 0x25 mismatch (auditClose g)

end Sys2Proof.Machine
end

