-- ==== Sys2Proof/Machine/Crypto.lean ====
section
/-! DEFINITION. The published algorithms that the spec names: SHA-384, HMAC and HKDF (RFC 5869) over it, CRC-32 with the IEEE
802.3 polynomial, AES-256-GCM, and ECDSA and ECDH on P-384 (R335, R407, R476, R545, R546, R550 to R556). They are taken from
their own standards, which the spec names and does not restate: PRESUMED. -/
namespace Sys2Proof.Machine

/-! Bytes. -/

/-- `n` bytes of a number, the lowest first. -/
def leBytes : Nat → Nat → List Byte
  | 0, _ => []
  | n + 1, x => BitVec.ofNat 8 x :: leBytes n (x / 256)

/-- `n` bytes of a number, the highest first. -/
def beBytes (n x : Nat) : List Byte := (leBytes n x).reverse

/-- Value of bytes, the first lowest. -/
def leNat : List Byte → Nat
  | [] => 0
  | b :: r => b.toNat + 256 * leNat r

/-- Value of bytes, the first highest. -/
def beNat (l : List Byte) : Nat := l.foldl (fun a b => 256 * a + b.toNat) 0

/-- The bytes of a text of printable characters. -/
def textBytes (s : String) : List Byte := s.toList.map (fun c => BitVec.ofNat 8 c.toNat)

/-- A list cut into pieces of `n`, at most `fuel` of them. -/
def chunks {α : Type} (n : Nat) : Nat → List α → List (List α)
  | 0, _ => []
  | f + 1, l => if l.isEmpty then [] else l.take n :: chunks n f (l.drop n)

def xorBytes : List Byte → List Byte → List Byte
  | a :: as, b :: bs => (a ^^^ b) :: xorBytes as bs
  | _, _ => []

/-! SHA-384. -/

def isPrime (n : Nat) : Bool := decide (2 ≤ n) && (List.range n).all (fun d => d < 2 || n % d != 0)

/-- The first 80 primes. -/
def shaPrimes : List Nat := (List.range 410).filter isPrime

/-- Largest r with r^3 ≤ n, found from bit `b` down. -/
def icbrtAux (n : Nat) : Nat → Nat → Nat
  | 0, r => r
  | b + 1, r => let t := r + 2 ^ b; icbrtAux n b (if t * t * t ≤ n then t else r)

/-- Round constants: the first 64 bits of the fractional parts of the cube roots of the primes. -/
def shaK : List W64 := shaPrimes.map (fun p => BitVec.ofNat 64 (icbrtAux (p * 2 ^ 192) 68 0))

/-- Initial value: the first 64 bits of the fractional parts of the square roots of the ninth to sixteenth primes. -/
def sha384Init : List W64 := ((shaPrimes.drop 8).take 8).map (fun p => BitVec.ofNat 64 (isqrt (p * 2 ^ 128)))

def shaSmall0 (x : W64) : W64 := x.rotateRight 1 ^^^ x.rotateRight 8 ^^^ (x >>> 7)
def shaSmall1 (x : W64) : W64 := x.rotateRight 19 ^^^ x.rotateRight 61 ^^^ (x >>> 6)
def shaBig0 (x : W64) : W64 := x.rotateRight 28 ^^^ x.rotateRight 34 ^^^ x.rotateRight 39
def shaBig1 (x : W64) : W64 := x.rotateRight 14 ^^^ x.rotateRight 18 ^^^ x.rotateRight 41

/-- Message schedule: the last 16 words, newest first, and the words so far in reverse. -/
def shaSchedule : Nat → List W64 → List W64
  | 0, l => l
  | n + 1, l => shaSchedule n ((shaSmall1 (l.getD 1 0) + l.getD 6 0 + shaSmall0 (l.getD 14 0) + l.getD 15 0) :: l)

structure ShaRegs where
  a : W64
  b : W64
  c : W64
  d : W64
  e : W64
  f : W64
  g : W64
  h : W64

def shaRound (s : ShaRegs) (k w : W64) : ShaRegs :=
  let t1 := s.h + shaBig1 s.e + ((s.e &&& s.f) ^^^ (~~~s.e &&& s.g)) + k + w
  let t2 := shaBig0 s.a + ((s.a &&& s.b) ^^^ (s.a &&& s.c) ^^^ (s.b &&& s.c))
  ⟨t1 + t2, s.a, s.b, s.c, s.d + t1, s.e, s.f, s.g⟩

def shaRounds : ShaRegs → List W64 → List W64 → ShaRegs
  | s, k :: ks, w :: ws => shaRounds (shaRound s k w) ks ws
  | s, _, _ => s

def zipAdd : List W64 → List W64 → List W64
  | a :: as, b :: bs => (a + b) :: zipAdd as bs
  | _, _ => []

def shaBlock (h : List W64) (block : List Byte) : List W64 :=
  let w := (chunks 8 16 block).map (fun b => BitVec.ofNat 64 (beNat b))
  let s0 : ShaRegs := ⟨h.getD 0 0, h.getD 1 0, h.getD 2 0, h.getD 3 0, h.getD 4 0, h.getD 5 0, h.getD 6 0, h.getD 7 0⟩
  let s := shaRounds s0 shaK (shaSchedule 64 w.reverse).reverse
  zipAdd h [s.a, s.b, s.c, s.d, s.e, s.f, s.g, s.h]

/-- Message with its padding. -/
def shaPad (m : List Byte) : List Byte :=
  m ++ [0x80] ++ List.replicate ((111 + 128 - m.length % 128) % 128) 0 ++ beBytes 16 (8 * m.length)

/-- SHA-384: 48 bytes. -/
def sha384 (m : List Byte) : List Byte :=
  let p := shaPad m
  ((((chunks 128 (p.length / 128) p).foldl shaBlock sha384Init).take 6).map (fun w => beBytes 8 w.toNat)).flatten

/-- HMAC-SHA-384. -/
def hmac384 (key m : List Byte) : List Byte :=
  let k := if 128 < key.length then sha384 key else key
  let k := k ++ List.replicate (128 - k.length) 0
  sha384 (k.map (· ^^^ 0x5C) ++ sha384 (k.map (· ^^^ 0x36) ++ m))

/-- HKDF expansion blocks, `n` of them from counter `i`. -/
def hkdfBlocks (prk info : List Byte) : Nat → Nat → List Byte → List Byte
  | 0, _, _ => []
  | n + 1, i, prev =>
    let t := hmac384 prk (prev ++ info ++ [BitVec.ofNat 8 i])
    t ++ hkdfBlocks prk info n (i + 1) t

/-- HKDF-SHA-384 with an output of `len` bytes; an empty salt counts as 48 zero bytes. -/
def hkdf384 (salt ikm info : List Byte) (len : Nat) : List Byte :=
  let prk := hmac384 (if salt.isEmpty then List.replicate 48 0 else salt) ikm
  (hkdfBlocks prk info ((len + 47) / 48) 1 []).take len

/-! CRC-32. -/

def crcBits : Nat → W32 → W32
  | 0, c => c
  | n + 1, c => crcBits n (if c.getLsbD 0 then (c >>> 1) ^^^ 0xEDB88320 else c >>> 1)

def crc32 (m : List Byte) : W32 := ~~~(m.foldl (fun c b => crcBits 8 (c ^^^ b.zeroExtend 32)) 0xFFFFFFFF)

/-! AES-256. -/

def aesX2 (b : Byte) : Byte := if b.getLsbD 7 then (b <<< 1) ^^^ 0x1B else b <<< 1

/-- Product in GF(2^8). -/
def aesMul : Nat → Byte → Byte → Byte
  | 0, _, _ => 0
  | n + 1, a, b => (if b.getLsbD 0 then a else 0) ^^^ aesMul n (aesX2 a) (b >>> 1)

def aesPow : Nat → Byte → Byte
  | 0, _ => 1
  | n + 1, b => aesMul 8 b (aesPow n b)

/-- The S-box: the inverse, which is the 254th power, then the affine map. -/
def aesSbox (b : Byte) : Byte :=
  let x := aesPow 254 b
  x ^^^ x.rotateLeft 1 ^^^ x.rotateLeft 2 ^^^ x.rotateLeft 3 ^^^ x.rotateLeft 4 ^^^ 0x63

def aesTable : List Byte := (List.range 256).map (fun i => aesSbox (BitVec.ofNat 8 i))
def aesSub (b : Byte) : Byte := aesTable.getD b.toNat 0

/-- Round-key words, newest first, from word i on. -/
def aesExpand : Nat → Nat → Byte → List (List Byte) → List (List Byte)
  | 0, _, _, ws => ws
  | n + 1, i, rc, ws =>
    let t := ws.headD []
    let t := if i % 8 = 0 then
        (match (t.drop 1 ++ t.take 1).map aesSub with
          | b :: r => (b ^^^ rc) :: r
          | [] => [])
      else if i % 8 = 4 then t.map aesSub else t
    aesExpand n (i + 1) (if i % 8 = 0 then aesX2 rc else rc) (xorBytes (ws.getD 7 []) t :: ws)

/-- The 15 round keys of 16 bytes. -/
def aesKeys (key : List Byte) : List (List Byte) :=
  chunks 16 15 (aesExpand 52 8 1 (chunks 4 8 key).reverse).reverse.flatten

def aesShift (s : List Byte) : List Byte := (List.range 16).map (fun i => s.getD ((i + 4 * (i % 4)) % 16) 0)

def aesMixCol : List Byte → List Byte
  | [a, b, c, d] =>
    let f (a b c d : Byte) : Byte := aesX2 a ^^^ (aesX2 b ^^^ b) ^^^ c ^^^ d
    [f a b c d, f b c d a, f c d a b, f d a b c]
  | l => l

def aesRounds : List (List Byte) → List Byte → List Byte
  | [], s => s
  | [k], s => xorBytes (aesShift (s.map aesSub)) k
  | k :: ks, s => aesRounds ks (xorBytes ((chunks 4 4 (aesShift (s.map aesSub))).map aesMixCol).flatten k)

/-- AES-256 of one block under expanded keys. -/
def aesBlock (keys : List (List Byte)) (b : List Byte) : List Byte := aesRounds (keys.drop 1) (xorBytes b (keys.headD []))

/-! GCM. -/

/-- Product in GF(2^128) with GCM's bit order: the highest bit is the coefficient of 1. -/
def ghashMul (x : BitVec 128) : Nat → BitVec 128 → BitVec 128 → BitVec 128
  | 0, _, z => z
  | n + 1, v, z =>
    ghashMul x n (if v.getLsbD 0 then (v >>> 1) ^^^ (0xE1#128 <<< 120) else v >>> 1) (if x.getLsbD n then z ^^^ v else z)

def ghashBlocks (h : BitVec 128) (y : BitVec 128) : List (List Byte) → BitVec 128
  | [] => y
  | b :: r => ghashBlocks h (ghashMul (y ^^^ BitVec.ofNat 128 (beNat (b ++ List.replicate (16 - b.length) 0))) 128 h 0) r

/-- Keystream of `n` blocks from counter `i`. -/
def gcmStream (keys : List (List Byte)) (iv : List Byte) (i n : Nat) : List Byte :=
  ((List.range n).map (fun j => aesBlock keys (iv ++ beBytes 4 (i + j)))).flatten

/-- The 16-byte tag of a ciphertext with its additional data. -/
def gcmTag (key iv aad ct : List Byte) : List Byte :=
  let keys := aesKeys key
  let h : BitVec 128 := BitVec.ofNat 128 (beNat (aesBlock keys (List.replicate 16 0)))
  let y := ghashBlocks h (ghashBlocks h 0 (chunks 16 (aad.length / 16 + 1) aad)) (chunks 16 (ct.length / 16 + 1) ct)
  let y := ghashBlocks h y [beBytes 8 (8 * aad.length) ++ beBytes 8 (8 * ct.length)]
  xorBytes (beBytes 16 y.toNat) (gcmStream keys iv 1 1)

/-- Encrypt or decrypt. -/
def gcmCrypt (key iv data : List Byte) : List Byte :=
  xorBytes data (gcmStream (aesKeys key) iv 2 ((data.length + 15) / 16))

/-! P-384. -/

def p384p : Nat := 2 ^ 384 - 2 ^ 128 - 2 ^ 96 + 2 ^ 32 - 1
def p384n : Nat := 0xFFFFFFFFFFFFFFFFFFFFFFFFFFFFFFFFFFFFFFFFFFFFFFFFC7634D81F4372DDF581A0DB248B0A77AECEC196ACCC52973
def p384b : Nat := 0xB3312FA7E23EE7E4988E056BE3F82D19181D9C6EFE8141120314088F5013875AC656398D8A2ED19D2A85C8EDD3EC2AEF
def p384g : Nat × Nat :=
  (0xAA87CA22BE8B05378EB1C71EF320AD746E1D3B628BA79B9859F741E082542A385502F25DBF55296C3A545E3872760AB7,
   0x3617DE4A96262C6F5D9E98BF9292DC29F8F41DBD289A147CE9DA3113B5F0B8C00A60B1CE1D7E819D7A431D7C90EA0E5F)

/-- b^e mod m, over the lowest `n` bits of e. -/
def powMod (m : Nat) : Nat → Nat → Nat → Nat → Nat
  | 0, _, _, acc => acc
  | n + 1, b, e, acc => powMod m n (b * b % m) (e / 2) (if e % 2 = 1 then acc * b % m else acc)

/-- Inverse modulo a prime below 2^384. -/
def invMod (m a : Nat) : Nat := powMod m 384 (a % m) (m - 2) 1

/-- Sum of two points; none is the point at infinity. -/
def ecAdd : Option (Nat × Nat) → Option (Nat × Nat) → Option (Nat × Nat)
  | none, q => q
  | p, none => p
  | some (x1, y1), some (x2, y2) =>
    let p := p384p
    if x1 = x2 ∧ (y1 + y2) % p = 0 then none
    else
      let l := if x1 = x2 then (3 * x1 * x1 + (p - 3)) * invMod p (2 * y1) % p
        else (y2 + p - y1) * invMod p ((x2 + p - x1) % p) % p
      let x3 := (l * l + 2 * p - x1 - x2) % p
      some (x3, (l * (x1 + p - x3) + p - y1) % p)

/-- k times a point, over the lowest `n` bits of k. -/
def ecMul : Nat → Nat → Option (Nat × Nat) → Option (Nat × Nat) → Option (Nat × Nat)
  | 0, _, _, acc => acc
  | n + 1, k, q, acc => ecMul n (k / 2) (ecAdd q q) (if k % 2 = 1 then ecAdd acc q else acc)

def onCurve (x y : Nat) : Bool :=
  decide (x < p384p) && decide (y < p384p) && y * y % p384p == (x * x * x + (p384p - 3) * x + p384b) % p384p

/-- A public key of 97 bytes: 0x04, X, Y. -/
def ecPoint (l : List Byte) : Option (Nat × Nat) :=
  let x := beNat ((l.drop 1).take 48)
  let y := beNat ((l.drop 49).take 48)
  if l.length = 97 ∧ l.headD 0 = 0x04 ∧ onCurve x y then some (x, y) else none

def ecBytes : Option (Nat × Nat) → List Byte
  | some (x, y) => [0x04] ++ beBytes 48 x ++ beBytes 48 y
  | none => List.replicate 97 0

/-- Public key of a private key. -/
def ecPublic (k : Nat) : List Byte := ecBytes (ecMul 384 (k % p384n) (some p384g) none)

/-- The ECDH shared secret: the X coordinate, 48 bytes; none for a bad public key. -/
def ecdh (k : Nat) (pub : List Byte) : Option (List Byte) :=
  match ecPoint pub with
  | none => none
  | some q => match ecMul 384 (k % p384n) (some q) none with
    | some r => some (beBytes 48 r.1)
    | none => some (List.replicate 48 0)

/-- ECDSA verification of a signature r ‖ s over a digest of 48 bytes. -/
def ecdsaVerify (pub digest sig : List Byte) : Bool :=
  match ecPoint pub with
  | none => false
  | some q =>
    let r := beNat (sig.take 48)
    let s := beNat ((sig.drop 48).take 48)
    if r = 0 ∨ s = 0 ∨ p384n ≤ r ∨ p384n ≤ s ∨ sig.length < 96 then false
    else
      let w := invMod p384n s
      match ecAdd (ecMul 384 (beNat digest * w % p384n) (some p384g) none) (ecMul 384 (r * w % p384n) (some q) none) with
      | none => false
      | some (x, _) => x % p384n == r

/-- ECDSA signature r ‖ s of a digest under a private key, with the nonce k that the random generator drew. -/
def ecdsaSign (priv k : Nat) (digest : List Byte) : List Byte :=
  match ecMul 384 (k % p384n) (some p384g) none with
  | none => List.replicate 96 0
  | some (x, _) =>
    let r := x % p384n
    let s := invMod p384n (k % p384n) * (beNat digest + r * (priv % p384n)) % p384n
    beBytes 48 r ++ beBytes 48 s

end Sys2Proof.Machine
end

