-- ==== Sys2Proof/Machine/MsuMath.lean ====
section
/-! DEFINITION. The arithmetic of the update engine: partial norms in FP64, the rules of Table 12-7 on one element, the factor
unit, and the words of a command entry and a rule block (R374, R383 to R385, R389, R390, Tables 12-4 to 12-6). -/
namespace Sys2Proof.Machine

/-! Command entry (Table 12-4). -/

def ueOp (c : BitVec 512) : Nat := bitsOf c 7 0
def ueRule (c : BitVec 512) : Nat := bitsOf c 10 8
def ueBlock (c : BitVec 512) : Nat := bitsOf c 31 16
def ueGroup (c : BitVec 512) : Nat := bitsOf c 39 32
def ueContrib (c : BitVec 512) : Bool := bitOf c 40
def ueOperand (c : BitVec 512) : Nat := bitsOf c 95 64
def ueWDesc (c : BitVec 512) : Nat := bitsOf c 79 64
def ueGDesc (c : BitVec 512) : Nat := bitsOf c 95 80
def ueMaster (c : BitVec 512) : Nat := bitsOf c 111 96
def ueM1 (c : BitVec 512) : Nat := bitsOf c 127 112
def ueM2 (c : BitVec 512) : Nat := bitsOf c 143 128
def ueAux (c : BitVec 512) : Nat := bitsOf c 159 144
def ueNormOff (c : BitVec 512) : Nat := bitsOf c 191 160
/-- SIG, read with the field functions of SIGNAL. -/
def ueSig (c : BitVec 512) : IWord := BitVec.ofNat 128 (bitsOf c 255 192)
def ueTscale (c : BitVec 512) : Nat := bitsOf c 319 256
def ueNFirst (c : BitVec 512) : Nat := bitsOf c 335 320
def ueNCount (c : BitVec 512) : Nat := bitsOf c 351 336
def ueAcc (c : BitVec 512) : Bool := bitOf c 352

def opUpdate : Nat := 0x01
def opUpdateVec : Nat := 0x02
def opSmul : Nat := 0x10
def isUpdateOp (o : Nat) : Bool := o == opUpdate || o == opUpdateVec

/-- Field i of a rule block (Table 12-5). -/
def rbField (r : BitVec 512) (i : Nat) : W32 := BitVec.ofNat 32 (bitsOf r (32 * i + 31) (32 * i))
def rbClip (r : BitVec 512) : Bool := bitOf r 265
def rbNesterov (r : BitVec 512) : Bool := bitOf r 264
def rbBlock (r : BitVec 512) : Nat := bitsOf r 263 256

/-! FP64 sums (R374, R376). -/

/-- One element into its lane: its square is exact, the addition rounds once. -/
def sqInto (acc : W64) (x : W32) : W64 := to64 ((f64 acc).add ((f32 x).mul (f32 x)))

/-- Element j goes into lane j mod 64. -/
def sqLanes : List W32 → Nat → Bank W64 → Bank W64
  | [], _, l => l
  | x :: r, j, l => sqLanes r (j + 1) (l.upd (j % 64) (sqInto · x))

/-- Combine neighbours: one level of the tree of R260. -/
def pair64 : List W64 → List W64
  | a :: b :: r => addF64 a b :: pair64 r
  | l => l

def tree64 : Nat → List W64 → List W64
  | 0, l => l
  | n + 1, l => tree64 n (pair64 l)

/-- Partial norm of a list of elements in visiting order. -/
def sumSquares (l : List W32) : W64 := (tree64 6 ((sqLanes l 0 (Bank.const 0)).getList 0 64)).headD 0

/-- Sum in order with one FP64 rounding per addition. -/
def sum64 : W64 → List W64 → W64
  | a, [] => a
  | a, b :: r => sum64 (addF64 a b) r

/-- An FP64 sum of squares of FP32 elements in ascending index, rounded once to FP32 (R385). -/
def sqSum32 (l : List W32) : W32 := to32 (f64 (l.foldl sqInto 0))

/-- An FP64 sum of FP32 numbers in ascending index, rounded once to FP32 (R385). -/
def sum32 (l : List W32) : W32 := to32 (f64 (l.foldl (fun a x => to64 ((f64 a).add (f32 x))) 0))

/-- rne32(sqrt64(x)) (R376). -/
def root32 (x : W64) : W32 := to32 (f64 (to64 ((f64 x).sqrt 53)))

/-! FP32 steps. -/

def negF32 (x : W32) : W32 := x ^^^ 0x80000000
def divF32 (a b : W32) : W32 := to32 ((f32 a).div 24 (f32 b))
def sqrtF32 (a : W32) : W32 := to32 ((f32 a).sqrt 24)
def subF32 (a b : W32) : W32 := to32 ((f32 a).add (f32 b).neg)
def one32 : W32 := 0x3F800000

/-- Constants of a command in an orbit (R383). -/
structure UpdConst where
  rule : Nat
  nesterov : Bool
  c : W32
  beta1 : W32
  beta2 : W32
  omb1 : W32
  omb2 : W32
  pow1 : W32
  pow2 : W32
  ib1 : W32
  ib2 : W32
  eps : W32
  lambda : W32
  eta : W32
  ratio : W32
deriving DecidableEq, Repr

/-- The trust ratio (R384). -/
def trustRatio (rb : BitVec 512) (wn un : W32) : W32 :=
  if (f32 wn).isZero || (f32 un).isZero then one32
  else
    let r := divF32 wn un
    if (f32 r).lt (f32 (rbField rb 5)) then rbField rb 5
    else if (f32 (rbField rb 6)).lt (f32 r) then rbField rb 6
    else r

/-- Constants from the rule block, the clip factor, the step size, the ratio, and STEP, POW1 and POW2 as stored. -/
def updConst (rule : Nat) (rb : BitVec 512) (c value ratio : W32) (step : Nat) (p1 p2 : W32) : UpdConst :=
  let b1 := rbField rb 1
  let b2 := rbField rb 2
  let pow1 := mulF32 b1 (if step = 0 then one32 else p1)
  let pow2 := mulF32 b2 (if step = 0 then one32 else p2)
  { rule := rule, nesterov := rbNesterov rb, c := if rbClip rb then c else one32, beta1 := b1, beta2 := b2
    omb1 := subF32 one32 b1, omb2 := subF32 one32 b2, pow1 := pow1, pow2 := pow2
    ib1 := divF32 one32 (subF32 one32 pow1), ib2 := divF32 one32 (subF32 one32 pow2), eps := rbField rb 3
    lambda := rbField rb 4, eta := mulF32 value (rbField rb 0), ratio := ratio }

/-- The first-moment update that ADAMW, TRUST and PRECOND share. -/
def UpdConst.mAdam (k : UpdConst) (m gc : W32) : W32 := fmaF32 k.beta1 m (mulF32 k.omb1 gc)

/-- New first moment, second moment and direction of one element (R383). FACTORED and PRECOND bring their direction. -/
def UpdConst.direction (k : UpdConst) (g m v : W32) (given : W32) : W32 × W32 × W32 :=
  let gc := mulF32 k.c g
  match k.rule with
  | 0 =>
    let m := fmaF32 k.beta1 m gc
    (m, v, if k.nesterov then fmaF32 k.beta1 m gc else m)
  | 3 => (m, v, given)
  | 4 => (k.mAdam m gc, v, given)
  | _ =>
    let m := k.mAdam m gc
    let v := fmaF32 k.beta2 v (mulF32 k.omb2 (mulF32 gc gc))
    (m, v, divF32 (mulF32 m k.ib1) (addF32 (sqrtF32 (mulF32 v k.ib2)) k.eps))

/-- t before the trust ratio, as U2 sums it. -/
def UpdConst.tail (k : UpdConst) (w dir : W32) : W32 := fmaF32 k.lambda w dir

/-- The new master value. -/
def UpdConst.newW (k : UpdConst) (w dir : W32) : W32 :=
  let t := k.tail w dir
  let t := if k.rule = 2 then mulF32 k.ratio t else t
  fmaF32 (negF32 k.eta) t w

/-- FACTORED: a statistic after the update (R385). -/
def UpdConst.stat (k : UpdConst) (old sum : W32) : W32 := fmaF32 k.beta2 old (mulF32 k.omb2 (mulF32 (mulF32 k.c k.c) sum))

/-- FACTORED: the direction of an element. -/
def UpdConst.factored (k : UpdConst) (g rowv colv sr : W32) : W32 :=
  divF32 (mulF32 k.c g) (addF32 (sqrtF32 (divF32 (mulF32 rowv colv) sr)) k.eps)

/-! The factor unit (R389, R390). Matrices are banks with element (i, j) at key 128 i + j. -/

def mat (i j : Nat) : Nat := 128 * i + j

/-- s minus Σ l[i][k] l[j][k] for k below n, by fused steps. -/
def cholDot (l : Bank W32) (i j : Nat) : Nat → W32 → W32
  | 0, s => s
  | n + 1, s => fmaF32 (negF32 (l.get (mat i n))) (l.get (mat j n)) (cholDot l i j n s)

/-- Column j below the diagonal. -/
def cholCol (a : Bank W32) (l : Bank W32) (j b : Nat) : Bank W32 :=
  (List.range (b - (j + 1))).foldl (fun l x =>
    let i := j + 1 + x
    l.set (mat i j) (divF32 (cholDot l i j j (a.get (mat i j))) (l.get (mat j j)))) l

/-- Cholesky factor of S + δ I, or none where it fails. -/
def cholesky (a : Bank W32) (delta : W32) (b : Nat) : Option (Bank W32) :=
  (List.range b).foldl (fun o j =>
    match o with
    | none => none
    | some l =>
      let s := cholDot l j j j (addF32 (a.get (mat j j)) delta)
      if !(f32 0).lt (f32 s) || !(f32 s).isFinite then none
      else some (cholCol a (l.set (mat j j) (sqrtF32 s)) j b)) (some (Bank.const 0))

/-- Attempts with δ growing tenfold: the factor, if any, and the attempts that failed. -/
def cholTry (a : Bank W32) (b : Nat) : Nat → W32 → Nat → Option (Bank W32) × Nat
  | 0, _, fails => (none, fails)
  | n + 1, delta, fails =>
    match cholesky a delta b with
    | some l => (some l, fails)
    | none => cholTry a b n (mulF32 0x41200000 delta) (fails + 1)

/-- s minus Σ l[i][k] d[k][c] for k below n. -/
def solveDot (l dm : Bank W32) (i c : Nat) : Nat → W32 → W32
  | 0, s => s
  | n + 1, s => fmaF32 (negF32 (l.get (mat i n))) (dm.get (mat n c)) (solveDot l dm i c n s)

/-- Solve L D = M column by column. -/
def solveAll (l m : Bank W32) (b cols : Nat) : Bank W32 :=
  (List.range cols).foldl (fun dm c =>
    (List.range b).foldl (fun dm i =>
      dm.set (mat i c) (divF32 (solveDot l dm i c i (m.get (mat i c))) (l.get (mat i i)))) dm) (Bank.const 0)

/-- Σ gc[i][k] gc[j][k] over the columns of the block in ascending order. -/
def gramDot (gc : Bank W32) (i j : Nat) : Nat → W32
  | 0 => 0
  | n + 1 => fmaF32 (gc.get (mat i n)) (gc.get (mat j n)) (gramDot gc i j n)

/-- S′ of a block, formed for i ≥ j and mirrored. -/
def newStats (k : UpdConst) (s gc : Bank W32) (b cols : Nat) : Bank W32 :=
  (List.range b).foldl (fun o i => (List.range (i + 1)).foldl (fun o j =>
    let x := fmaF32 k.beta2 (s.get (mat i j)) (mulF32 k.omb2 (gramDot gc i j cols))
    (o.set (mat i j) x).set (mat j i) x) o) (Bank.const 0)

/-- A block of PRECOND: S′, the direction, retries made, and whether it fell back (R389, R390). -/
def precondBlock (k : UpdConst) (damping : W32) (s gc m : Bank W32) (b cols : Nat) : Bank W32 × Bank W32 × Nat × Bool :=
  let sn := newStats k s gc b cols
  match cholTry sn b 5 damping 0 with
  | (some l, f) => (sn, solveAll l m b cols, f, false)
  | (none, _) =>
    (sn, (List.range b).foldl (fun o i => (List.range cols).foldl (fun o c =>
      o.set (mat i c) (divF32 (m.get (mat i c)) (addF32 (sqrtF32 (sn.get (mat i i))) k.eps))) o) (Bank.const 0), 4, true)

end Sys2Proof.Machine
end

