-- ==== Sys2Proof/Machine/MsuOps.lean ====
section
/-! DEFINITION. The memory-side units: list start, update passes 1 and 2, the stream multiplier, the norm exchange's outcome
and the bank advance that follows it (R364 to R400, Tables 12-1 to 12-9). -/
namespace Sys2Proof.Machine

def Dev.msu (d : Dev) (u : Nat) : Msu := d.msus.get u
def Dev.updMsu (d : Dev) (u : Nat) (f : Msu → Msu) : Dev := { d with msus := d.msus.set u (f (d.msus.get u)) }
def Dev.ucmd (d : Dev) (c : Nat) : BitVec 512 := d.msuPlan.cmds.get c
def Dev.listView (d : Dev) (i : Nat) : View := viewOf (d.plan.descs.get i)

/-! Lists (R366, R367). -/

/-- Entry of semaphore q of a unit. -/
def Dev.msuList (d : Dev) (u q : Nat) : MsuList := d.msuPlan.lists.get (16 * u + q)

/-- Command indices of a unit's lists that are in use. -/
def Dev.msuCmds (d : Dev) (u : Nat) : List Nat :=
  ((List.range 16).map (fun q => (List.range (d.msuList u q).count).map ((d.msuList u q).first + ·))).flatten

/-- Update commands of a unit's lists. -/
def Dev.updateCmds (d : Dev) (u : Nat) : List Nat := (d.msuCmds u).filter (fun c => isUpdateOp (ueOp (d.ucmd c)))

/-- Pass 1 of every update command of a unit's lists has ended, or the unit's update work in the orbit is over. -/
def Dev.pass1Done (d : Dev) (u : Nat) : Bool :=
  (d.msu u).dead || (d.updateCmds u).all (fun c => (d.msu u).passed.contains c)

/-- MSU_LIST_START: the semaphore has reached THRESHOLD in the current bank; a list starts at most once per orbit (R366). -/
def doMsuListStart (d : Dev) (u q : Nat) : Dev :=
  let m := d.msu u
  let l := d.msuList u q
  if m.fenced || l.count == 0 || m.ran.get q || decide ((m.sems.get (msuSemKey m.orbit q)).toNat < l.threshold) then d
  else d.updMsu u (fun m => { m with
    ran := m.ran.set q true
    phase := if m.phase = 0 ∧ !m.dead then 1 else m.phase
    runs := if m.dead then m.runs else m.runs ++ [⟨q, l.first, l.count⟩] })

/-- The first started list whose next command is of a given OP: its semaphore and the command. -/
def Dev.headCmd (d : Dev) (op : Nat) : List ListRun → Option (Nat × Nat)
  | [] => none
  | r :: rs => if ueOp (d.ucmd r.next) = op then some (r.sem, r.next) else Dev.headCmd d op rs

/-- The list of a semaphore goes on to its next command, or ends. -/
def stepList (q : Nat) : List ListRun → List ListRun
  | [] => []
  | r :: rs =>
    if r.sem = q then (if r.left ≤ 1 then rs else { r with next := r.next + 1, left := r.left - 1 } :: rs)
    else r :: stepList q rs

/-- A command of a list completes with a status; one from 0x10 to 0x16, or 0x21 or 0x31, stops REPORT (R228, R367). -/
def Dev.msuDone (d : Dev) (u q c : Nat) (st : Byte) : Dev :=
  let d := d.updMsu u (fun m => { m with
    runs := stepList q m.runs
    lastStatus := st
    cmd := if isUpdateOp (ueOp (d.ucmd c)) then c else m.cmd
    cmdError := m.cmdError || decide (0x10 ≤ st.toNat) })
  if stopsLc st then d.stopLc (d.msuList u q).report st (unitMsu u) else d

/-- A unit's update work in the orbit ends: it sets VOID, and nothing further of its lists runs (R393, R471). -/
def Dev.msuDead (d : Dev) (u : Nat) : Dev := d.updMsu u (fun m => { m with voids := true, dead := true, runs := [] })

/-! Completion signals (R368). -/

/-- Orbits that a logical core is still to end before none whose HALT resets the bank of `next` is left; `incl` counts the
orbit numbered `next` itself, which a void is about to replay. -/
def LCore.endsBefore (l : LCore) (next : Nat) (incl : Bool) : Nat :=
  let hits (n : Nat) : Bool := n % 2 == next % 2 && (decide (n < next) || (incl && n == next))
  let isOver := match l.phase with
    | .halted => true
    | .stopped _ => true
    | _ => false
  match l.owed with
  | some n => if hits n then l.ends + 2 else if !isOver && hits l.orbit then l.ends + 1 else 0
  | none => if !isOver && hits l.orbit then l.ends + 1 else 0

/-- A command's SIG, counted in the bank of an orbit. -/
def Dev.sendCmdSig (d : Dev) (c orbit after : Nat) : Dev :=
  let w := ueSig (d.ucmd c)
  if sgInc w = 0 ∨ !sgInRange w then d
  else d.sendSignal ⟨none, orbit, sgTkind w, sgTnum w, sgSem w, sgInc w, after⟩

/-- The pass-2 completion signal of a command: it goes to the bank of the next orbit. -/
def Dev.sendPass2Sig (d : Dev) (next : Nat) (incl : Bool) (c : Nat) : Dev :=
  let w := ueSig (d.ucmd c)
  d.sendCmdSig c next (if sgTkind w = 0 then (d.lc (sgTnum w)).endsBefore next incl else 0)

/-! Operands (R370 to R372). -/

/-- Operands of an update command: W, WT, gradient, master, M1, M2 and AUX. -/
structure UpdOps where
  w : View
  wt : Option View
  g : View
  master : View
  m1 : Option View
  m2 : Option View
  aux : Option View
deriving DecidableEq, Repr

def Dev.optView (d : Dev) (i : Nat) : Option View := if i = 0xFFFF then none else some (d.listView i)

/-- Weight record fields (Table 6-6). -/
def wrRole (r : Desc) : Nat := bitsOf r 1 0
def wrWDesc (r : Desc) : Nat := bitsOf r 79 64
def wrWtDesc (r : Desc) : Nat := bitsOf r 95 80
def wrSlotDesc (r : Desc) : Nat := bitsOf r 111 96
def wrGradDesc (r : Desc) : Nat := bitsOf r 127 112

def Dev.updOps (d : Dev) (c : BitVec 512) : UpdOps :=
  let r := d.plan.weights.get (ueOperand c)
  let vec := ueOp c == opUpdateVec
  { w := d.listView (if vec then ueWDesc c else wrWDesc r)
    wt := if vec then none else d.optView (wrWtDesc r)
    g := d.listView (if vec then ueGDesc c else wrGradDesc r)
    master := d.listView (ueMaster c), m1 := d.optView (ueM1 c), m2 := d.optView (ueM2 c), aux := d.optView (ueAux c) }

/-- Rows and columns of the command's matrix: one row for a vector. -/
def UpdOps.n (o : UpdOps) : Nat := o.w.rows
def UpdOps.k (o : UpdOps) : Nat := o.w.inner

/-- Value index of position (n, k) of a compressed tensor in its tile, or none where it is not occupied (R114, R115). -/
def tileIndex (d : Dev) (v : View) (n k : Nat) : Option Nat :=
  let slot := tileSlot v n (k / 512)
  let col := occupied (tileBits d 0 v slot (n % 512))
  if col.contains (k % 512) then
    some ((List.range (n % 512)).foldl (fun a j => a + (occupied (tileBits d 0 v slot j)).length) 0
      + (col.filter (· < k % 512)).length)
  else none

/-- The engine visits a position (R372). -/
def visits (d : Dev) (w : View) (n k : Nat) : Bool := w.layout != 2 || (tileIndex d w n k).isSome

/-- Insert a position by its gradient element index. -/
def insPos (x : Int × Nat × Nat) : List (Int × Nat × Nat) → List (Int × Nat × Nat)
  | [] => [x]
  | y :: r => if x.1 < y.1 then x :: y :: r else y :: insPos x r

def sortPos : List (Int × Nat × Nat) → List (Int × Nat × Nat)
  | [] => []
  | x :: r => insPos x (sortPos r)

/-- Positions (n, k) that a command visits, in ascending element index of its gradient (R374). -/
def Dev.visited (d : Dev) (o : UpdOps) : List (Nat × Nat) :=
  (sortPos (((List.range o.n).map (fun n => (List.range o.k).map (fun k => (o.g.elemIndex (o.g.posOf n k), n, k)))).flatten
    |>.filter (fun x => visits d o.w x.2.1 x.2.2))).map (·.2)

/-- FP32 value that a view holds at (n, k). -/
def at32 (d : Dev) (v : View) (n k : Nat) : W32 := to32 (readVal d 0 v (v.posOf n k))
def atOpt (d : Dev) (v : Option View) (n k : Nat) : W32 :=
  match v with
  | some v => at32 d v n k
  | none => 0

/-- Element i of a flat FP32 tensor: value, and the write of a new one. -/
def flatPos (v : View) (i : Nat) : List Nat := coords v.shape i
def flat32 (d : Dev) (v : View) (i : Nat) : W32 := to32 (readVal d 0 v (flatPos v i))
def flatItems (d : Dev) (v : View) (l : List (Nat × W32)) : List WItem :=
  (storeVals d 0 v (realVals v (l.map (fun x => (flatPos v x.1, f32 x.2))))).1

/-- First byte of a command's norm record, as an address (R365, Table 12-6). -/
def Dev.normAddr (d : Dev) (u c : Nat) : Nat :=
  let v := d.listView (d.msuPlan.normDesc.get u)
  segAddr d 0 0 v.seg (4 * v.offset.toNat + ueNormOff (d.ucmd c))

/-- Constants of a command (R379, R383, R384). -/
def Dev.updConst (d : Dev) (u c : Nat) (clip value : W32) : UpdConst :=
  let e := d.ucmd c
  let a := d.normAddr u c
  let q := ueGroup e
  let rb := d.msuPlan.rules.get (ueBlock e)
  Sys2Proof.Machine.updConst (ueRule e) rb clip value (trustRatio rb (d.wn.get q) (d.un.get q)) (memRead d.ms.mem a 4)
    (BitVec.ofNat 32 (memRead d.ms.mem (a + 4) 4)) (BitVec.ofNat 32 (memRead d.ms.mem (a + 8) 4))

/-! Checks of the operands (R386 to R388). -/

def UpdOps.targets (o : UpdOps) : List View :=
  [o.master] ++ o.m1.toList ++ o.m2.toList ++ o.aux.toList ++ [o.w] ++ o.wt.toList

def firstRunFault (d : Dev) (q : Req) (wr : Bool) : List View → Option (Nat × Nat × Int)
  | [] => none
  | v :: r =>
    match checkRuns d q true wr (viewRuns d v) with
    | some f => some f
    | none => firstRunFault d q wr r

/-- The first region of a write target that lies in a FROZEN segment. -/
def frozenFault (d : Dev) : List View → Option (Nat × Nat × Int)
  | [] => none
  | v :: r =>
    match (viewRuns d v).find? (fun x => segFrozen (d.segs.get x.1)) with
    | some x => some (x.1, 5, x.2.1)
    | none => frozenFault d r

/-- Addresses that pass 1 reads: the state record, the gradient, and what the rule needs beside them. -/
def Dev.pass1Addrs (d : Dev) (u c : Nat) (o : UpdOps) (ps : List (Nat × Nat)) : List Nat :=
  let views := [o.g] ++ (if ueRule (d.ucmd c) = 2 then [o.master] ++ o.m1.toList ++ o.m2.toList else [])
  addrRun (d.normAddr u c) 12 ++ (views.map (fun v => (ps.map (fun p => readAddrs d 0 v (v.posOf p.1 p.2))).flatten)).flatten

/-! Pass 1 (R373, R374, R385). -/

/-- G2, W2 and U2 of a command. -/
def Dev.partials (d : Dev) (u c : Nat) (o : UpdOps) (ps : List (Nat × Nat)) : W64 × W64 × W64 :=
  let g (p : Nat × Nat) : W32 := at32 d o.g p.1 p.2
  let g2 := sumSquares (ps.map g)
  if ueRule (d.ucmd c) = 2 then
    let k := d.updConst u c one32 0
    (g2, sumSquares (ps.map (fun p => at32 d o.master p.1 p.2)),
      sumSquares (ps.map (fun p =>
        let w := at32 d o.master p.1 p.2
        k.tail w (k.direction (g p) (atOpt d o.m1 p.1 p.2) (atOpt d o.m2 p.1 p.2) 0).2.2)))
  else (g2, 0, 0)

/-- ROWSUM and COLSUM of a FACTORED command as a write (R385). -/
def Dev.factorSums (d : Dev) (a : Nat) (o : UpdOps) : List WItem :=
  let rows := (List.range o.n).map (fun n => sqSum32 (((List.range o.k).filter (fun k => visits d o.w n k)).map (fun k => at32 d o.g n k)))
  let cols := (List.range o.k).map (fun k => sqSum32 (((List.range o.n).filter (fun n => visits d o.w n k)).map (fun n => at32 d o.g n k)))
  ((List.range (o.n + o.k)).map (fun i => wBytes (a + 64 + 4 * i) 4 ((rows ++ cols).getD i 0).toNat)).flatten

/-- The norm record's partials as a write, and in the unit. -/
def Dev.putPartials (d : Dev) (u c : Nat) (x : W64 × W64 × W64) (more : List WItem) (p : Bool) : Dev :=
  let a := d.normAddr u c
  (d.write (wBytes (a + 16) 8 x.1.toNat ++ wBytes (a + 24) 8 x.2.1.toNat ++ wBytes (a + 32) 8 x.2.2.toNat ++ more) p).updMsu u
    (fun m => { m with parts := ((m.parts.set (3 * c) x.1).set (3 * c + 1) x.2.1).set (3 * c + 2) x.2.2 })

/-- Pass 1 of command c, the head of the list of semaphore q (R373, R386 to R388, R393, R485). -/
def Dev.pass1 (d : Dev) (u q c : Nat) : Dev :=
  let o := d.updOps (d.ucmd c)
  let req : Req := .msu u
  match firstRunFault d req true o.targets, firstRunFault d req false [o.g], frozenFault d o.targets with
  | some f, _, _ => (((d.segFault req f.1 f.2.1 f.2.2).updMsu u (fun m => { m with voids := true, passed := m.passed ++ [c] })).msuDone u q c stSegment)
  | none, some f, _ => (((d.segFault req f.1 f.2.1 f.2.2).updMsu u (fun m => { m with voids := true, passed := m.passed ++ [c] })).msuDone u q c stSegment)
  | none, none, some f =>
    if d.msuPlan.strict then
      ((d.segFault req f.1 f.2.1 f.2.2).updMsu u (fun m => { m with voids := true, passed := m.passed ++ [c] })).msuDone u q c stSegment
    else
      let n := (d.visited o).length
      ((d.putPartials u c (0, 0, 0) [] false).updMsu u (fun m => { m with
        skips := satAdd 0xFFFFFFFF m.skips n, skipped := m.skipped.set c true, passed := m.passed ++ [c] })).msuDone u q c stDone
  | none, none, none =>
    let ps := d.visited o
    let t := d.touch (d.pass1Addrs u c o ps)
    let d := if t.2 then (t.1.updMsu u (fun m => { m with voids := true })).voteVoid (t.1.msu u).orbit rsPoison (unitMsu u) 0 else t.1
    let x := d.partials u c o ps
    let more := if ueRule (d.ucmd c) = 3 then d.factorSums (d.normAddr u c) o else []
    ((d.putPartials u c x more t.2).updMsu u (fun m => { m with passed := m.passed ++ [c] })).msuDone u q c stDone

/-! The exchange record (R375). -/

/-- Insert in ascending order. -/
def insNat (x : Nat) : List Nat → List Nat
  | [] => [x]
  | y :: r => if x ≤ y then x :: y :: r else y :: insNat x r

def sortNat : List Nat → List Nat
  | [] => []
  | x :: r => insNat x (sortNat r)

/-- Total i (0 G2, 1 W2, 2 U2) of group g on a unit: commands with CONTRIB = 1 in ascending index; a skipped one counts +0.0. -/
def Dev.unitSum (d : Dev) (u g i : Nat) : W64 :=
  sum64 0 ((sortNat ((d.msu u).passed.filter (fun c => ueContrib (d.ucmd c) && ueGroup (d.ucmd c) == g))).map
    (fun c => if (d.msu u).skipped.get c then 0 else (d.msu u).parts.get (3 * c + i)))

/-- Total of the module: the units in the order of R27. -/
def Dev.moduleSum (d : Dev) (g i : Nat) : W64 := sum64 0 ((List.range 16).map (fun u => d.unitSum u g i))

/-- The run whose norm exchange is open: the newest. -/
def Dev.exchRun (d : Dev) : Option OrbitRun := d.runs.getLast?

/-- Write the newest run. -/
def Dev.updLast (d : Dev) (f : OrbitRun → OrbitRun) : Dev :=
  match d.runs.getLast? with
  | none => d
  | some r => { d with runs := d.runs.dropLast ++ [f r] }

/-- The module's own exchange record (Table 12-9). -/
def Dev.ownRec (d : Dev) (r : OrbitRun) : NormRec :=
  { orbit := r.num, step := r.stepValue, freshReq := d.msuPlan.fresh, stale := (d.msu 0).stale
    void := (List.range 16).any (fun u => (d.msu u).voids)
    sums := (List.range d.msuPlan.groups).foldl (fun b g => (List.range 3).foldl (fun b i => b.set (3 * g + i) (d.moduleSum g i)) b)
      (Bank.const 0) }

/-! The outcome (R376 to R378, Table 12-8). -/

/-- Records held, in ascending module. -/
def Dev.records (d : Dev) : List NormRec := ((List.range d.plan.modules).map (fun i => (d.norms.get i).toList)).flatten

/-- Every module's record is in. -/
def Dev.recordsIn (d : Dev) : Bool := (List.range d.plan.modules).all (fun i => (d.norms.get i).isSome)

/-- Job total i of group g. -/
def jobSum (l : List NormRec) (g i : Nat) : W64 := sum64 0 (l.map (fun r => r.sums.get (3 * g + i)))

/-- Σ over the groups of G2. -/
def jobG2 (l : List NormRec) (groups : Nat) : W64 := sum64 0 ((List.range groups).map (fun g => jobSum l g 0))

def stepsDiffer : List NormRec → Bool
  | [] => false
  | r :: rs => rs.any (fun s => s.step != r.step)

/-- The clip factor (R376). -/
def clipFactor (clip g : W32) : W32 :=
  if (f32 0).lt (f32 clip) && (f32 clip).lt (f32 g) then divF32 clip g else one32

/-- Outcome codes of OrbitRun. -/
def ocRun : Nat := 1
def ocHeld : Nat := 2
def ocVoid : Nat := 3

/-- Table 12-8 on the records, with a probe orbit HELD (R445). -/
def tableOutcome (l : List NormRec) (groups : Nat) (probe : Bool) : Nat :=
  if l.any (·.void) || !(f64 (jobG2 l groups)).isFinite then ocVoid
  else if probe || stepsDiffer l || (l.any (·.freshReq) && l.any (·.stale)) then ocHeld
  else ocRun

/-- R368: a unit zeroes its bank, re-arms its lists and advances; on RUN its pass 2 opens, otherwise every completion
signal of its update commands goes out at once. -/
def Dev.msuAdvance (d : Dev) (n oc next : Nat) (incl : Bool) (u : Nat) : Dev :=
  let m := d.msu u
  let cmds := sortNat (d.updateCmds u)
  let due := if oc = ocRun then cmds else []
  let d := d.updMsu u (fun _ => { m with
    sems := m.sems.clear (msuSemKey n 0) (msuSemKey n 0 + 16), orbit := next, ran := Bank.const false, runs := [], passed := []
    voids := false, dead := false, parts := Bank.const 0
    skipped := if oc = ocRun then m.skipped else Bank.const false
    pass2 := m.pass2 ++ due, p2Orbit := if due.isEmpty then m.p2Orbit else n, patch := if m.pass2.isEmpty then 0 else m.patch
    phase := if !due.isEmpty then 3 else if oc = ocHeld then 4 else 0, held := oc == ocHeld })
  if oc = ocRun then d else cmds.foldl (fun d c => d.sendPass2Sig next incl c) d

/-- Pass 2 has nothing left to do on any unit: the run's update is complete (R234). -/
def Dev.notePass2 (d : Dev) : Dev :=
  if (List.range 16).all (fun u => (d.msu u).pass2.isEmpty) then
    { d with runs := d.runs.map (fun r => if r.outcome = 0 then r else { r with updated := true }) }
  else d

/-- The outcome of the newest run's exchange is known. -/
def Dev.settleOutcome (d : Dev) (oc : Nat) : Dev :=
  match d.exchRun with
  | none => d
  | some r =>
    let next := if oc = ocVoid then r.num else r.num + 1
    let d := d.updLast (fun r => { r with outcome := oc, voided := r.voided || oc == ocVoid, held := r.held || oc == ocHeld })
    let d := if oc = ocRun then { d with stepRef := r.stepFold } else d
    ((List.range 16).foldl (fun d u => d.msuAdvance r.num oc next (oc == ocVoid) u) d).notePass2

/-- Every record is in: norms, clip factor and outcome. -/
def Dev.settleNorms (d : Dev) (r : OrbitRun) : Dev :=
  let l := d.records
  let n := d.msuPlan.groups
  let differ := stepsDiffer l
  let oc := tableOutcome l n r.probe
  let d := { d with
    clip := clipFactor d.msuPlan.clip (root32 (jobG2 l n))
    wn := (List.range n).foldl (fun b g => b.set g (root32 (jobSum l g 1))) (Bank.const 0)
    un := (List.range n).foldl (fun b g => b.set g (root32 (jobSum l g 2))) (Bank.const 0)
    msus := (List.range 16).foldl (fun b u => b.upd u (fun m => { m with mismatch := differ })) d.msus }
  let d := d.updLast (fun r => { r with stale := r.stale || (oc != ocVoid && (differ || l.any (·.stale))) })
  d.settleOutcome oc

/-- Decide as soon as the vote has failed, or has passed with every record in (Table 12-8). A module that lacks a record at
NORM_DEADLINE runs no pass 2, which normDeadline settles. -/
def Dev.tryOutcome (d : Dev) : Dev :=
  match d.exchRun with
  | none => d
  | some r =>
    if r.outcome ≠ 0 ∨ !r.closed then d
    else if !r.passed then d.settleOutcome ocVoid
    else if d.recordsIn then d.settleNorms r
    else d

/-- NORM_STREAM is signalled once per SEND entry when the own record is formed (R373, R437). -/
def Dev.signalNorm (d : Dev) (n : Nat) : Dev :=
  if d.msuPlan.normFanout = 0 ∨ d.msuPlan.normStream = 0x3FF then d
  else d.sendSignal ⟨none, n, 2, d.msuPlan.normDie, d.msuPlan.normStream, d.msuPlan.normFanout, 0⟩

/-- Form the module's exchange record once every unit has ended pass 1 (R373). -/
def Dev.tryOwnRec (d : Dev) : Dev :=
  match d.exchRun with
  | none => d
  | some r =>
    if r.outcome ≠ 0 ∨ (d.norms.get d.plan.modIndex).isSome ∨ !(List.range 16).all (fun u => d.pass1Done u && (d.msu u).orbit == r.num) then d
    else
      let d := { d with norms := d.norms.set d.plan.modIndex (some (d.ownRec r)) }
      let d := { d with msus := (List.range 16).foldl (fun b u => b.upd u (fun m => if m.passed.isEmpty then m else { m with phase := 2 })) d.msus }
      (d.signalNorm r.num).tryOutcome

/-- NORM_DEADLINE: a module that lacks a record runs no pass 2 and starts no later orbit (R378). -/
def doNormDeadline (d : Dev) : Dev :=
  match d.exchRun with
  | none => d
  | some r =>
    if r.normClosed ∨ !d.plan.installed then d
    else
      let d := d.updLast (fun r => { r with normClosed := true })
      if r.outcome ≠ 0 then d
      else if r.closed && r.passed && d.recordsIn then d.tryOutcome
      else
        let d := { d.updLast (fun r => { r with deadline := true }) with restrict := some (d.restrict.getD 0x23) }
        let n := r.num
        let d := d.updLast (fun r => { r with outcome := 4 })
        ((List.range 16).foldl (fun d u => d.msuAdvance n 4 (n + 1) false u) d).notePass2

/-! UPDATE and UPDATE_VEC (R373). -/

/-- Run pass 1 of the update engine's next command when it is of the row's OP. -/
def runUpdate (d : Dev) (u op : Nat) (mismatch : Bool) : Dev :=
  let m := d.msu u
  match d.headCmd op m.runs with
  | none => d
  | some (q, c) =>
    if m.fenced || m.dead || !m.pass2.isEmpty then d
    else if mismatch then
      (if m.repeatUpd then
        ((((d.updMsu u (fun m => { m with repeatUpd := false })).msuDone u q c stPersistent).persistent (unitMsu u) 0 c 0).msuDead u).tryOwnRec
       else d.updMsu u (fun m => { m with repeatUpd := true, cmd := c }))
    else
      let d := if m.repeatUpd then (d.updMsu u (fun m => { m with repeatUpd := false })).transient (unitMsu u) 0 c 0 else d
      (d.pass1 u q c).tryOwnRec

def doUpdate (d : Dev) (u : Nat) (mismatch : Bool) : Dev := runUpdate d u opUpdate mismatch
def doUpdateVec (d : Dev) (u : Nat) (mismatch : Bool) : Dev := runUpdate d u opUpdateVec mismatch

/-! Pass 2 (R383 to R392). -/

/-- Write a value of a compressed tensor in place (R115, R116). -/
def tileStore (d : Dev) (v : View) (slot i x : Nat) : List WItem :=
  let w := fmtBits v.fmt
  if w = 8 then [⟨tileAddr d 0 v slot (32896 + i), 0xFF, BitVec.ofNat 8 x⟩]
  else if w = 16 then wBytes (tileAddr d 0 v slot (32896 + 2 * i)) 2 x
  else
    (List.range w).map (fun p => ⟨tileAddr d 0 v slot (32896 + 128 * w * (i / 1024) + i % 1024 / 8 + 128 * p),
      BitVec.ofNat 8 (2 ^ (i % 8)), BitVec.ofNat 8 (x / 2 ^ p % 2 * 2 ^ (i % 8))⟩)

/-- One block of a compressed column: rows of k and their values. The scale byte and the elements of its occupied rows. -/
def tileBlock (d : Dev) (v : View) (n : Nat) (l : List (Nat × FVal)) : List WItem :=
  match l with
  | [] => []
  | x :: _ =>
    let slot := tileSlot v n (x.1 / 512)
    let idx (k : Nat) : Nat := (tileIndex d v n k).getD 0
    let rd (k : Nat) : Rounding := v.rounding d (v.elemIndex (v.posOf n k)).toNat
    if isScaled v.fmt then
      let sc := blockScale v.fmt (l.map (·.2))
      ⟨tileScaleAddr d 0 v slot (n % 512) (x.1 % 512 / 32), 0xFF, sc⟩ ::
        (l.map (fun y => tileStore d v slot (idx y.1) (blockElem v.fmt sc (rd y.1) y.2).1)).flatten
    else (l.map (fun y => tileStore d v slot (idx y.1) (convIeee v.fmt (rd y.1) y.2))).flatten

/-- Items of a copy: values at rows `r` and columns `c` of the copy's own matrix, rows in ascending order. -/
def copyItems (d : Dev) (v : View) (l : List (Nat × Nat × W32)) : List WItem :=
  if v.layout = 2 then
    let l := l.filter (fun x => (tileIndex d v x.1 x.2.1).isSome)
    let keys := dedupAdj (l.map (fun x => x.1 * 2 ^ 40 + x.2.1 / 32))
    (keys.map (fun b => tileBlock d v (b / 2 ^ 40) ((l.filter (fun x => x.1 * 2 ^ 40 + x.2.1 / 32 == b)).map
      (fun x => (x.2.1, f32 x.2.2))))).flatten
  else (storeVals d 0 v (realVals v (l.map (fun x => (v.posOf x.1 x.2.1, f32 x.2.2))))).1

/-- Patches of a command (R392). -/
def patchCount (o : UpdOps) (rule block : Nat) : Nat :=
  let s := if rule = 4 then max 1 block else 32
  ((o.n + s - 1) / s) * ((o.k + s - 1) / s)

/-- First row, first column, rows and columns of patch p. -/
def patchAt (o : UpdOps) (rule block p : Nat) : Nat × Nat × Nat × Nat :=
  let s := if rule = 4 then max 1 block else 32
  let kb := (o.k + s - 1) / s
  let r := p / kb * s
  let c := p % kb * s
  (r, c, min s (o.n - r), min s (o.k - c))

/-- Everything one patch computes before its writes: new values at its visited positions, statistics, retries, fall-back. -/
structure PatchOut where
  /-- (n, k, master, first moment, second moment). -/
  vals : List (Nat × Nat × W32 × W32 × W32)
  stats : List (Nat × W32)
  retries : Nat
  fallback : Bool

/-- ROWSUM and COLSUM of element i of the norm record. -/
def Dev.factorSum (d : Dev) (a i : Nat) : W32 := BitVec.ofNat 32 (memRead d.ms.mem (a + 64 + 4 * i) 4)

/-- New row and column statistics of a FACTORED command: element i. -/
def Dev.factorStat (d : Dev) (k : UpdConst) (a : Nat) (aux : Option View) (i : Nat) : W32 :=
  k.stat (match aux with
    | some v => flat32 d v i
    | none => 0) (d.factorSum a i)

/-- Offset of block (bi, bj) in AUX (R389). -/
def statBase (o : UpdOps) (block bi bj b : Nat) : Nat := bi * ((o.k + block - 1) / block) * block * block + bj * b * b

/-- The directions of a PRECOND block, with S′, retries and fall-back. -/
def Dev.precond (d : Dev) (k : UpdConst) (o : UpdOps) (rb : BitVec 512) (r c b cols : Nat) : Bank W32 × Bank W32 × Nat × Bool :=
  let block := max 1 (rbBlock rb)
  let base := statBase o block (r / block) (c / block) b
  let cell (f : Nat → Nat → W32) (rows cs : Nat) : Bank W32 :=
    (List.range rows).foldl (fun o i => (List.range cs).foldl (fun o j => o.set (mat i j) (f i j)) o) (Bank.const 0)
  let gc := cell (fun i j => if visits d o.w (r + i) (c + j) then mulF32 k.c (at32 d o.g (r + i) (c + j)) else 0) b cols
  let m := cell (fun i j => if visits d o.w (r + i) (c + j) then k.mAdam (atOpt d o.m1 (r + i) (c + j)) (gc.get (mat i j)) else 0) b cols
  let s := cell (fun i j => match o.aux with
    | some v => flat32 d v (base + b * i + j)
    | none => 0) b b
  precondBlock k (rbField rb 7) s gc m b cols

/-- Compute patch p of command c. -/
def Dev.patchOut (d : Dev) (u c p : Nat) (o : UpdOps) (k : UpdConst) : PatchOut :=
  let e := d.ucmd c
  let rb := d.msuPlan.rules.get (ueBlock e)
  let a := d.normAddr u c
  let x := patchAt o (ueRule e) (rbBlock rb) p
  let ps := ((List.range x.2.2.1).map (fun i => (List.range x.2.2.2).map (fun j => (x.1 + i, x.2.1 + j)))).flatten
    |>.filter (fun y => visits d o.w y.1 y.2)
  let pre : Bank W32 × Bank W32 × Nat × Bool :=
    if ueRule e = 4 then d.precond k o rb x.1 x.2.1 x.2.2.1 x.2.2.2 else (Bank.const 0, Bank.const 0, 0, false)
  let sr := if ueRule e = 3 then sum32 ((List.range o.n).map (d.factorStat k a o.aux)) else 0
  let given (n kk : Nat) : W32 :=
    if ueRule e = 3 then k.factored (at32 d o.g n kk) (d.factorStat k a o.aux n) (d.factorStat k a o.aux (o.n + kk)) sr
    else pre.2.1.get (mat (n - x.1) (kk - x.2.1))
  let block := max 1 (rbBlock rb)
  { vals := ps.map (fun y =>
      let w := at32 d o.master y.1 y.2
      let r := k.direction (at32 d o.g y.1 y.2) (atOpt d o.m1 y.1 y.2) (atOpt d o.m2 y.1 y.2) (given y.1 y.2)
      (y.1, y.2, k.newW w r.2.2, r.1, r.2.1))
    stats := if ueRule e = 4 then
        ((List.range x.2.2.1).map (fun i => (List.range x.2.2.1).map (fun j =>
          (statBase o block (x.1 / block) (x.2.1 / block) x.2.2.1 + x.2.2.1 * i + j, pre.1.get (mat i j))))).flatten
      else if ueRule e = 3 ∧ p + 1 = patchCount o 3 block then
        (List.range (o.n + o.k)).map (fun i => (i, d.factorStat k a o.aux i))
      else []
    retries := pre.2.2.1
    fallback := pre.2.2.2 }

/-- Addresses that a patch reads. -/
def Dev.patchAddrs (d : Dev) (u c : Nat) (o : UpdOps) (vals : List (Nat × Nat × W32 × W32 × W32)) : List Nat :=
  let views := [o.g, o.master] ++ o.m1.toList ++ o.m2.toList
  addrRun (d.normAddr u c) 12 ++ (views.map (fun v => (vals.map (fun p => readAddrs d 0 v (v.posOf p.1 p.2.1))).flatten)).flatten

/-- The same list of values by ascending column, then row: the order in which WT holds them. -/
def byColumn (cols : List Nat) (l : List (Nat × Nat × W32)) : List (Nat × Nat × W32) :=
  (cols.map (fun k => (l.filter (fun x => x.2.1 == k)).map (fun x => (x.2.1, x.1, x.2.2)))).flatten

/-- New master values, first moments and second moments of a patch. -/
def PatchOut.masters (r : PatchOut) : List (Nat × Nat × W32) := r.vals.map (fun x => (x.1, x.2.1, x.2.2.1))
def PatchOut.firsts (r : PatchOut) : List (Nat × Nat × W32) := r.vals.map (fun x => (x.1, x.2.1, x.2.2.2.1))
def PatchOut.seconds (r : PatchOut) : List (Nat × Nat × W32) := r.vals.map (fun x => (x.1, x.2.1, x.2.2.2.2))

/-- Make a patch's writes in the order master, moments, statistics, W, WT (R373, R392). -/
def Dev.patchWrites (d : Dev) (o : UpdOps) (r : PatchOut) (poison : Bool) : Dev :=
  let w := r.masters
  let d := d.write (copyItems d o.master w) poison
  let d := match o.m1 with
    | some v => d.write (copyItems d v r.firsts) poison
    | none => d
  let d := match o.m2 with
    | some v => d.write (copyItems d v r.seconds) poison
    | none => d
  let d := match o.aux with
    | some v => d.write (flatItems d v r.stats) poison
    | none => d
  let d := d.write (copyItems d o.w w) poison
  match o.wt with
  | some v => d.write (copyItems d v (byColumn (sortNat (dedupAdj (sortNat (w.map (·.2.1))))) w)) poison
  | none => d

/-- The head command's pass 2 has ended: its signal goes out, and the next command's pass 2 opens (R373, R392). -/
def Dev.endPass2 (d : Dev) (u c : Nat) : Dev :=
  let n := (d.msu u).p2Orbit
  let d := d.updMsu u (fun m => { m with
    pass2 := m.pass2.drop 1, patch := 0, cmd := c, skipped := m.skipped.set c false, lastStatus := stDone
    phase := if m.pass2.length ≤ 1 then 0 else 3 })
  (d.sendPass2Sig (n + 1) false c).notePass2

/-- STEP + 1, POW1 and POW2 go to the state record (R392). -/
def Dev.putState (d : Dev) (u c : Nat) (k : UpdConst) : Dev :=
  let a := d.normAddr u c
  d.write (wBytes a 4 (memRead d.ms.mem a 4 + 1) ++ wBytes (a + 4) 4 k.pow1.toNat ++ wBytes (a + 8) 4 k.pow2.toNat) false

/-- One patch of the head command of pass 2. -/
def Dev.runPatch (d : Dev) (u c : Nat) (r : OrbitRun) : Dev :=
  let m := d.msu u
  let o := d.updOps (d.ucmd c)
  let rb := d.msuPlan.rules.get (ueBlock (d.ucmd c))
  let k := d.updConst u c d.clip r.stepValue
  let total := patchCount o (ueRule (d.ucmd c)) (rbBlock rb)
  if m.skipped.get c then d.endPass2 u c
  else
    let x := d.patchOut u c m.patch o k
    let t := d.touch (d.patchAddrs u c o x.vals)
    let d := t.1.patchWrites o x t.2
    let d := d.updMsu u (fun m => { m with
      patch := m.patch + 1, cmd := c, retries := satAdd 0xFFFF m.retries x.retries
      fallbacks := satAdd 0xFFFF m.fallbacks (if x.fallback then 1 else 0), fallback := m.fallback || x.fallback })
    let d := if x.fallback then { d with runs := updRun r.num (fun r => { r with fallbacks := r.fallbacks + 1 }) d.runs } else d
    if total ≤ m.patch + 1 then (d.putState u c k).endPass2 u c else d

/-- Pass 2 ends early on the module (R394): every completion signal not yet sent goes out, and the orbit ends with a status. -/
def Dev.breakPass2 (d : Dev) (n st : Nat) : Dev :=
  let d := { d with restrict := some (BitVec.ofNat 8 st), runs := updRun n (fun r => { r with endStatus := some (r.endStatus.getD st) }) d.runs }
  let d := (List.range 16).foldl (fun d u =>
    let m := d.msu u
    let d := d.updMsu u (fun m => { m with pass2 := [], patch := 0, skipped := Bank.const false, phase := 0 })
    m.pass2.foldl (fun d c => d.sendPass2Sig (n + 1) false c) d) d
  d.notePass2

/-- UPDATE_PASS2: one patch of the unit's next command (R373, R392, R394). -/
def doUpdatePass2 (d : Dev) (u : Nat) (mismatch : Bool) : Dev :=
  let m := d.msu u
  match m.pass2 with
  | [] => d
  | c :: _ =>
    match findRun m.p2Orbit d.runs with
    | none => d
    | some r =>
      if m.fenced then d
      else if mismatch then
        (if m.repeatUpd then
          ((d.updMsu u (fun m => { m with repeatUpd := false, lastStatus := stPersistent, cmdError := true })).persistent (unitMsu u) 0 c 0).breakPass2
            m.p2Orbit 0x21
         else d.updMsu u (fun m => { m with repeatUpd := true, cmd := c }))
      else
        let d := if m.repeatUpd then (d.updMsu u (fun m => { m with repeatUpd := false })).transient (unitMsu u) 0 c 0 else d
        d.runPatch u c r

/-! SMUL (R395 to R399). -/

/-- R396 and the shapes of R395. -/
def smulBad (w x y : View) (first count : Nat) (acc : Bool) : Bool :=
  !((isScaled w.fmt && isScaled x.fmt) || (is16 w.fmt && is16 x.fmt)) || w.layout == 1 || x.rows == 0 || decide (8 < x.rows)
    || decide (1048576 * 8 < x.rows * x.inner * fmtBits x.fmt) || (acc && y.fmt != 0) || decide (w.rows < first + count)
    || decide (y.inner < first + count) || x.inner != w.inner || y.rows != x.rows || !y.wr || y.layout == 2

/-- The result of one column and one vector (R397, R398). -/
def smulValue (d : Dev) (w x y : View) (c : BitVec 512) (n v : Nat) : FVal :=
  let rows := if w.layout = 2 then 512 else 128
  let kt := (w.inner + rows - 1) / rows
  let pair (i : Nat) : W32 :=
    let a := ueTscale c + 8 * (n / 512 * kt + i)
    tileT (BitVec.ofNat 32 (paramNum d a 4)) (BitVec.ofNat 32 (paramNum d (a + 4) 4))
  let p := if ueAcc c then at32 d y v n else 0
  f32 (dotPasses d 0 w x n v rows w.inner pair 0 kt p)

/-- SMUL: the command's status, the fault behind it, and the state it leaves. -/
def smulCmd (d : Dev) (u c : Nat) : Dev × Byte :=
  let e := d.ucmd c
  let q : Req := .msu u
  let w := d.listView (ueWDesc e)
  let x := d.listView (ueGDesc e)
  let y := d.listView (ueMaster e)
  let first := ueNFirst e
  let cnt := ueNCount e
  let fail (f : Nat × Nat × Int) : Dev × Byte := (d.segFault q f.1 f.2.1 f.2.2, stSegment)
  let rows := if w.layout = 2 then 512 else 128
  let kt := (w.inner + rows - 1) / rows
  if smulBad w x y first cnt (ueAcc e) then (d, stDesc)
  else
    match firstRunFault d q false [w, x], firstRunFault d q true [y], frozenFault d [y],
      (if kt = 0 then none else paramFault d q false (ueTscale e) (8 * kt * ((first + cnt + 511) / 512))) with
    | some f, _, _, _ => fail f
    | none, some f, _, _ => fail f
    | none, none, some f, _ => fail f
    | none, none, none, some f => fail f
    | none, none, none, none =>
      if w.inner = 0 ∧ ueAcc e then (d, stDone)
      else
        let ns := (List.range cnt).map (first + ·)
        let t := d.touch (((List.range x.rows).map (fun v => (ns.map (fun n => dotAddrs d 0 w x n v w.inner
          ++ (if ueAcc e then readAddrs d 0 y (y.posOf v n) else []))).flatten)).flatten)
        let vals := ((List.range x.rows).map (fun v => ns.map (fun n => (y.posOf v n, smulValue t.1 w x y e n v)))).flatten
        (t.1.write (storeVals t.1 0 y (realVals y vals)).1 t.2, stDone)

/-- SMUL row: the stream multiplier's next command. A mismatch repeats it once (R399). -/
def doSmul (d : Dev) (u : Nat) (mismatch : Bool) : Dev :=
  let m := d.msu u
  match d.headCmd opSmul m.runs with
  | none => d
  | some (q, c) =>
    if m.fenced || m.dead then d
    else if mismatch then
      (if m.repeatMul then
        ((((d.updMsu u (fun m => { m with repeatMul := false })).msuDone u q c stPersistent).persistent (unitMsu u) 0 c 0).msuDead u).tryOwnRec
       else d.updMsu u (fun m => { m with repeatMul := true }))
    else
      let d := if m.repeatMul then (d.updMsu u (fun m => { m with repeatMul := false })).transient (unitMsu u) 0 c 0 else d
      let r := smulCmd d u c
      let d := r.1.msuDone u q c r.2
      if stopsLc r.2 then d else d.sendCmdSig c m.orbit 0

end Sys2Proof.Machine
end

