-- ==== Sys2Proof/Machine/FabricOps.lean ====
section
/-! DEFINITION. The fabric: the link schedule, the windows, scheduled and best-effort transfers at both ends, retries, misses
and regions, and the links' own states (R401 to R432). -/
namespace Sys2Proof.Machine

/-! Units of time. Job time counts sixteenths of a nanosecond (R410). -/

/-- One tick of 5 ns (R401). -/
def tickT : Nat := 80
/-- One control period of 10 us. -/
def slotT : Nat := 160000
/-- One microsecond. -/
def usT : Nat := 16000
/-- GUARD (R419). -/
def guardTicks : Nat := 4

/-- Move time forward to an instant, never back. -/
def Dev.advanceTo (d : Dev) (t : Nat) : Dev := { d with time := max d.time t }
def State.advanceTo (s : State) (t : Nat) : State := { s with dev := s.dev.advanceTo t }

/-- Tick t of an orbit is usable: it lies in no control reservation (R416). -/
def isUsable (t : Nat) : Bool := decide (8 ≤ t % 2000)

/-- Usable ticks below t, and the i-th usable tick. -/
def usableBefore (t : Nat) : Nat := 1992 * (t / 2000) + (t % 2000 - 8)
def tickOfUsable (i : Nat) : Nat := 2000 * (i / 1992) + 8 + i % 1992

/-- First tick after a window of n usable ticks from `off` on (R419). -/
def windowEnd (off n : Nat) : Nat := if n = 0 then off else tickOfUsable (usableBefore off + n - 1) + 1

/-! Schedule entries (Table 13-7). -/

def seOffset (e : BitVec 256) : Nat := bitsOf e 255 225
def seLink (e : BitVec 256) : Nat := bitsOf e 224 220
def seRecv (e : BitVec 256) : Bool := bitOf e 219
def seClass (e : BitVec 256) : Nat := bitsOf e 218 217
def seEndpoint (e : BitVec 256) : Nat := bitsOf e 216 215
def seStream (e : BitVec 256) : Nat := bitsOf e 214 205
def seSet (e : BitVec 256) : Nat := bitsOf e 204 197
def seLength (e : BitVec 256) : Nat := bitsOf e 191 168
def seSlack (e : BitVec 256) : Nat := bitsOf e 167 152
def seDesc (e : BitVec 256) : Nat := bitsOf e 151 136
def seRegion (e : BitVec 256) : Nat := bitsOf e 135 119
def seFreeBy (e : BitVec 256) : Nat := bitsOf e 118 88
/-- SIG, read with the field functions of SIGNAL. -/
def seSig (e : BitVec 256) : IWord := BitVec.ofNat 128 (bitsOf e 87 51 * 256)

def seSched (e : BitVec 256) : Bool := seClass e == 0
def seEnd (e : BitVec 256) : Nat := windowEnd (seOffset e) (seLength e + 1 + seSlack e)

def State.sch (s : State) (io : Nat) : SchedPlan := s.fab.sched.get io
def State.entry (s : State) (io i : Nat) : BitVec 256 := (s.sch io).entries.get i

/-- Module m is a member of set k of an IO die; set 0 names every module (R417). -/
def SchedPlan.inSet (p : SchedPlan) (k m : Nat) : Bool := k == 0 || (p.sets.get k).getLsbD m

/-- Entry i of an IO die is active on this module (R418). -/
def State.active (s : State) (io i : Nat) : Bool :=
  decide (i < (s.sch io).count) && (s.sch io).inSet (seSet (s.entry io i)) s.dev.plan.modIndex

/-- Link number of an entry over the module. -/
def State.linkOf (s : State) (io i : Nat) : Nat := 24 * io + seLink (s.entry io i)

/-- Active entries of an IO die on a link, in table order. -/
def State.entriesOn (s : State) (link : Nat) (recv : Bool) : List Nat :=
  (List.range (s.sch (link / 24)).count).filter (fun i =>
    s.active (link / 24) i && s.linkOf (link / 24) i == link && seRecv (s.entry (link / 24) i) == recv)

def State.orbitTicks (s : State) : Nat := (s.sch 0).orbitTicks
def State.rttMax (s : State) (io : Nat) : Nat := (s.sch io).rttMax

def State.link (s : State) (l : Nat) : Link := s.fab.links.get l
def State.updLink (s : State) (l : Nat) (f : Link → Link) : State := { s with fab := { s.fab with links := s.fab.links.set l (f (s.fab.links.get l)) } }
def State.updRegs (s : State) (io : Nat) (f : OrbRegs → OrbRegs) : State := { s with fab := { s.fab with regs := s.fab.regs.set io (f (s.fab.regs.get io)) } }
def State.mapDev (s : State) (f : Dev → Dev) : State := { s with dev := f s.dev }

/-- Something that Moonlet reports to the chassis. -/
def State.event (s : State) : State := { s with moon := { s.moon with events := s.moon.events + 1 } }

/-! Topology and the time tree (R417, R427). -/

def tpValid (e : W32) : Bool := bitOf e 31
def tpModule (e : W32) : Nat := bitsOf e 26 16
def tpLink (e : W32) : Nat := bitsOf e 13 8

/-- Topology entry of link l of module m. -/
def State.topo (s : State) (m l : Nat) : W32 := (s.sch (l / 24)).topo.get (24 * m + l % 24)
def State.timeParent (s : State) (m : Nat) : Nat := bitsOf ((s.sch 0).times.get m) 5 0
def State.timeBackup (s : State) (m : Nat) : Nat := bitsOf ((s.sch 0).times.get m) 13 8
def State.isRoot (s : State) : Bool := s.dev.plan.modIndex == (s.sch 0).root

/-- Links of this module to its neighbours in the time tree. -/
def State.treeLinks (s : State) : List Nat :=
  let m := s.dev.plan.modIndex
  (List.range 48).filter (fun l =>
    let t := s.topo m l
    tpValid t && ((!s.isRoot && s.timeParent m == l) || (tpModule t != (s.sch 0).root && s.timeParent (tpModule t) == tpLink t)))

/-! Runs and ticks. -/

/-- The orbit whose schedule runs: the newest, until its last tick. -/
def Dev.curRun (d : Dev) : Option OrbitRun :=
  match d.runs.getLast? with
  | some r => if r.ended then none else some r
  | none => none

/-- Tick of an orbit at a time, shifted by a delay; none before the orbit's start. -/
def OrbitRun.tickAt (r : OrbitRun) (t delay : Nat) : Option Nat := if t < r.start + delay then none else some ((t - r.start - delay) / tickT)

/-! Transfers. -/

def Xfer.blank (io entry : Nat) (r : OrbitRun) : Xfer :=
  { io := io, entry := entry, orbit := r.num, slot := r.slot, stage := .waiting, next := 0, naks := [], again := Bank.const false
    trailer := false, idle := false, signalled := false, payload := [], ordinal := 0, got := Bank.const false, bad := Bank.const false
    trailerIn := none, held := false, frames := Bank.const 0 }

def Xfer.is (x : Xfer) (io entry : Nat) (r : OrbitRun) : Bool := x.io == io && x.entry == entry && x.slot == r.slot && x.orbit == r.num

/-- The transfer of an entry in an orbit. -/
def State.xfer (s : State) (io entry : Nat) (r : OrbitRun) : Xfer :=
  match s.fab.xfers.find? (fun x => x.is io entry r) with
  | some x => x
  | none => Xfer.blank io entry r

def putXferIn (x : Xfer) : List Xfer → List Xfer
  | [] => [x]
  | y :: r => if y.io = x.io ∧ y.entry = x.entry ∧ y.slot = x.slot ∧ y.orbit = x.orbit then x :: r else y :: putXferIn x r

def State.putXfer (s : State) (x : Xfer) : State := { s with fab := { s.fab with xfers := putXferIn x s.fab.xfers } }

/-- Send a completion signal in the layout of bits [44:8] of Table 8-18, in the bank of orbit n. -/
def Dev.sendSig (d : Dev) (w : IWord) (n : Nat) : Dev :=
  if sgInc w = 0 ∨ !sgInRange w then d else d.sendSignal ⟨none, n, sgTkind w, sgTnum w, sgSem w, sgInc w, 0⟩

/-- SIG of an entry. -/
def State.sendEntrySig (s : State) (x : Xfer) : State := s.mapDev (·.sendSig (seSig (s.entry x.io x.entry)) x.orbit)

/-- Ordinal of a best-effort entry on its direction (Table 13-3): its place among them in table order. -/
def State.ordinal (s : State) (io i : Nat) : Nat :=
  ((s.entriesOn (s.linkOf io i) (seRecv (s.entry io i))).filter (fun j => j < i && !seSched (s.entry io j))).length

/-! Authentication (R407, Table 13-3). -/

/-- Initial value of an entry's transfer. -/
def State.xferIv (s : State) (io i : Nat) (r : OrbitRun) : List Byte :=
  let e := s.entry io i
  beBytes 12 (r.epoch * 2 ^ 56 + (if seSched e then seOffset e * 2 ^ 23 else 2 ^ 54 + s.ordinal io i))

/-- Additional authenticated data: OFFSET, STREAM and LENGTH. -/
def entryAad (e : BitVec 256) : List Byte := leBytes 4 (seOffset e) ++ leBytes 2 (seStream e) ++ leBytes 3 (seLength e)

def keyBytes (k : BitVec 256) : List Byte := leBytes 32 k.toNat

/-- Keystream of payload frame i of a transfer. -/
def frameStream (key : BitVec 256) (iv : List Byte) (i : Nat) : BitVec 4096 :=
  BitVec.ofNat 4096 (leNat (gcmStream (aesKeys (keyBytes key)) iv (2 + 32 * i) 32))

/-- Trailer payload: tag, EPOCH, OFFSET, STREAM and LENGTH. -/
def trailerPayload (tag : List Byte) (epoch : Nat) (e : BitVec 256) : BitVec 4096 :=
  BitVec.ofNat 4096 (leNat (tag ++ leBytes 5 epoch ++ entryAad e))

/-! Sending. -/

/-- Address of payload byte 512 i of a MEMORY entry. -/
def Dev.frameAddr (d : Dev) (e : BitVec 256) (i : Nat) : Nat :=
  let v := d.listView (seDesc e)
  segAddr d 0 0 v.seg (4 * v.offset.toNat + 512 * i)

/-- Plaintext of payload frame i. -/
def State.plainFrame (s : State) (x : Xfer) (i : Nat) : BitVec 4096 :=
  let e := s.entry x.io x.entry
  if seEndpoint e = 0 then BitVec.ofNat 4096 (memRead s.dev.ms.mem (s.dev.frameAddr e i) 512)
  else
    let data := if x.payload.isEmpty then s.fab.red.relay.get (1024 * x.io + seStream e) else x.payload
    BitVec.ofNat 4096 (leNat ((data.drop (512 * i)).take 512))

/-- The exchange record as bytes (Table 12-9). -/
def NormRec.bytes (r : NormRec) (module groups : Nat) : List Byte :=
  leBytes 4 module ++ leBytes 4 r.orbit ++ leBytes 4 r.step.toNat
    ++ leBytes 4 ((if r.freshReq then 4 else 0) + (if r.stale then 2 else 0) + (if r.void then 1 else 0)) ++ leBytes 16 0
    ++ ((List.range (3 * groups)).map (fun i => leBytes 8 (r.sums.get i).toNat)).flatten

/-- The header of a COLLECTIVE transfer (Table 14-4). -/
def collHeader (kind : Nat) (probe : Bool) (bucket origin orbit records : Nat) : List Byte :=
  leBytes 4 (kind * 2 ^ 28 + (if probe then 2 ^ 27 else 0) + bucket) ++ leBytes 4 origin ++ leBytes 4 orbit ++ leBytes 4 records
    ++ leBytes 48 0

/-- Pad to the next multiple of n bytes. -/
def padTo (n : Nat) (l : List Byte) : List Byte := l ++ List.replicate ((n - l.length % n) % n) 0

/-- Payload that a SEND takes at its start (R420, R439): the module's own exchange record. A staged block is read from the
staging buffer of its stream while it is sent. -/
def State.stagedPayload (s : State) (io i : Nat) : List Byte :=
  let e := s.entry io i
  let own : List Byte := match s.dev.norms.get s.dev.plan.modIndex with
    | some r => r.bytes s.dev.plan.modIndex s.dev.msuPlan.groups
    | none => []
  let staged := s.fab.red.relay.get (1024 * io + seStream e)
  if seEndpoint e = 2 then own
  else if seStream e = s.dev.msuPlan.normStream ∧ io = s.dev.msuPlan.normDie ∧ staged.isEmpty then
    collHeader 4 false 0 s.dev.plan.modIndex s.dev.curOrbit 1 ++ own
  else []

/-- A SEND on the same stream, earlier in the table, that still waits and whose OFFSET has come takes the count first
(Table 13-11). -/
def State.earlierWaits (s : State) (io i tick : Nat) (r : OrbitRun) : Bool :=
  (List.range i).any (fun j =>
    let e := s.entry io j
    s.active io j && !seRecv e && seStream e == seStream (s.entry io i) && decide (seOffset e ≤ tick)
      && (s.xfer io j r).stage == .waiting
      && (!seSched e || decide (seLength e + 1 + s.rttMax io ≤ usableBefore (seEnd e) - usableBefore tick)))

/-- The module sends scheduled and best-effort frames: it is not LOST (R413). -/
def State.mayUse (s : State) (l : Nat) : Bool := s.fab.tb.state != 4 && (s.link l).state == 2 && !(s.link l).fenced && (s.link l).keys.isSome

/-- A SEND starts (R420, R424, R484); `prepare` is what the collective engine does for the stream at that moment. -/
def startSend (prepare : State → State) (s : State) (io i : Nat) : State :=
  match s.dev.curRun with
  | none => s
  | some r =>
    let e := s.entry io i
    let x := s.xfer io i r
    if !s.active io i || seRecv e || x.stage != .waiting then s
    else
      let s := s.advanceTo (r.start + tickT * seOffset e)
      let tick := (s.dev.time - r.start) / tickT
      let k := streamKey io r.num (seStream e)
      let sem := (s.dev.streamSems.get k).toNat
      let room := !seSched e || decide (seLength e + 1 + s.rttMax io ≤ usableBefore (seEnd e) - usableBefore tick)
      if sem = 0 || !room || !s.mayUse (s.linkOf io i) || s.earlierWaits io i tick r || (s.fab.regs.get io).fenced then s
      else
        let s := s.mapDev (fun d => { d with streamSems := d.streamSems.set k (BitVec.ofNat 16 (sem - 1)) })
        let t := if seEndpoint e = 0 then s.dev.touch (addrRun (s.dev.frameAddr e 0) (512 * seLength e)) else (s.dev, false)
        let s := prepare { s with dev := t.1 }
        let s := if t.2 then s.updRegs io (fun g => { g with sendMissed := satAdd 0xFFFF g.sendMissed 1 }) else s
        s.putXfer { x with stage := .running, idle := t.2, payload := if seEndpoint e = 0 then [] else s.stagedPayload io i
                           ordinal := s.ordinal io i }

/-- No SCHEDULED window of the direction, with GUARD, covers a tick (R424). -/
def State.openForBe (s : State) (link tick : Nat) : Bool :=
  (s.entriesOn link false).all (fun i =>
    let e := s.entry (link / 24) i
    !seSched e || decide (tick + guardTicks < seOffset e) || decide (seEnd e + guardTicks ≤ tick))

/-- The SEND that a direction serves in a tick: the running scheduled one, else the first best-effort one that may go. -/
def State.sendNow (s : State) (link tick : Nat) (r : OrbitRun) : Option Xfer :=
  let l := (s.entriesOn link false).map (fun i => s.xfer (link / 24) i r)
  let e (x : Xfer) : BitVec 256 := s.entry x.io x.entry
  match l.find? (fun x => seSched (e x) && x.stage == .running && !x.idle && decide (tick < seEnd (e x))) with
  | some x => some x
  | none =>
    if 0 < (s.link link).credits ∧ s.openForBe link tick then l.find? (fun x => !seSched (e x) && x.stage == .running && !x.idle)
    else none

/-- Frame header (Table 13-2). -/
def frameHeader (type frame : Nat) (nak : Option Nat) (credits : Nat) : W64 :=
  BitVec.ofNat 64 (type * 2 ^ 61 + frame % 2 ^ 24 * 2 ^ 37 + (match nak with
    | some k => 2 ^ 36 + k % 2 ^ 24 * 2 ^ 12
    | none => 0) + credits * 4)

/-- A frame leaves on a direction: type, index and payload; the reports and credits that it carries go with it. -/
def State.putFrame (s : State) (link type frame : Nat) (data : BitVec 4096) : State :=
  s.updLink link (fun l => { l with
    lastTick := some (s.dev.time / tickT)
    outHdr := frameHeader type frame l.nakOut.head? (min 1023 l.owed)
    outData := data
    nakOut := l.nakOut.drop 1
    owed := l.owed - min 1023 l.owed })

/-- A SEND has sent its trailer and every reported frame: its slack is recorded and SIG goes out once (R421, ORB_SLACK). -/
def State.endSend (s : State) (x : Xfer) (tick : Nat) : State :=
  let e := s.entry x.io x.entry
  let left := usableBefore (seEnd e) - usableBefore (tick + 1)
  let s := if seSched e ∧ left < (s.fab.regs.get x.io).minSlack then
      s.updRegs x.io (fun g => { g with minSlack := left, slackEntry := x.entry, slackAlert := g.slackAlert || decide (left < g.alertTicks) })
    else s
  let s := if x.signalled then s else s.sendEntrySig x
  s.putXfer { x with stage := .passed, signalled := true }

/-- Send the next frame of a transfer: payload, trailer, then each reported frame once more in ascending index (R409). -/
def State.sendFrame (s : State) (link tick : Nat) (r : OrbitRun) (x : Xfer) : State :=
  let e := s.entry x.io x.entry
  let key := match (s.link link).keys with
    | some k => k.1
    | none => 0
  let iv := s.xferIv x.io x.entry r
  let be := !seSched e
  let cipher (i : Nat) : BitVec 4096 := s.plainFrame x i ^^^ frameStream key iv i
  let trailer : BitVec 4096 := trailerPayload
    (gcmTag (keyBytes key) iv (entryAad e) ((List.range (seLength e)).map (fun i => leBytes 512 (cipher i).toNat)).flatten) r.epoch e
  let s := if be then s.updLink link (fun l => { l with credits := l.credits - 1 }) else s
  if x.next < seLength e then
    (s.putFrame link (if be then 4 else 1) x.next (cipher x.next)).putXfer { x with next := x.next + 1 }
  else if !x.trailer then
    let s := s.putFrame link (if be then 5 else 2) (seLength e) trailer
    let x := { x with trailer := true }
    if x.naks.isEmpty then s.endSend x tick else s.putXfer x
  else
    match x.naks with
    | [] => s.endSend x tick
    | k :: rest =>
      let s := s.putFrame link 3 k (if k < seLength e then cipher k else trailer)
      let s := s.updLink link (fun l => { l with retries := satAdd 0xFFFF l.retries 1 })
      let x := { x with naks := rest, again := x.again.set k true }
      if rest.isEmpty then s.endSend x tick else s.putXfer x

/-- LINK_TICK: an UP direction sends one frame in the current tick (R405). -/
def doLinkTick (s : State) (link : Nat) : State :=
  let l := s.link link
  if l.state ≠ 2 || l.fenced || l.lastTick == some (s.dev.time / tickT) then s
  else
    let idle := s.putFrame link 0 0 0
    match s.dev.curRun with
    | none => idle
    | some r =>
      match r.tickAt s.dev.time 0 with
      | none => idle
      | some tick =>
        if !isUsable (s.dev.time / tickT) || !s.mayUse link || (s.fab.regs.get (link / 24)).fenced then idle
        else
          match s.sendNow link tick r with
          | none => idle
          | some x => s.sendFrame link tick r x

/-! Receiving. -/

/-- A SEND of this module that a NAK may name: its window still has ticks, or it is best effort. -/
def State.nakTarget (s : State) (link : Nat) (r : OrbitRun) : Option Xfer :=
  let l := ((s.entriesOn link false).map (fun i => s.xfer (link / 24) i r)).filter (fun x => x.stage == .running || x.stage == .passed)
  let e (x : Xfer) : BitVec 256 := s.entry x.io x.entry
  let tick := (s.dev.time - r.start) / tickT
  match l.find? (fun x => seSched (e x) && decide (seOffset (e x) ≤ tick) && decide (tick < seEnd (e x))) with
  | some x => some x
  | none => (l.filter (fun x => !seSched (e x))).getLast?

/-- What every received header does: credits, corrected symbols, and a NAK of the transfer that this side sends (R405, R409). -/
def State.noteHeader (s : State) (link : Nat) (h : FrameHeader) : State :=
  let s := s.updLink link (fun l => { l with
    credits := min 512 (l.credits + h.credits), symbols := satAdd 0xFFFFFFFF l.symbols h.corrected
    codewords := if h.corrected = 0 then l.codewords else satAdd 0xFFFFFFFF l.codewords 1 })
  match h.nak, s.dev.curRun with
  | some k, some r =>
    match s.nakTarget link r with
    | some x =>
      if x.idle || x.again.get k || x.naks.contains k || decide (x.next ≤ k ∧ k < seLength (s.entry x.io x.entry)) then s
      else s.putXfer { x with naks := insNat k x.naks, stage := .running }
    | none => s
  | _, _ => s

/-- The RECEIVE entry that a frame of a class belongs to at the current time (R419, R424). -/
def State.recvEntry (s : State) (link : Nat) (sched : Bool) (r : OrbitRun) : Option Nat :=
  let io := link / 24
  let t := s.dev.time - r.start
  let lo (e : BitVec 256) : Nat := tickT * seOffset e + (s.link link).delay
  if sched then
    (s.entriesOn link true).find? (fun i =>
      let e := s.entry io i
      seSched e && decide (lo e ≤ t + tickT * guardTicks) && decide (t < tickT * (seEnd e + guardTicks) + (s.link link).delay))
  else
    (s.entriesOn link true).find? (fun i => !seSched (s.entry io i)
      && ((s.xfer io i r).stage == .waiting || (s.xfer io i r).stage == .running))

/-- Two runs of frames overlap. -/
def runsOverlap (a n b m : Nat) : Bool := decide (a < b + m) && decide (b < a + n)

/-- Another entry's region that overlaps is still held (R429). -/
def State.regionBusy (s : State) (io i : Nat) (x : Xfer) : Bool :=
  let e := s.entry io i
  s.fab.xfers.any (fun y => y.held && y.io == io && !(y.entry == x.entry && y.slot == x.slot && y.orbit == x.orbit)
    && runsOverlap (seRegion e) (seLength e) (seRegion (s.entry io y.entry)) (seLength (s.entry io y.entry)))

/-- Frames of receive memory that are held on an IO die. -/
def State.occupancy (s : State) (io : Nat) : Nat :=
  ((s.fab.xfers.filter (fun y => y.held && y.io == io)).map (fun y => seLength (s.entry io y.entry))).foldl (· + ·) 0

/-- The first frame of a transfer arrives: its region is taken, or the transfer is refused (R428, R429). -/
def State.firstFrame (s : State) (x : Xfer) : State × Xfer :=
  if x.stage != .waiting then (s, x)
  else if !seSched (s.entry x.io x.entry) then (s, { x with stage := .running })
  else if s.regionBusy x.io x.entry x then
    (s.updRegs x.io (fun g => { g with overdue := satAdd 0xFFFF g.overdue 1 }), { x with stage := .refused })
  else
    let x := { x with stage := .running, held := true }
    let s := s.putXfer x
    (s.updRegs x.io (fun g => { g with observed := max g.observed (s.occupancy x.io) }), x)

def rxKey (io f : Nat) : Nat := 131072 * io + f

/-- Payload frame i of a RECEIVE in the clear. -/
def State.rxFrame (s : State) (x : Xfer) (i : Nat) : BitVec 4096 := s.fab.rxMem.get (rxKey x.io (seRegion (s.entry x.io x.entry) + i))

/-- The first n bytes of a region. -/
def State.rxBytes (s : State) (x : Xfer) : List Byte :=
  ((List.range (seLength (s.entry x.io x.entry))).map (fun i => leBytes 512 (s.rxFrame x i).toNat)).flatten

/-- Payload of a MEMORY entry as a write to DESC. -/
def Dev.memItems (d : Dev) (e : BitVec 256) (i : Nat) (data : BitVec 4096) : List WItem := wBytes (d.frameAddr e i) 512 data.toNat

/-- A MEMORY delivery passes the segment table, or faults (R421, R422). -/
def State.deliver (s : State) (x : Xfer) : State :=
  let e := s.entry x.io x.entry
  let q : Req := .orbit x.io
  match viewFault s.dev q (s.dev.listView (seDesc e)) true with
  | some f =>
    ((s.mapDev (fun d => (d.segFault q f.1 f.2.1 f.2.2).voteVoid x.orbit rsMemoryMiss (unitOrb x.io) 0)).updRegs x.io
      (fun g => { g with recvMissed := satAdd 0xFFFF g.recvMissed 1 })).putXfer { x with stage := .consumed }
  | none =>
    (s.mapDev (fun d => d.write ((List.range (seLength e)).map (fun i => d.memItems e i (s.rxFrame x i))).flatten false)).putXfer
      { x with stage := .consumed }

/-- The tag is checked once every frame and the trailer are held (R409, R421). -/
def State.checkTag (s : State) (link : Nat) (r : OrbitRun) (x : Xfer) : State :=
  let e := s.entry x.io x.entry
  let full := (List.range (seLength e)).all (fun i => x.got.get i)
  match x.trailerIn with
  | none => s.putXfer x
  | some tr =>
    if !full then s.putXfer x
    else
      let key := match (s.link link).keys with
        | some k => k.2
        | none => 0
      let iv := s.xferIv x.io x.entry r
      let cipher (i : Nat) : BitVec 4096 := if seSched e then s.rxFrame x i ^^^ frameStream key iv i else x.frames.get i
      let tag := gcmTag (keyBytes key) iv (entryAad e) ((List.range (seLength e)).map (fun i => leBytes 512 (cipher i).toNat)).flatten
      if (leBytes 512 tr.toNat).take 16 == tag then
        (if !seSched e then (s.putXfer { x with stage := .ended, signalled := true }).sendEntrySig x
         else if seEndpoint e = 0 then s.deliver { x with stage := .passed }
         else s.putXfer { x with stage := .passed })
      else
        -- the failed tag leaves the transfer missed: its trailer is not held
        ((s.updLink link (fun l => { l with tagFails := satAdd 0xFF l.tagFails 1 })).mapDev
          (fun d => d.pushErr 0x08 0x00 (unitLink link) 0 0 0)).putXfer { x with trailerIn := none }

/-- Store a correct frame: a payload frame, or the trailer at index LENGTH. A best-effort frame goes to DESC at once (R425). -/
def State.storeFrame (s : State) (link : Nat) (r : OrbitRun) (x : Xfer) (idx : Nat) (payload : BitVec 4096) : State :=
  let e := s.entry x.io x.entry
  let key := match (s.link link).keys with
    | some k => k.2
    | none => 0
  let s := if seSched e then s else s.updLink link (fun l => { l with owed := l.owed + 1 })
  if seLength e ≤ idx then s.checkTag link r { x with trailerIn := some payload }
  else
    let plain := payload ^^^ frameStream key (s.xferIv x.io x.entry r) idx
    let x := { x with got := x.got.set idx true }
    if seSched e then
      { s with fab := { s.fab with rxMem := s.fab.rxMem.set (rxKey x.io (seRegion e + idx)) plain } }.checkTag link r x
    else
      (s.mapDev (fun d => d.write (d.memItems e idx plain) false)).checkTag link r { x with frames := x.frames.set idx payload }

/-- A frame that the code could not correct: reported once (R409). -/
def State.badFrame (s : State) (link : Nat) (x : Xfer) (idx : Nat) (retry : Bool) : State :=
  let s := s.updLink link (fun l => { l with uncorr := satAdd 0xFFFF l.uncorr 1 })
  if retry || x.bad.get idx then
    (s.updLink link (fun l => { l with retryFails := satAdd 0xFFFF l.retryFails 1 })).putXfer x
  else (s.updLink link (fun l => { l with nakOut := l.nakOut ++ [idx] })).putXfer { x with bad := x.bad.set idx true }

/-- A frame of a transfer arrives on a link. -/
def recvFrame (s : State) (link : Nat) (h : FrameHeader) (obs : FrameObs) (sched retry trailer : Bool) : State :=
  if (s.link link).state ≠ 2 || (s.link link).fenced then s
  else
    let s := match obs with
      | .good _ => s.noteHeader link h
      | .uncorrectable => s
    match s.dev.curRun with
    | none => s
    | some r =>
      if s.dev.time < r.start || (s.link link).keys.isNone then s
      else
        let i := match s.recvEntry link sched r with
          | some i => some i
          | none => if retry then s.recvEntry link false r else none
        match i with
        | none => s
        | some i =>
          let f := s.firstFrame (s.xfer (link / 24) i r)
          let idx := if trailer then seLength (s.entry (link / 24) i) else h.frame
          if f.2.stage != .running then f.1.putXfer f.2
          else if seLength (s.entry (link / 24) i) < idx ∨ f.2.got.get idx then f.1.putXfer f.2
          else
            match obs with
            | .good p => f.1.storeFrame link r f.2 idx p
            | .uncorrectable => f.1.badFrame link f.2 idx retry

def doDataFrame (s : State) (link : Nat) (h : FrameHeader) (obs : FrameObs) : State := recvFrame s link h obs true false false
def doTrailerFrame (s : State) (link : Nat) (h : FrameHeader) (obs : FrameObs) : State := recvFrame s link h obs true false true
def doRetryFrame (s : State) (link : Nat) (h : FrameHeader) (obs : FrameObs) : State := recvFrame s link h obs true true false
def doBeDataFrame (s : State) (link : Nat) (h : FrameHeader) (obs : FrameObs) : State := recvFrame s link h obs false false false
def doBeTrailerFrame (s : State) (link : Nat) (h : FrameHeader) (obs : FrameObs) : State := recvFrame s link h obs false false true

/-- IDLE_FRAME: only its header counts. -/
def doIdleFrame (s : State) (link : Nat) (h : FrameHeader) : State :=
  if (s.link link).state ≠ 2 || (s.link link).fenced then s else s.noteHeader link h

/-! Misses and regions. -/

/-- Tick at whose start a transfer that has not passed is missed: window end plus GUARD, or the last tick less GUARD. -/
def State.missTick (s : State) (e : BitVec 256) : Nat := if seSched e then seEnd e + guardTicks else s.orbitTicks - 1 - guardTicks

/-- Every poison granule of a view is marked (R224). -/
def Dev.poisonView (d : Dev) (v : View) : Dev :=
  let as := ((viewRuns d v).map (fun r => (List.range r.2.2).map (fun i => segAddr d 0 v.swz r.1 (r.2.1.toNat + i)))).flatten
  { d with ms := { d.ms with poison := (granulesOf as).foldl (fun p g => p.set g true) d.ms.poison } }

/-- The consequences of Table 13-8 for entry i of the current orbit. -/
def State.miss (s : State) (io i : Nat) (r : OrbitRun) (x : Xfer) : State :=
  let e := s.entry io i
  let s := if seRecv e then
      let s := s.updRegs io (fun g => { g with recvMissed := satAdd 0xFFFF g.recvMissed 1 })
      if seEndpoint e = 0 then s.mapDev (fun d => (d.poisonView (d.listView (seDesc e))).voteVoid r.num rsMemoryMiss (unitLink (s.linkOf io i)) 0)
      else s
    else
      let s := if x.idle then s else s.updRegs io (fun g => { g with sendMissed := satAdd 0xFFFF g.sendMissed 1 })
      if seSched e then s.updRegs io (fun g => { g with minSlack := 0, slackEntry := i, slackAlert := g.slackAlert || decide (0 < g.alertTicks) }) else s
  let s := if x.signalled then s else s.sendEntrySig x
  s.putXfer { x with stage := .missed, held := false, signalled := true }

/-- TRANSFER_MISSED (R409, R421, R425). -/
def doTransferMissed (s : State) (io i : Nat) : State :=
  match s.dev.curRun with
  | none => s
  | some r =>
    let e := s.entry io i
    let x := s.xfer io i r
    let open_ := x.stage == .waiting || x.stage == .running || x.stage == .refused
    if !s.active io i || !open_ || (x.signalled && !seRecv e) then s
    else (s.advanceTo (r.start + tickT * s.missTick e)).miss io i r x

/-- REGION_RELEASE: the endpoint has finished with a region; it is released and SIG goes out (R421, R428). -/
def doRegionRelease (s : State) (io i : Nat) : State :=
  match s.fab.xfers.find? (fun x => x.io == io && x.entry == i && x.held && x.stage == .consumed) with
  | none => s
  | some x => ((s.sendEntrySig x).putXfer { x with stage := .ended, held := false, signalled := true })

/-! Link states (R404, R425). -/

/-- LINK_UP: training has succeeded. -/
def doLinkUp (s : State) (link : Nat) (rtt : BitVec 8) : State :=
  let l := s.link link
  if l.state = 2 ∨ l.state = 3 ∨ l.stuck ∨ l.fenced ∨ !s.pwr.ready then s
  else (s.updLink link (fun l => { l with state := 2, trainFails := 0, rtt := rtt.toNat, credits := 512, owed := 0, nakOut := [],
                                          marked := true })).event

/-- LINK_TRAINING_FAIL: the third failure in a row makes the link FAILED. -/
def doLinkTrainingFail (s : State) (link : Nat) : State :=
  let l := s.link link
  if l.state = 2 ∨ l.state = 3 ∨ l.stuck ∨ l.fenced ∨ !s.pwr.ready then s
  else
    let s := s.updLink link (fun l => { l with trainFails := l.trainFails + 1, state := if 3 ≤ l.trainFails + 1 then 3 else 1 })
    if 3 ≤ l.trainFails + 1 then s.event else s

/-- Orbits run: some orbit has started and its schedule has not ended. -/
def Dev.orbitRuns (d : Dev) : Bool := d.curRun.isSome

/-- LINK_DOWN: codeword lock is lost, or 64 codewords of one control period were uncorrectable. -/
def doLinkDown (s : State) (link : Nat) : State :=
  if (s.link link).state ≠ 2 then s
  else
    let s := s.updLink link (fun l => { l with state := 0, stuck := s.dev.orbitRuns, marked := false, nakOut := [] })
    let s := if s.fab.tb.parent = link ∧ s.fab.tb.state = 1 then { s with fab := { s.fab with tb := { s.fab.tb with state := 0, good := 0 } } } else s
    s.event

end Sys2Proof.Machine
end

