-- ==== Sys2Proof/Machine/ReductionOps.lean ====
section
/-! DEFINITION. The gradient reduction: staging, the duplicate encoding, the collective transfers at their receivers,
finalisation, the reduced images, retraction, the commit vote and the reduction record (R434 to R464, R482 to R487). -/
namespace Sys2Proof.Machine

/-! Section 0x12 (Tables 14-1 to 14-3). -/

def rhRecDesc (h : BitVec 1024) : Nat := bitsOf h 63 48
def rhInitScale (h : BitVec 1024) : Byte := BitVec.ofNat 8 (bitsOf h 47 40)
def rhSum (h : BitVec 1024) : Bool := bitOf h 33
def rhMode (h : BitVec 1024) : Bool := bitOf h 32
def rhVoteTick (h : BitVec 1024) : Nat := bitsOf h 95 64
def rhVoteClose (h : BitVec 1024) : Nat := bitsOf h 127 96
def rhNormDeadline (h : BitVec 1024) : Nat := bitsOf h 159 128
def rhNormDie (h : BitVec 1024) : Nat := bitsOf h 191 191
def rhNormFanout (h : BitVec 1024) : Nat := bitsOf h 173 170
def rhNormStream (h : BitVec 1024) : Nat := bitsOf h 169 160
/-- RED_SIG, read with the field functions of SIGNAL. -/
def rhRedSig (h : BitVec 1024) : IWord := BitVec.ofNat 128 (bitsOf h 255 192)

def bkCset (b : BitVec 256) : Nat := bitsOf b 31 24
def bkOwner (b : BitVec 256) : Nat := bitsOf b 23 13
def bkDie (b : BitVec 256) : Nat := bitsOf b 12 12
def bkBlocks (b : BitVec 256) : Nat := bitsOf b 51 32
def bkFirst (b : BitVec 256) : Nat := bitsOf b 95 64
def bkSrc (b : BitVec 256) : Nat := bitsOf b 111 96
def bkArea (b : BitVec 256) : Nat := bitsOf b 127 112
def bkStageSem (b : BitVec 256) : Nat := bitsOf b 137 128
def bkSend (b : BitVec 256) : Nat := bitsOf b 153 144
def bkCorr (b : BitVec 256) : Nat := bitsOf b 169 160
def bkFanout (b : BitVec 256) : Nat := bitsOf b 189 186
def bkDist (b : BitVec 256) : Nat := bitsOf b 185 176
def bkDeadline (b : BitVec 256) : Nat := bitsOf b 223 192
def bkCommit (b : BitVec 256) : Nat := bitsOf b 255 224

def rlDie (r : W64) : Nat := bitsOf r 15 15
def rlKind (r : W64) : Nat := bitsOf r 14 12
def rlBucket (r : W64) : Nat := bitsOf r 11 0
def rlIn (r : W64) : Nat := bitsOf r 25 16
def rlOut (r : W64) : Nat := bitsOf r 41 32
def rlSet (r : W64) : Nat := bitsOf r 55 48

def State.me (s : State) : Nat := s.dev.plan.modIndex
def State.bucket (s : State) (k : Nat) : BitVec 256 := s.fab.redPlan.buckets.get k
def State.run (s : State) (k : Nat) : BucketRun := s.fab.red.buckets.get k
def State.updRed (s : State) (f : Reduce → Reduce) : State := { s with fab := { s.fab with red := f s.fab.red } }
def State.updBk (s : State) (k : Nat) (f : BucketRun → BucketRun) : State :=
  s.updRed (fun r => { r with buckets := r.buckets.set k (f (r.buckets.get k)) })
def State.mode (s : State) : Bool := s.dev.plan.arrival

/-- Member of the contributor set of a bucket. -/
def State.contributes (s : State) (k m : Nat) : Bool := (s.sch (bkDie (s.bucket k))).inSet (bkCset (s.bucket k)) m
def State.contributors (s : State) (k : Nat) : Nat := ((List.range s.dev.plan.modules).filter (s.contributes k)).length
def State.owns (s : State) (k : Nat) : Bool := bkOwner (s.bucket k) == s.me

/-! Layout of payloads and of the bucket area (R439, R448). -/

def al64 (x : Nat) : Nat := (x + 63) / 64 * 64
def al512 (x : Nat) : Nat := (x + 511) / 512 * 512
def offScale (n : Nat) : Nat := al64 (64 + 32 * n)
def contribBits (n : Nat) : Nat := al64 (offScale n + n)
def contribLen (n : Nat) : Nat := contribBits n + (n + 7) / 8
def reducedCounts (n : Nat) : Nat := al64 (offScale n + n)
def reducedBits (n : Nat) : Nat := al64 (reducedCounts n + 2 * n)
def reducedLen (n : Nat) : Nat := reducedBits n + (n + 7) / 8
/-- Offsets of the parts of a bucket area. -/
def areaReduced (n : Nat) : Nat := al512 (contribLen n)
def areaAcc (n : Nat) : Nat := al512 (areaReduced n + reducedLen n)
def areaAgreed (n : Nat) : Nat := al512 (areaAcc n + 128 * n)
def areaSize (n : Nat) : Nat := areaAgreed n + n

/-- First byte of a bucket's area, and of element i of its source. -/
def State.areaAddr (s : State) (k : Nat) : Nat :=
  let v := s.dev.listView (bkArea (s.bucket k))
  segAddr s.dev 0 0 v.seg (4 * v.offset.toNat)
def State.srcAddr (s : State) (k i : Nat) : Nat :=
  let v := s.dev.listView (bkSrc (s.bucket k))
  segAddr s.dev 0 0 v.seg (4 * (v.offset.toNat + 32 * bkFirst (s.bucket k) + i))

/-- The agreed scale byte of a block (R444). -/
def State.agreedByte (s : State) (k b : Nat) : Byte :=
  if s.fab.red.agreed.get (2 ^ 20 * k + b) then memGet s.dev.ms.mem (s.areaAddr k + areaAgreed (bkBlocks (s.bucket k)) + b)
  else rhInitScale s.fab.redPlan.hdr

/-- A block as it travels. -/
structure WireBlock where
  elems : List Byte
  scale : Byte
  poison : Bool
  /-- Contributions counted, in a REDUCED transfer. -/
  count : Nat
deriving DecidableEq, Repr

def byteAt (p : List Byte) (i : Nat) : Byte := p.getD i 0
def bitAt (p : List Byte) (base i : Nat) : Bool := (byteAt p (base + i / 8)).getLsbD (i % 8)

/-- Block b of a CONTRIB payload of n blocks, and of a REDUCED payload. -/
def contribBlock (n : Nat) (p : List Byte) (b : Nat) : WireBlock :=
  ⟨(p.drop (64 + 32 * b)).take 32, byteAt p (offScale n + b), bitAt p (contribBits n) b, 0⟩
def reducedBlock (n : Nat) (p : List Byte) (b : Nat) : WireBlock :=
  ⟨(p.drop (64 + 32 * b)).take 32, byteAt p (offScale n + b), bitAt p (reducedBits n) b,
    leNat ((p.drop (reducedCounts n + 2 * b)).take 2)⟩

/-- Poison bitmap of a list of blocks. -/
def bitmapBytes (l : List WireBlock) : List Byte :=
  (chunks 8 l.length l).map (fun c => BitVec.ofNat 8 ((List.range c.length).foldl (fun a i =>
    a + (if (c.getD i ⟨[], 0, false, 0⟩).poison then 2 ^ i else 0)) 0))

/-- CONTRIB and REDUCED payloads (R439, Tables 14-4 and 14-5). -/
def contribPayload (probe : Bool) (bucket origin orbit : Nat) (l : List WireBlock) : List Byte :=
  padTo 64 (padTo 64 (collHeader 1 probe bucket origin orbit l.length ++ (l.map (·.elems)).flatten) ++ l.map (·.scale)) ++ bitmapBytes l
def reducedPayload (probe : Bool) (bucket origin orbit : Nat) (l : List WireBlock) : List Byte :=
  padTo 64 (padTo 64 (padTo 64 (collHeader 3 probe bucket origin orbit l.length ++ (l.map (·.elems)).flatten) ++ l.map (·.scale))
    ++ (l.map (fun b => leBytes 2 b.count)).flatten) ++ bitmapBytes l

/-! Encodings (Table 14-6). -/

/-- EXACT: k = rne(x · 2^(6 - X)) limited to ±127, with the saturations (R443). -/
def exactElem (e : Byte) : FVal → Byte × Bool
  | .fin n m x =>
    let k := roundTo .nearest m (x + 6 - (scaleExp e)) 0
    let c := min k 127
    (BitVec.ofNat 8 (if n then 256 - c else c), decide (127 < k))
  | _ => (0, false)

def exactBlock (e : Byte) (l : List FVal) (poison : Bool) : WireBlock × Nat :=
  if l.any (fun v => !v.isFinite) then (⟨List.replicate 32 0, 0xFF, poison, 0⟩, 0)
  else
    let r := l.map (exactElem e)
    (⟨r.map (·.1), e, poison, 0⟩, (r.filter (·.2)).length)

/-- FP8 E4M3 under Table 2-4 (R450, R453). -/
def e4m3Block (l : List FVal) (poison : Bool) : WireBlock × Nat :=
  let sc := blockScale 3 l
  let r := l.map (blockElem 3 sc .nearest)
  (⟨r.map (fun x => BitVec.ofNat 8 x.1), sc, poison, 0⟩, (r.filter (·.2)).length)

/-- A probe's block: the INT8 scale byte of Table 2-4 and elements 0 (R445). -/
def probeBlock (l : List FVal) (poison : Bool) : WireBlock := ⟨List.replicate 32 0, blockScale 5 l, poison, 0⟩

/-- Value of an E4M3 element of a block. -/
def e4m3Value (sc e : Byte) : FVal := if sc = 0xFF then .nan else (decodeElem 3 e.toNat).scale2 (scaleExp sc)

/-- The 32 source values of a block, and the poison that reading them meets. -/
def State.srcBlock (s : State) (k b : Nat) : State × List FVal × Bool :=
  let as := (List.range 32).map (fun i => s.srcAddr k (32 * b + i))
  let t := s.dev.touch ((as.map (fun a => addrRun a 4)).flatten)
  ({ s with dev := t.1 }, as.map (fun a => f32 (BitVec.ofNat 32 (memRead t.1.ms.mem a 4))), t.2)

/-- Encode one block of the source for the wire (R443, R445, R450). -/
def State.encodeBlock (s : State) (probe : Bool) (k b : Nat) : State × WireBlock × Nat :=
  let x := s.srcBlock k b
  if probe then (x.1, probeBlock x.2.1 x.2.2, 0)
  else
    let r := if s.mode then e4m3Block x.2.1 x.2.2 else exactBlock (s.agreedByte k b) x.2.1 x.2.2
    (x.1, r.1, r.2)

/-- Encode the blocks b to n - 1. -/
def encodeAll (probe : Bool) (k : Nat) : Nat → Nat → State → State × List WireBlock × Nat
  | 0, _, s => (s, [], 0)
  | n + 1, b, s =>
    let x := s.encodeBlock probe k b
    let r := encodeAll probe k n (b + 1) x.1
    (r.1, x.2.1 :: r.2.1, x.2.2 + r.2.2)

/-- Add saturated elements (Table 14-8, ORB_RED_COUNT). -/
def State.addSaturated (s : State) (io n : Nat) : State :=
  (s.updRed (fun r => { r with saturated := r.saturated + n })).updRegs io (fun g => { g with saturated := satAdd 0xFFFFFFFF g.saturated n })

/-- Signal a stream of an IO die in the bank of orbit n. -/
def State.signalStream (s : State) (io stream k n : Nat) : State :=
  if stream = 0x3FF ∨ k = 0 then s else s.mapDev (·.sendSignal ⟨none, n, 2, io, stream, k, 0⟩)

/-- A staged transfer waits for its stream's SEND. -/
def State.stage (s : State) (io stream : Nat) (data : List Byte) : State :=
  s.updRed (fun r => { r with relay := r.relay.set (1024 * io + stream) data })

/-! Additions at the owner (R445 to R447, R451). -/

/-- An INT8 integer. -/
def int8 (b : Byte) : Int := b.toInt

def addSums (b : Nat) : Nat → List Byte → Bank Int → Bank Int
  | _, [], s => s
  | i, e :: r, s => addSums b (i + 1) r (s.upd (32 * b + i) (· + int8 e))

/-- One block enters an EXACT sum. -/
def BucketRun.addExact (r : BucketRun) (probe : Bool) (b : Nat) (w : WireBlock) : BucketRun :=
  let r := { r with counts := r.counts.upd b (· + 1), poisoned := if w.poison then r.poisoned.set b true else r.poisoned }
  if probe then { r with probeMax := r.probeMax.upd b (max · w.scale.toNat) }
  else if w.scale = 0xFF then { r with nanBlocks := r.nanBlocks.set b true }
  else { r with sums := addSums b 0 w.elems r.sums }

/-- One block enters the FP32 accumulator: the first addition of the orbit replaces the stored value (R448, R451). -/
def State.addArrival (s : State) (k b : Nat) (w : WireBlock) : State :=
  let a := s.areaAddr k + areaAcc (bkBlocks (s.bucket k)) + 128 * b
  let first := !(s.run k).summed.get b
  let s := s.updBk k (fun r => { r with
    counts := r.counts.upd b (· + 1)
    poisoned := if w.poison then r.poisoned.set b true else r.poisoned
    nanBlocks := if w.scale = 0xFF then r.nanBlocks.set b true else r.nanBlocks
    summed := r.summed.set b true })
  let items := (List.range 32).map (fun i =>
    let v := to32 (e4m3Value w.scale (byteAt w.elems i))
    wBytes (a + 4 * i) 4 (if first then v else addF32 (BitVec.ofNat 32 (memRead s.dev.ms.mem (a + 4 * i) 4)) v).toNat)
  s.mapDev (fun d => d.write items.flatten false)

/-- A contributor's blocks are added. -/
def State.addContribution (s : State) (probe : Bool) (k origin : Nat) (l : List WireBlock) : State :=
  let s := s.updBk k (fun r => { r with added := r.added.set origin true })
  if s.mode then (List.range l.length).foldl (fun s b => s.addArrival k b (l.getD b ⟨[], 0, false, 0⟩)) s
  else s.updBk k (fun r => (List.range l.length).foldl (fun r b => r.addExact probe b (l.getD b ⟨[], 0, false, 0⟩)) r)

/-! Staging (R441, R482). -/

/-- Contribution image as it stands in the area. -/
def State.contribImage (s : State) (k : Nat) : List Byte := memReadList s.dev.ms.mem (s.areaAddr k) (contribLen (bkBlocks (s.bucket k)))

/-- BUCKET_STAGE. -/
def doBucketStage (s : State) (k : Nat) : State :=
  match s.dev.curRun with
  | none => s
  | some r =>
    let b := s.bucket k
    let io := bkDie b
    let key := streamKey io r.num (bkStageSem b)
    let c := (s.dev.streamSems.get key).toNat
    if s.fab.redPlan.count ≤ k ∨ c = 0 ∨ s.dev.time < r.start ∨ (s.fab.regs.get io).fenced then s
    else
      let s := s.mapDev (fun d => { d with streamSems := d.streamSems.set key (BitVec.ofNat 16 (c - 1)) })
      if (s.run k).staged || !s.contributes k s.me then s
      else
        let x := encodeAll r.probe k (bkBlocks b) 0 s
        let image := contribPayload r.probe k s.me r.num x.2.1
        let s := (x.1.addSaturated io x.2.2).mapDev (fun d => d.write ((List.range image.length).map (fun i =>
          (⟨x.1.areaAddr k + i, 0xFF, byteAt image i⟩ : WItem))) false)
        let s := if x.2.1.any (·.poison) then s.mapDev (·.voteVoid r.num rsPoison (unitColl io) 0) else s
        let s := s.updBk k (fun y => { y with staged := true })
        if s.owns k then
          (if s.mode || (s.run k).finalised then s else s.addContribution r.probe k s.me x.2.1)
        else
          let s := (s.stage io (bkSend b) image).signalStream io (bkSend b) 1 r.num
          if s.mode then s else s.signalStream io (bkCorr b) 1 r.num

/-! Messages (R426, R459, Tables 13-9 and 14-9). -/

/-- A control message: TYPE, ORIGIN, orbit and body. -/
def ctlMessage (type : Nat) (origin : Nat) (orbit : Nat) (body : BitVec 192) : BitVec 256 :=
  BitVec.ofNat 256 (type + origin * 2 ^ 8 + orbit % 2 ^ 32 * 2 ^ 32 + body.toNat * 2 ^ 64)

def State.say (s : State) (type orbit body : Nat) : State :=
  s.mapDev (fun d => { d with ownMsgs := d.ownMsgs ++ [ctlMessage type s.me orbit (BitVec.ofNat 192 body)] })

def retractBody (bucket block : Nat) (replace late withdraw : Bool) : Nat :=
  bucket + block % 2 ^ 32 * 2 ^ 32 + ((if replace then 1 else 0) + (if late then 2 else 0) + (if withdraw then 4 else 0)) * 2 ^ 64

/-- A record or withdrawal is sent (Table 14-8, ORB_RED_COUNT). -/
def State.countRetract (s : State) (io n : Nat) : State :=
  ((s.updRed (fun r => { r with retracted := r.retracted + 1 })).updRegs io (fun g =>
    { g with retractions := satAdd 0xFFFF g.retractions 1 })).mapDev (fun d => { d with runs := updRun n (fun r => { r with retracted := r.retracted + 1 }) d.runs })

/-! The duplicate encoding (R482, R483, R456). -/

/-- SEND transfers of a stream of this module in an orbit. -/
def State.streamSends (s : State) (io stream : Nat) (r : OrbitRun) : List Xfer :=
  ((List.range (s.sch io).count).filter (fun i => s.active io i && !seRecv (s.entry io i) && seStream (s.entry io i) == stream)).map
    (fun i => s.xfer io i r)

/-- Frames of a block have left, or the owner has entered it. -/
def State.blockLeft (s : State) (k b : Nat) (r : OrbitRun) : Bool :=
  if s.owns k then (s.run k).added.get s.me
  else (s.streamSends (bkDie (s.bucket k)) (bkSend (s.bucket k)) r).any (fun x => x.stage != .waiting && decide ((64 + 32 * b) / 512 < x.next))

/-- Encode a staged block once more and rewrite it. -/
def State.rewriteBlock (s : State) (probe : Bool) (k b : Nat) : State :=
  let n := bkBlocks (s.bucket k)
  let x := s.encodeBlock probe k b
  let a := s.areaAddr k
  let s := (x.1.addSaturated (bkDie (s.bucket k)) x.2.2).mapDev (fun d =>
    d.write (((List.range 32).map (fun i => (⟨a + 64 + 32 * b + i, 0xFF, byteAt x.2.1.elems i⟩ : WItem)))
      ++ [⟨a + offScale n + b, 0xFF, x.2.1.scale⟩, ⟨a + contribBits n + b / 8, BitVec.ofNat 8 (2 ^ (b % 8)),
            BitVec.ofNat 8 (if x.2.1.poison then 2 ^ (b % 8) else 0)⟩]) false)
  if s.owns k then s else s.stage (bkDie (s.bucket k)) (bkSend (s.bucket k)) (s.contribImage k)

/-- A failure is charged to a sent block (R456). -/
def State.charge (s : State) (k b : Nat) (c : Charge) (r : OrbitRun) : State :=
  let io := bkDie (s.bucket k)
  let y := s.run k
  if y.charges.any (·.block == b) then s
  else if !s.mode ∧ !y.corrStarted ∧ !(s.owns k && y.finalised) then
    ((s.updBk k (fun y => { y with charges := y.charges ++ [c] })).say 0x03 r.num (retractBody k b c.rewritten false false)).countRetract io r.num
  else if s.mode ∧ !y.committed ∧ !y.withdrawn then
    ((s.updBk k (fun y => { y with withdrawn := true })).say 0x03 r.num (retractBody k 0xFFFFFFFF c.rewritten false true)).countRetract io r.num
  else if s.mode ∧ y.withdrawn then s
  else
    (((s.updBk k (fun y => { y with charges := y.charges ++ [c] })).mapDev (·.voteVoid r.num rsLate (unitColl io) 0)).say 0x03 r.num
      (retractBody k b c.rewritten true false)).updRegs io (fun g => { g with lateFail := true })

/-- ENCODE_COMPARE: the comparison of a block's two encodings closes. `again` says that a further pair disagrees too. -/
def doEncodeCompare (s : State) (k b : Nat) (mismatch again : Bool) : State :=
  match s.dev.curRun with
  | none => s
  | some r =>
    let y := s.run k
    let io := bkDie (s.bucket k)
    let u := unitColl io
    if !y.staged ∨ y.compared.get b ∨ bkBlocks (s.bucket k) ≤ b ∨ !s.contributes k s.me then s
    else
      let closed := s.updBk k (fun y => { y with compared := y.compared.set b true })
      if !mismatch then closed
      else if !s.blockLeft k b r then
        (if again then closed.mapDev (fun d => (d.persistent u 0 b 0).voteVoid r.num rsStopped u 0x21)
         else (closed.rewriteBlock r.probe k b).mapDev (·.transient u 0 b 0))
      else
        let sent := memReadList s.dev.ms.mem (s.areaAddr k + 64 + 32 * b) 32
        if again then
          (closed.mapDev (fun d => (d.persistentAs 0x09 u 0 b 0).voteVoid r.num rsStopped u 0x21)).charge k b ⟨b, false, sent⟩ r
        else
          let s := (closed.rewriteBlock r.probe k b).mapDev (fun d =>
            (d.updHealth u (·.transient d.settings d.poweredMin)).pushErr 0x09 0x20 u 0 b 0)
          s.charge k b ⟨b, true, sent⟩ r

/-! Correction records (R456, R457, Table 14-7). -/

def negByte (b : Byte) : Byte := 0 - b

/-- One record of a charge, from the staged block as it stands. -/
def State.corrRecord (s : State) (k : Nat) (c : Charge) : List Byte :=
  let n := bkBlocks (s.bucket k)
  let image := s.contribImage k
  let w := contribBlock n image c.block
  leBytes 4 c.block ++ leBytes 1 ((if c.rewritten then 1 else 0) + (if c.rewritten && w.poison then 2 else 0)) ++ leBytes 11 0
    ++ c.sent.map negByte ++ (if c.rewritten then w.elems else List.replicate 32 0) ++ leBytes 48 0

/-- What the collective engine stages when the SEND of a stream starts: a CORRECT transfer takes its records then. -/
def State.prepareCorrect (s : State) (io i : Nat) (r : OrbitRun) : State :=
  let e := s.entry io i
  match (List.range s.fab.redPlan.count).find? (fun k => bkDie (s.bucket k) == io && bkCorr (s.bucket k) == seStream e && !s.owns k
      && !s.mode) with
  | none => s
  | some k =>
    let cap := (512 * seLength e - 64) / 128
    let l := (s.run k).charges
    let body := ((l.take cap).map (s.corrRecord k)).flatten
    let s := (s.stage io (seStream e) (collHeader 2 r.probe k s.me r.num (l.take cap).length ++ body)).updBk k (fun y => { y with corrStarted := true })
    if cap < l.length then
      (s.mapDev (·.voteVoid r.num rsLate (unitColl io) 0)).updRegs io (fun g => { g with lateFail := true })
    else s

/-- SEND_START. -/
def doSendStart (s : State) (io i : Nat) : State :=
  startSend (fun s => match s.dev.curRun with
    | some r => if seEndpoint (s.entry io i) = 1 then s.prepareCorrect io i r else s
    | none => s) s io i

/-- A record at the owner: NEG, and NEW when it follows; otherwise the block counts one contribution fewer (R457). -/
def BucketRun.correct (r : BucketRun) (b : Nat) (neg new : List Byte) (replace poison : Bool) : BucketRun :=
  let r := { r with sums := addSums b 0 neg r.sums }
  if replace then { r with sums := addSums b 0 new r.sums, poisoned := if poison then r.poisoned.set b true else r.poisoned }
  else { r with counts := r.counts.upd b (· - 1) }

/-- Records of a CORRECT payload, `n` of them from record i. -/
def applyRecords (p : List Byte) : Nat → Nat → BucketRun → BucketRun
  | 0, _, r => r
  | n + 1, i, r =>
    let q := (p.drop (64 + 128 * i)).take 128
    let f := byteAt q 4
    applyRecords p n (i + 1) (r.correct (leNat (q.take 4)) ((q.drop 16).take 32) ((q.drop 48).take 32) (f.getLsbD 0) (f.getLsbD 1))

/-! Relay and consumption (R438, R449). -/

/-- Copy a transfer into the staging buffers of the active relay entries of its stream, and signal each. -/
def State.relay (s : State) (io stream : Nat) (data : List Byte) (r : OrbitRun) : State :=
  (List.range s.fab.redPlan.relayCount).foldl (fun s i =>
    let e := s.fab.redPlan.relays.get i
    if rlDie e = io ∧ rlIn e = stream ∧ (s.sch io).inSet (rlSet e) s.me then (s.stage io (rlOut e) data).signalStream io (rlOut e) 1 r.num
    else s) s

def hdrKind (p : List Byte) : Nat := leNat (p.take 4) / 2 ^ 28
def hdrProbe (p : List Byte) : Bool := leNat (p.take 4) / 2 ^ 27 % 2 == 1
def hdrBucket (p : List Byte) : Nat := leNat (p.take 4) % 4096
def hdrOrigin (p : List Byte) : Nat := leNat ((p.drop 4).take 4) % 2048
def hdrOrbit (p : List Byte) : Nat := leNat ((p.drop 8).take 4)
def hdrRecords (p : List Byte) : Nat := leNat ((p.drop 12).take 4)

/-- RED_SIG, once every bucket's reduced image is in place (R455). -/
def State.tryRedSig (s : State) (n : Nat) : State :=
  if s.fab.red.redSent ∨ !(List.range s.fab.redPlan.count).all (fun k => (s.run k).inPlace) then s
  else (s.updRed (fun r => { r with redSent := true })).mapDev (·.sendSig (rhRedSig s.fab.redPlan.hdr) n)

/-- The agreed byte that a reduced block leaves, or none where it stays (R444, R445). -/
def nextAgreed (init : Byte) (probe : Bool) (e : Byte) : Option Byte :=
  if probe then some (if e = 0x00 ∨ e = 0xFF then init else if e = 0xFE then 0xFE else e + 1)
  else if e = 0x00 ∨ e = 0xFF then none
  else some (BitVec.ofNat 8 (min (e.toNat + 10) 0xFE))

/-- Every granule of some addresses is marked poisoned. -/
def Dev.markGranules (d : Dev) (as : List Nat) : Dev :=
  { d with ms := { d.ms with poison := (granulesOf as).foldl (fun q g => q.set g true) d.ms.poison } }

/-- The agreed scale of a block for the next orbit, written at `at_` (R449). -/
def State.setAgreed (s : State) (k at_ i : Nat) (probe : Bool) (scale : Byte) : State :=
  match nextAgreed (rhInitScale s.fab.redPlan.hdr) probe scale with
  | none => s
  | some e => (s.mapDev (fun d => d.write [⟨at_, 0xFF, e⟩] false)).updRed (fun q =>
      { q with agreed := q.agreed.set (2 ^ 20 * k + i) true })

/-- A reduced bucket is consumed (R444, R445, R449, R454). -/
def State.consume (s : State) (k : Nat) (p : List Byte) (r : OrbitRun) : State :=
  let b := s.bucket k
  let n := bkBlocks b
  let io := bkDie b
  let a := s.areaAddr k
  let blocks := (List.range n).map (reducedBlock n p)
  let s := s.mapDev (fun d => d.write ((List.range (reducedLen n)).map (fun i => (⟨a + areaReduced n + i, 0xFF, byteAt p i⟩ : WItem))) false)
  let s := if r.probe then s
    else
      s.mapDev (fun d => d.write ((List.range n).map (fun i =>
        let w := blocks.getD i ⟨[], 0, false, 0⟩
        ((List.range 32).map (fun j => wBytes (s.srcAddr k (32 * i + j)) 4 (to32 (e4m3Value w.scale (byteAt w.elems j))).toNat)).flatten)).flatten false)
  let bad := (List.range n).filter (fun i => (blocks.getD i ⟨[], 0, false, 0⟩).poison)
  let s := s.mapDev (·.markGranules ((bad.map (fun i => addrRun (s.srcAddr k (32 * i)) 128)).flatten))
  let s := if bad.isEmpty then s else s.mapDev (·.voteVoid r.num rsPoison (unitColl io) 0)
  let s := (List.range n).foldl (fun s i => s.setAgreed k (a + areaAgreed n + i) i r.probe (blocks.getD i ⟨[], 0, false, 0⟩).scale) s
  let low := if r.probe then 0 else (blocks.filter (fun w => w.count < s.contributors k)).length
  let s := if low = 0 then s
    else
      ((s.updRed (fun q => { q with correctedBlocks := q.correctedBlocks + low })).updRegs io (fun g => { g with corrected := true })).mapDev
        (fun d => { d with runs := updRun r.num (fun r => { r with corrected := r.corrected + low }) d.runs })
  (s.updBk k (fun y => { y with inPlace := true })).tryRedSig r.num

/-! Arrivals at the receive engine. -/

/-- The transfer of a RECEIVE entry whose tag has passed and whose endpoint has not finished, with its payload. -/
def State.passedXfer (s : State) (io i : Nat) : Option (Xfer × List Byte) :=
  match s.fab.xfers.find? (fun x => x.io == io && x.entry == i && x.stage == .passed && seRecv (s.entry io i)) with
  | some x => some (x, s.rxBytes x)
  | none => none

def State.finish (s : State) (x : Xfer) : State := s.putXfer { x with stage := .consumed }

/-- A COLLECTIVE transfer of a kind is taken: relayed, then consumed by `go` where the orbit is the running one. -/
def collReceive (kind : Nat) (go : State → Xfer → List Byte → OrbitRun → State) (s : State) (io i : Nat) : State :=
  match s.passedXfer io i with
  | none => s
  | some (x, p) =>
    if seEndpoint (s.entry io i) ≠ 1 ∨ hdrKind p ≠ kind then s
    else
      match s.dev.curRun with
      | none => s.finish x
      | some r =>
        if x.slot ≠ r.slot ∨ x.orbit ≠ r.num ∨ hdrOrbit p ≠ r.num % 2 ^ 32 then s.finish x
        else if (s.run (hdrBucket p)).waiting.any (fun w => w.2 == i && kind == 1) then s
        else go (s.relay io (seStream (s.entry io i)) p r) x p r

/-- Every scale byte of an EXACT contribution is the agreed one or 0xFF (R446). -/
def State.scalesAgree (s : State) (k : Nat) (l : List WireBlock) : Bool :=
  (List.range l.length).all (fun b => let w := l.getD b ⟨[], 0, false, 0⟩; w.scale == 0xFF || w.scale == s.agreedByte k b)

/-- CONTRIB_RECEIVE (R438, R442, R446, R447, R451). -/
def doContribReceive (s : State) (io i : Nat) : State :=
  collReceive 1 (fun s x p r =>
    let k := hdrBucket p
    let m := hdrOrigin p
    let y := s.run k
    let l := (List.range (bkBlocks (s.bucket k))).map (contribBlock (bkBlocks (s.bucket k)) p)
    if s.fab.redPlan.count ≤ k ∨ !s.owns k ∨ y.finalised ∨ y.added.get m ∨ !s.contributes k m then s.finish x
    else if s.mode then
      (if y.commits.get m then (s.addContribution false k m l).finish x
       else s.updBk k (fun y => { y with waiting := y.waiting ++ [(m, i)] }))
    else if hdrProbe p ≠ r.probe then s.finish x
    else if !r.probe ∧ !s.scalesAgree k l then ((s.mapDev (·.voteVoid r.num rsScaleMismatch (unitColl io) 0)).finish x)
    else (s.addContribution r.probe k m l).finish x) s io i

/-- CORRECT_RECEIVE (R438, R457). -/
def doCorrectReceive (s : State) (io i : Nat) : State :=
  collReceive 2 (fun s x p _ =>
    let k := hdrBucket p
    let m := hdrOrigin p
    let y := s.run k
    if s.fab.redPlan.count ≤ k ∨ !s.owns k ∨ y.finalised ∨ y.corrected.get m then s.finish x
    else
      let s := s.updBk k (fun y => { y with corrected := y.corrected.set m true })
      (if y.added.get m then s.updBk k (applyRecords p (hdrRecords p) 0) else s).finish x) s io i

/-- REDUCED_RECEIVE (R438, R449). -/
def doReducedReceive (s : State) (io i : Nat) : State :=
  collReceive 3 (fun s x p r =>
    let k := hdrBucket p
    if s.fab.redPlan.count ≤ k ∨ s.owns k ∨ (s.run k).inPlace then s.finish x else (s.consume k p r).finish x) s io i

/-- Exchange record of bytes (Table 12-9): module and record. -/
def normOfBytes (groups : Nat) (p : List Byte) : Nat × NormRec :=
  let f := leNat ((p.drop 12).take 4)
  (leNat (p.take 4) % 2048,
   { orbit := leNat ((p.drop 4).take 4), step := BitVec.ofNat 32 (leNat ((p.drop 8).take 4)), freshReq := f.testBit 2
     stale := f.testBit 1, void := f.testBit 0
     sums := (List.range (3 * groups)).foldl (fun b i => b.set i (BitVec.ofNat 64 (leNat ((p.drop (32 + 8 * i)).take 8)))) (Bank.const 0) })

/-- A record reaches the primary half: it counts while its orbit's exchange is open (R376, R378). -/
def Dev.takeNorm (d : Dev) (p : List Byte) : Dev :=
  let x := normOfBytes d.msuPlan.groups p
  match d.exchRun with
  | none => d
  | some r =>
    if x.2.orbit ≠ r.num % 2 ^ 32 ∨ r.normClosed ∨ r.outcome ≠ 0 ∨ d.plan.modules ≤ x.1 ∨ x.1 = d.plan.modIndex then d
    else { d with norms := d.norms.set x.1 (some x.2) }.tryOutcome

/-- NORM_RECORD_RECEIVE: from an ENDPOINT NORM receive, or a COLLECTIVE transfer of KIND NORM (R421, R439). -/
def doNormRecordReceive (s : State) (io i : Nat) : State :=
  match s.passedXfer io i with
  | none => s
  | some (x, p) =>
    if seEndpoint (s.entry io i) = 2 then (s.mapDev (·.takeNorm p)).finish x
    else if seEndpoint (s.entry io i) ≠ 1 ∨ hdrKind p ≠ 4 then s
    else
      match s.dev.curRun with
      | none => s.finish x
      | some r => ((s.relay io (seStream (s.entry io i)) p r).mapDev (·.takeNorm (p.drop 64))).finish x

/-! Finalising (R453, R454, R458). -/

/-- y of one element. -/
def State.sumValue (s : State) (k b i : Nat) : W32 :=
  let y := s.run k
  if s.mode then
    (if y.summed.get b then BitVec.ofNat 32 (memRead s.dev.ms.mem (s.areaAddr k + areaAcc (bkBlocks (s.bucket k)) + 128 * b + 4 * i) 4) else 0)
  else
    let v := y.sums.get (32 * b + i)
    to32 (.fin (decide (v < 0)) v.natAbs (scaleExp (s.agreedByte k b) - 6))

/-- r of one element. -/
def meanValue (sum : Bool) (y : W32) (c : Nat) : W32 :=
  if c = 0 then 0 else if sum then y else divF32 y (to32 (.fin false c 0))

/-- Reduced block b, with its saturations. -/
def State.reduceBlock (s : State) (probe : Bool) (k b : Nat) : WireBlock × Nat :=
  let r := s.run k
  let c := r.counts.get b
  let poison := r.poisoned.get b
  if probe then (⟨List.replicate 32 0, BitVec.ofNat 8 (r.probeMax.get b), poison, c⟩, 0)
  else
    let ys := (List.range 32).map (s.sumValue k b)
    if r.nanBlocks.get b || ys.any isNan32 then (⟨List.replicate 32 0, 0xFF, poison, c⟩, 0)
    else
      let x := e4m3Block (ys.map (fun y => f32 (meanValue (rhSum s.fab.redPlan.hdr) y c))) poison
      ({ x.1 with count := c }, x.2)

/-- The regions of contributions that wait for a COMMIT are released unadded (R452). -/
def State.dropWaiting (s : State) (k : Nat) (r : OrbitRun) : State :=
  let l := (s.run k).waiting
  let s := l.foldl (fun s w => let x := s.xfer (bkDie (s.bucket k)) w.2 r; s.finish x) s
  s.updBk k (fun y => { y with waiting := [] })

/-- The owner's own records, applied as its CORRECT send would have carried them (R456). -/
def State.ownRecords (s : State) (k : Nat) : State :=
  if s.mode then s
  else
    (s.run k).charges.foldl (fun s c =>
      let w := contribBlock (bkBlocks (s.bucket k)) (s.contribImage k) c.block
      s.updBk k (fun y => y.correct c.block (c.sent.map negByte) w.elems c.rewritten w.poison)) s

/-- The reduced bucket is formed, consumed and sent on its way. `bad` is a block that still fails its comparison: it is sent
poisoned (R483). -/
def State.finalise (s : State) (k : Nat) (bad : Option Nat) (r : OrbitRun) : State :=
  let b := s.bucket k
  let io := bkDie b
  let n := bkBlocks b
  let s := if (s.run k).added.get s.me then s.ownRecords k else s
  let s := s.dropWaiting k r
  let out := (List.range s.dev.plan.modules).filter (fun m => s.contributes k m && !(s.run k).added.get m)
  let s := s.updRegs io (fun g => { g with leftOut := satAdd 0xFFFF g.leftOut out.length })
  let late := !s.mode && (List.range s.dev.plan.modules).any (fun m => m != s.me && (s.run k).added.get m && !(s.run k).corrected.get m)
  let s := if late then s.mapDev (·.voteVoid r.num rsCorrMissed (unitColl io) 0) else s
  let bs := (List.range n).map (s.reduceBlock r.probe k)
  let blocks := (List.range n).map (fun i =>
    let w := (bs.getD i (⟨[], 0, false, 0⟩, 0)).1
    if bad = some i then { w with poison := true } else w)
  let sat := (bs.map (·.2)).foldl (· + ·) 0
  let p := reducedPayload r.probe k s.me r.num blocks
  let s := s.updRed (fun q => { q with redSat := q.redSat + sat })
  let s := s.updBk k (fun y => { y with finalised := true, repeating := false })
  ((s.consume k p r).stage io (bkDist b) p).signalStream io (bkDist b) (bkFanout b) r.num

/-- BUCKET_FINALISE: at tick DEADLINE. A block that fails its comparison is formed once more; a second failure is persistent
(R435, R469, R483). -/
def doBucketFinalise (s : State) (k : Nat) (mismatch : Option Nat) : State :=
  match s.dev.curRun with
  | none => s
  | some r =>
    if s.fab.redPlan.count ≤ k ∨ !s.owns k ∨ (s.run k).finalised ∨ (s.fab.regs.get (bkDie (s.bucket k))).fenced then s
    else
      let s := s.advanceTo (r.start + tickT * bkDeadline (s.bucket k))
      let u := unitColl (bkDie (s.bucket k))
      match mismatch with
      | some b =>
        if (s.run k).repeating then (s.mapDev (fun d => (d.persistent u 0 b 0).voteVoid r.num rsStopped u 0x21)).finalise k (some b) r
        else s.updBk k (fun y => { y with repeating := true })
      | none =>
        let s := if (s.run k).repeating then s.mapDev (·.transient u 0 0 0) else s
        s.finalise k none r

/-! COMMIT (R451, R452). -/

/-- A contributor's COMMIT reaches the owner: a contribution whose tag has passed becomes addable. -/
def State.commit (s : State) (k m : Nat) (r : OrbitRun) : State :=
  let y := s.run k
  if s.fab.redPlan.count ≤ k ∨ !s.owns k ∨ !s.mode ∨ y.finalised ∨ y.commits.get m then s
  else
    let s := s.updBk k (fun y => { y with commits := y.commits.set m true })
    match y.waiting.find? (fun w => w.1 == m) with
    | none => s
    | some w =>
      let x := s.xfer (bkDie (s.bucket k)) w.2 r
      let l := (List.range (bkBlocks (s.bucket k))).map (contribBlock (bkBlocks (s.bucket k)) (s.rxBytes x))
      ((s.addContribution false k m l).updBk k (fun y => { y with waiting := y.waiting.filter (fun v => v.1 != m) })).finish x

/-- COMMIT messages due at a control slot, and the owner's own commit points (R452). -/
def State.commitSlot (s : State) (k : Nat) (r : OrbitRun) : State :=
  let b := s.bucket k
  let y := s.run k
  let tick := (s.dev.time - r.start) / tickT
  let compared := (List.range (bkBlocks b)).all (fun i => y.compared.get i)
  let sends := s.streamSends (bkDie b) (bkSend b) r
  let ended := s.owns k || (!sends.isEmpty && sends.all (fun x => x.stage == .passed || x.stage == .ended))
  if !s.mode ∨ !y.staged ∨ y.committed ∨ y.withdrawn ∨ !compared ∨ !ended ∨ tick < bkCommit b then s
  else
    let s := s.updBk k (fun y => { y with committed := true })
    if s.owns k then
      (if y.finalised then s
       else s.addContribution false k s.me ((List.range (bkBlocks b)).map (contribBlock (bkBlocks b) (s.contribImage k))))
    else s.say 0x04 r.num k

/-! The commit vote (R459 to R464, R485 to R487). -/

/-- Tick of VOTE_TICK, VOTE_CLOSE and NORM_DEADLINE; a plan without section 0x12 takes the orbit's end for each. -/
def State.redTick (s : State) (f : BitVec 1024 → Nat) : Nat := if s.fab.redPlan.present then f s.fab.redPlan.hdr else s.orbitTicks

/-- VOTE_TICK: missed reduced buckets are poisoned and RED_SIG is forced; the VOTE waits for the control slot (R455, R460). -/
def State.voteTick (s : State) (r : OrbitRun) : State :=
  let s := s.advanceTo (r.start + tickT * s.redTick rhVoteTick)
  let missed := (List.range s.fab.redPlan.count).filter (fun k => !(s.run k).inPlace)
  let s := missed.foldl (fun s k =>
    let as := addrRun (s.srcAddr k 0) (128 * bkBlocks (s.bucket k))
    s.mapDev (fun d => (d.markGranules as).voteVoid r.num rsReducedMissed (unitColl (bkDie (s.bucket k))) 0)) s
  let s := if s.fab.red.redSent then s
    else (s.updRed (fun q => { q with redSent := true })).mapDev (·.sendSig (rhRedSig s.fab.redPlan.hdr) r.num)
  s.mapDev (·.updLast (fun r => { r with voteDue := true }))

def doVoteTick (s : State) : State :=
  match s.dev.exchRun with
  | none => s
  | some r => if r.voteDue || r.voteSent then s else s.voteTick r

/-- The VOTE leaves: PASS is 1 when no reason has arisen by then (R460). -/
def State.sendVote (s : State) : State :=
  match s.dev.exchRun with
  | none => s
  | some r =>
    if !r.voteDue || r.voteSent then s
    else
      let pass := r.reason == 0
      let s := s.mapDev (·.updLast (fun r => { r with voteSent := true, votePass := pass, votes := r.votes.set s.me (if pass then 2 else 1) }))
      let s := (s.updRegs 0 (fun g => { g with reason := r.reason.toNat })).updRegs 1 (fun g => { g with reason := r.reason.toNat })
      s.say 0x01 r.num ((if pass then 1 else 0) + r.reason.toNat * 2 ^ 32 + r.retracted * 2 ^ 64)

/-- The vote passes (R461, R472). -/
def votePasses (modules : Nat) (r : OrbitRun) : Bool :=
  r.votePass && !r.voidSeen && r.reason == 0 && (List.range modules).all (fun m => r.votes.get m == 2)

/-- The vote fails only because some VOTE is missing. -/
def voteMissing (modules : Nat) (r : OrbitRun) : Bool :=
  r.votePass && !r.voidSeen && r.reason == 0 && (List.range modules).all (fun m => r.votes.get m != 1)
    && (List.range modules).any (fun m => r.votes.get m == 0)

/-- Reduction record (Table 14-8). -/
def State.redRecord (s : State) (r : OrbitRun) (passed : Bool) : List WItem :=
  let v := s.dev.listView (rhRecDesc s.fab.redPlan.hdr)
  let q := s.fab.red
  wBytes (segAddr s.dev 0 0 v.seg (4 * v.offset.toNat)) 32 (leNat (leBytes 4 r.num ++ leBytes 4 q.saturated ++ leBytes 4 q.redSat
    ++ leBytes 4 q.correctedBlocks ++ leBytes 4 q.retracted ++ leBytes 4 ((if r.probe then 1 else 0) + (if passed then 2 else 0)) ++ leBytes 8 0))

/-- VOTE_CLOSE: the module decides its vote, writes the reduction record, and a failed vote voids the orbit (R25, R461, R464). -/
def doVoteClose (s : State) : State :=
  let s := (doVoteTick s).sendVote
  match s.dev.exchRun with
  | none => s
  | some r =>
    if r.closed then s
    else
      let s := s.advanceTo (r.start + tickT * s.redTick rhVoteClose)
      let m := s.dev.plan.modules
      let passed := votePasses m r
      let missing := voteMissing m r
      let s := s.mapDev (fun d => { d.updLast (fun r => { r with closed := true, passed := passed, deadline := r.deadline || missing }) with
        restrict := if missing then some (d.restrict.getD 0x23) else d.restrict })
      let code := if passed then 1 else if missing then 3 else 2
      let s := (s.updRegs 0 (fun g => { g with vote := code })).updRegs 1 (fun g => { g with vote := code })
      let s := if s.fab.redPlan.present then s.mapDev (fun d => d.write (s.redRecord r passed) false) else s
      s.mapDev (·.tryOutcome)

/-- NORM_DEADLINE at its tick (R378). -/
def doNormDeadlineAt (s : State) : State :=
  match s.dev.exchRun with
  | none => s
  | some r =>
    if r.normClosed then s
    else
      let s := if r.closed then s else doVoteClose s
      let t := (s.advanceTo (r.start + tickT * s.redTick rhNormDeadline)).mapDev doNormDeadline
      -- the module reports that its parameters may now differ from its peers'
      if t.dev.restrict ≠ s.dev.restrict then t.event else t

/-! Control messages received (R427, R459, R486). -/

/-- A message of the running orbit that has not been seen is recorded and queued for the other tree neighbours; none is
returned where it is dropped. -/
def State.hear (s : State) (link type : Nat) (m : CtlMsg) : State × Option OrbitRun :=
  match s.dev.curRun with
  | none => (s, none)
  | some r =>
    let w := ctlMessage type m.origin.toNat m.orbit.toNat m.body
    if (s.link link).state ≠ 2 || (s.link link).keys.isNone || (s.link link).fenced || m.orbit.toNat != r.num % 2 ^ 32 || s.fab.seen.contains w then
      (s, none)
    else
      let s := { s with fab := { s.fab with seen := s.fab.seen ++ [w] } }
      ((s.treeLinks.filter (· != link)).foldl (fun s l => s.updLink l (fun k => { k with ctlQ := k.ctlQ ++ [w] })) s, some r)

/-- VOTE. -/
def doVote (s : State) (link : Nat) (m : CtlMsg) : State :=
  let x := s.hear link 0x01 m
  match x.2 with
  | none => x.1
  | some r =>
    if r.closed then x.1
    else x.1.mapDev (·.updLast (fun r => { r with votes := r.votes.set m.origin.toNat (if bitOf m.body 0 then 2 else 1) }))

/-- VOID: before VOTE_CLOSE it fails the vote; after a passed VOTE_CLOSE it is late (R487). -/
def doVoid (s : State) (link : Nat) (m : CtlMsg) : State :=
  let x := s.hear link 0x02 m
  match x.2 with
  | none => x.1
  | some r =>
    if !r.closed then x.1.mapDev (·.updLast (fun r => { r with voidSeen := true }))
    else if !r.passed then x.1
    else
      x.1.mapDev (fun d =>
        let d := { d.updLast (fun r => { r with endStatus := some (r.endStatus.getD 0x21) }) with restrict := some (d.restrict.getD 0x21) }
        d.pushErr 0x07 0x21 (bitsOf m.body 15 0) 0 0 0)

/-- RETRACT: it is forwarded. -/
def doRetract (s : State) (link : Nat) (m : CtlMsg) : State := (s.hear link 0x03 m).1

/-- COMMIT. -/
def doCommit (s : State) (link : Nat) (m : CtlMsg) : State :=
  let x := s.hear link 0x04 m
  match x.2 with
  | none => x.1
  | some r => x.1.commit (bitsOf m.body 11 0) m.origin.toNat r

end Sys2Proof.Machine
end

