-- ==== Sys2Proof/Machine/ControlOps.lean ====
section
/-! DEFINITION. Control slots, markers and the time base, and the agreement of link keys (R410 to R413, R426, R427, R554,
R555). -/
namespace Sys2Proof.Machine

/-- Markers, exchanges and holdover in sixteenths of a nanosecond (R412, Table 13-5). -/
def markerWindow : Nat := 400 * usT
def holdoverSpan : Nat := 4000 * usT
/-- 2 ns. -/
def lockBound : Nat := 32
/-- 100 ppm of a control period. -/
def slewStep : Nat := 16

def digest64 (d : BitVec 384) : W64 := BitVec.ofNat 64 d.toNat

/-! Link keys. -/

/-- The installed plan names more than one module, so links agree keys (R554). -/
def State.fabricInUse (s : State) : Bool := s.dev.plan.installed && decide (1 < s.dev.plan.modules)

/-- A link may agree keys: it is UP, unkeyed, a session is open and its peer reports the same DIGEST. -/
def State.keyxDue (s : State) (link : Nat) : Bool :=
  let l := s.link link
  s.fabricInUse && l.state == 2 && !l.fenced && l.keys.isNone && s.sec.session.isSome && l.heard
    && l.peerDigest == digest64 s.dev.plan.digest

/-- Bytes 1 to 6 of a key-exchange record (Table 18-9). -/
def keyxIds (module link peer peerLink : Nat) : List Byte := leBytes 2 module ++ leBytes 1 link ++ leBytes 2 peer ++ leBytes 1 peerLink

def State.jobSecret (s : State) : List Byte := match s.sec.session with
  | some x => keyBytes x.jobSecret
  | none => List.replicate 32 0

/-- HMAC of a record under the job secret. -/
def State.keyxMac (s : State) (ids pub : List Byte) : List Byte := hmac384 s.jobSecret (leBytes 48 s.dev.plan.digest.toNat ++ ids ++ pub)

/-- The record that this side sends, 512 B. -/
def State.keyxRecord (s : State) (link eph : Nat) : BitVec 4096 :=
  let t := s.topo s.me link
  let ids := keyxIds s.me link (tpModule t) (tpLink t)
  let pub := ecPublic eph
  BitVec.ofNat 4096 (leNat ([0x10] ++ ids ++ [0] ++ pub ++ List.replicate 7 0 ++ s.keyxMac ids pub))

/-- Info of the key derivation: the two (module, link) pairs in ascending module order. -/
def keyInfo (m l pm pl : Nat) : List Byte :=
  let a := leBytes 2 m ++ leBytes 1 l
  let b := leBytes 2 pm ++ leBytes 1 pl
  if m < pm then a ++ b else b ++ a

/-- Sending and receiving keys from an exchange. -/
def State.deriveKeys (s : State) (link eph : Nat) (pub : BitVec 776) : Option (BitVec 256 × BitVec 256) :=
  match ecdh eph (leBytes 97 pub.toNat) with
  | none => none
  | some z =>
    let t := s.topo s.me link
    let k := hkdf384 (leBytes 48 s.dev.plan.digest.toNat) z (keyInfo s.me link (tpModule t) (tpLink t)) 64
    let first : BitVec 256 := BitVec.ofNat 256 (leNat (k.take 32))
    let second : BitVec 256 := BitVec.ofNat 256 (leNat (k.drop 32))
    some (if s.me < tpModule t then (first, second) else (second, first))

/-- Keys are installed at the reservation after both exchanges have passed. -/
def State.installKeys (s : State) (link j : Nat) : State :=
  let l := s.link link
  match l.keys, l.eph, l.keyxPeer with
  | none, some eph, some pub => if l.keyxSent && decide (l.keyxSlot < j) then s.updLink link (fun l => { l with keys := s.deriveKeys link eph pub }) else s
  | _, _, _ => s

/-- A key-exchange record arrives (R555). -/
def doKeyx (s : State) (link : Nat) (k : KeyxIn) : State :=
  if !s.keyxDue link then s
  else
    let t := s.topo s.me link
    let ids := keyxIds k.module.toNat k.link.toNat k.peerModule.toNat k.peerLink.toNat
    let pub := leBytes 97 k.ephPub.toNat
    let ok := !k.reservedNonzero && tpValid t && k.module.toNat == tpModule t && k.link.toNat == tpLink t && k.peerModule.toNat == s.me
      && k.peerLink.toNat == link && (ecPoint pub).isSome && s.keyxMac ids pub == leBytes 48 k.hmac.toNat
    if ok then s.updLink link (fun l => { l with keyxPeer := some k.ephPub, keyxSlot := s.dev.time / slotT })
    else (s.mapDev (·.pushErr 0x08 0x00 (unitLink link) 0 0 0)).event

/-! The control slot. -/

/-- The marker as 64 bytes (Table 13-4). -/
def Marker.bytes (m : Marker) : List Byte :=
  leBytes 8 m.sendTime.toNat ++ leBytes 8 m.echoSend.toNat ++ leBytes 8 m.echoRecv.toNat ++ leBytes 2 m.module.toNat
    ++ leBytes 1 m.link.toNat ++ leBytes 1 (m.state.toNat + 8 * m.depth.toNat) ++ leBytes 8 m.digest.toNat ++ leBytes 5 m.epoch.toNat
    ++ List.replicate 23 0

/-- The marker that a link sends at the current time (R411). -/
def State.marker (s : State) (link : Nat) : Marker :=
  let l := s.link link
  { sendTime := BitVec.ofNat 64 s.dev.time, echoSend := l.echoSend, echoRecv := l.echoRecv, module := BitVec.ofNat 11 s.me
    link := BitVec.ofNat 6 link, state := BitVec.ofNat 3 s.fab.tb.state, depth := BitVec.ofNat 4 s.fab.tb.depth
    digest := digest64 s.dev.plan.digest, epoch := BitVec.ofNat 40 s.fab.epoch }

/-- Bytes of the four control frames up to the tag (R426): marker, messages in order, zeros behind them. -/
def controlBytes (m : Marker) (msgs : List (BitVec 256)) : List Byte :=
  m.bytes ++ (msgs.map (fun w => leBytes 32 w.toNat)).flatten ++ List.replicate (32 * (61 - msgs.length)) 0

/-- The tag of a control slot: one message under the link's key and the control slot's initial value (R407, Table 13-3). -/
def controlTag (key : BitVec 256) (j : Nat) (data : List Byte) : BitVec 128 :=
  let iv := beBytes 12 (2 ^ 55 + j % 2 ^ 54)
  BitVec.ofNat 128 (leNat (gcmTag (keyBytes key) iv [] (gcmCrypt (keyBytes key) iv data)))

/-- One UP direction's control frames at slot j: its key-exchange record where one is due, its marker, and its waiting
messages in arrival order, up to 61, or 45 beside a record; a link without keys carries no message (R426, R427, R554). -/
def State.sendControl (s : State) (j link : Nat) : State :=
  let l := s.link link
  if l.state ≠ 2 || l.fenced then s
  else
    let s := if l.marked then s else s.updLink link (fun l => { l with markerLosses := satAdd 0xFF l.markerLosses 1 })
    let s := s.installKeys link j
    let record := s.keyxDue link
    let x : Nat × State := match (s.link link).eph with
      | some e => (e, s)
      | none => if record then ((s.dev.draw).1 % (p384n - 1) + 1, s.mapDev (fun d => d.draw.2)) else (0, s)
    let s := x.2
    let s := if record then s.updLink link (fun l => { l with eph := some x.1, keyxSent := true, outData := s.keyxRecord link x.1 }) else s
    let m := s.marker link
    let msgs := match (s.link link).keys with
      | none => []
      | some _ => (s.link link).ctlQ.take (if record then 45 else 61)
    let tag := match (s.link link).keys with
      | none => 0
      | some k => controlTag k.1 j (controlBytes m msgs)
    s.updLink link (fun l => { l with outMarker := some m, outMsgs := msgs, outTag := tag, ctlQ := l.ctlQ.drop msgs.length, marked := false })

/-- This module's own messages enter the queues of its tree links; a copy that comes back has been seen (R427). -/
def State.queueOwn (s : State) : State :=
  let ms := s.dev.ownMsgs
  let s := { s with dev := { s.dev with ownMsgs := [] }, fab := { s.fab with seen := s.fab.seen ++ ms } }
  s.treeLinks.foldl (fun s l => s.updLink l (fun k => { k with ctlQ := k.ctlQ ++ ms })) s

/-- The offset estimate shrinks by what a slew of 100 ppm removes in a control period. -/
def slew (o : Int) : Int := if 0 ≤ o then max 0 (o - slewStep) else min 0 (o + slewStep)

/-- CONTROL_SLOT: the next reservation begins (R416, R426, R452, R460). -/
def doControlSlot (s : State) : State :=
  let j := max s.fab.slot ((s.dev.time + slotT - 1) / slotT)
  let s := s.advanceTo (slotT * j)
  let s := { s with fab := { s.fab with slot := j + 1, tb := { s.fab.tb with offset := slew s.fab.tb.offset } } }
  let s := s.sendVote
  let s := match s.dev.curRun with
    | none => s
    | some r => (List.range s.fab.redPlan.count).foldl (fun s k => s.commitSlot k r) s
  let s := s.queueOwn
  (List.range 48).foldl (fun s l => s.sendControl j l) s

/-! The time base. -/

/-- The marker gives this module's time: its parent's, or its backup's where the parent may be left (R410, R412). -/
def State.takesTime (s : State) (link : Nat) (m : MarkerIn) : Bool :=
  let tb := s.fab.tb
  let primary := s.timeParent s.me == link
  let backup := s.timeBackup s.me == link
  s.dev.plan.installed && !s.isRoot && (primary || backup)
    && (tb.parent == link
      || (tb.state != 2 && (primary || decide (48 ≤ tb.parent) || (s.link tb.parent).state != 2 || tb.state == 3))
      || (tb.state == 2 && decide (tb.lastExch + markerWindow ≤ s.dev.time) && m.peerState == 2))

/-- Offset and one-way delay of a complete exchange (R411). -/
def exchOffset (t1 t2 t3 t4 : Nat) : Int := ((t2 : Int) - t1 - ((t4 : Int) - t3)) / 2
def exchDelay (t1 t2 t3 t4 : Nat) : Nat := (((t2 : Int) - t1 + ((t4 : Int) - t3)) / 2).toNat

/-- A complete exchange with the source of job time corrects it (R412): a step before the first LOCKED, a slew after it. -/
def State.correctTime (s : State) (link : Nat) (m : MarkerIn) (off : Int) : State :=
  let tb := s.fab.tb
  let good := if off.natAbs ≤ lockBound then tb.good + 1 else 0
  let now := if tb.locked then s.dev.time else ((s.dev.time : Int) - off).toNat
  let lock := m.peerState == 2 && decide (16 ≤ good)
  let state := if lock then 2 else if tb.state = 0 then 1 else tb.state
  { s with
    dev := { s.dev with time := now }
    fab := { s.fab with
      slot := if tb.locked then s.fab.slot else now / slotT + 1
      tb := { tb with
        state := state, parent := link, depth := m.peerDepth.toNat + 1, good := good, locked := tb.locked || lock
        offset := if tb.locked then off else 0, lastExch := now } } }

/-- TIME_MARKER: a marker arrives on a link. A control slot whose tag fails is counted and recorded, and nothing of it is
used (R407, R490, LST_ERR). -/
def doTimeMarker (s : State) (link : Nat) (m : MarkerIn) : State :=
  let l := s.link link
  if l.state ≠ 2 || l.fenced then s
  else
    let s := s.advanceTo m.recvTime.toNat
    if m.tagBad && l.keys.isSome then
      (s.updLink link (fun l => { l with tagFails := satAdd 0xFF l.tagFails 1 })).mapDev (·.pushErr 0x08 0x00 (unitLink link) 0 0 0)
    else
    let whole := l.outMarker.isSome && (m.echoSend != 0 || m.echoRecv != 0)
    let t1 := m.sendTime.toNat
    let t2 := m.recvTime.toNat
    let t3 := m.echoSend.toNat
    let t4 := m.echoRecv.toNat
    let s := s.updLink link (fun l => { l with
      heard := true, peerModule := m.peerModule.toNat, peerLink := m.peerLink.toNat, peerDigest := m.digest
      echoSend := m.sendTime, echoRecv := m.recvTime, marked := l.marked || whole
      delay := if whole then exchDelay t1 t2 t3 t4 else l.delay })
    if !s.takesTime link m then s
    else if whole then s.correctTime link m (exchOffset t1 t2 t3 t4)
    else { s with fab := { s.fab with tb := { s.fab.tb with state := if s.fab.tb.state = 0 then 1 else s.fab.tb.state, parent := link } } }

def State.timeAlert (s : State) : State := (s.updRegs 0 (fun g => { g with timeAlert := true })).updRegs 1 (fun g => { g with timeAlert := true })

/-- TIME_HOLDOVER: 400 us have passed in LOCKED without a complete exchange. -/
def doTimeHoldover (s : State) : State :=
  if s.fab.tb.state ≠ 2 || s.isRoot || !s.dev.plan.installed then s
  else
    let s := s.advanceTo (s.fab.tb.lastExch + markerWindow)
    { s with fab := { s.fab with tb := { s.fab.tb with state := 3, good := 0, holdSince := s.dev.time } } }.timeAlert

/-- TIME_LOST: HOLDOVER has lasted 4 ms; the running orbit is voted void (R413). -/
def doTimeLost (s : State) : State :=
  if s.fab.tb.state ≠ 3 then s
  else
    let s := s.advanceTo (s.fab.tb.holdSince + holdoverSpan)
    let s := { s with fab := { s.fab with tb := { s.fab.tb with state := 4 } } }
    match s.dev.curRun with
    | none => s
    | some r => s.mapDev (·.voteVoid r.num rsTime (unitOrb 0) 0)

end Sys2Proof.Machine
end

