-- ==== Sys2Proof/Machine/Registers.lean ====
section
/-! DEFINITION. The module's registers as they read: every register block of Table 17-5, each register with its offset, its
width and its fields (R8, R9, R29, R536), and the module register window. -/
namespace Sys2Proof.Machine

/-- A field of a register: its value in bits [hi:lo]. -/
def fld (hi lo v : Nat) : Nat := v % 2 ^ (hi + 1 - lo) * 2 ^ lo
/-- A one-bit field. -/
def flag (i : Nat) (b : Bool) : Nat := if b then 2 ^ i else 0

/-- A register of a block: offset, width in bits and value. -/
structure Reg where
  off : Nat
  width : Nat
  val : Nat
deriving DecidableEq, Repr

/-! Recoveries (Table 16-1). -/

/-- Half of a domain: 0 north, 1 south. -/
def domHalf (kind index : Nat) : Nat :=
  match kind with
  | 0 => index / 64
  | 1 => index / 16
  | 2 => msuIo index
  | 3 => index / 24
  | 4 => index
  | _ => 0

/-- The recovery r covers a domain: it is that domain, its half or the module. -/
def Recovery.covers (r : Recovery) (kind index : Nat) : Bool :=
  (r.kind == kind && r.index == index) || (r.kind == 4 && decide (kind < 4) && r.index == domHalf kind index) || r.kind == 5

/-- A domain is fenced and draining, or being reset. -/
def State.fencedDom (s : State) (kind index : Nat) : Bool := s.recs.any (fun r => r.covers kind index)
def State.resetDom (s : State) (kind index : Nat) : Bool := s.recs.any (fun r => r.covers kind index && r.stage == 2)

/-- A recovery concerns a half. -/
def Recovery.inHalf (r : Recovery) (h : Nat) : Bool := r.kind == 5 || domHalf r.kind r.index == h

/-! Core registers. -/

/-- STATE of CORE_SEQ_STATUS. -/
def Core.seqState (c : Core) (l : LCore) : Nat :=
  if c.switching then 3
  else if c.occupied then (match l.phase with
    | .running => 1
    | .waiting _ _ => 2
    | .yielded => 2
    | _ => 0)
  else match l.phase with
    | .halted => if l.bound then 4 else 0
    | .stopped _ => 5
    | _ => 0

def State.coreSeqStatus (s : State) (n : Nat) : Nat :=
  let c := s.dev.core n
  let l := s.dev.lc c.lc
  fld 31 24 c.stopCode.toNat + fld 23 15 c.lc + fld 14 12 (s.dev.boundTo n).length + fld 11 11 l.orbit + flag 10 c.poisonCtrl
    + fld 6 4 (c.seqState l) + flag 0 c.fault

def State.coreSeqPc (s : State) (n : Nat) : Nat := (s.dev.lc (s.dev.core n).lc).pc % 2 ^ 14

/-- The first STREAM of a core that has not ended. -/
def Core.curStream (c : Core) : Option StreamRun := c.streams.find? (fun r => !r.ended)

/-- The current STREAM has a step to start and waits for its feeder queues (R100). -/
def Core.feedWait (c : Core) : Bool := match c.curStream with
  | some r => stFeed r.entry.word && decide (r.next < r.m) && c.canStep
  | none => false

def Core.arrayStatus (c : Core) : Nat :=
  fld 23 16 c.steps.length + fld 15 12 (match c.curStream with
    | some r => r.mode
    | none => 0) + flag 10 (c.shadow.valid && c.shadow.format != 0) + flag 9 c.load.isSome + flag 8 (!c.steps.isEmpty) + flag 7 (8 ≤ c.handoff.length)
    + flag 6 c.feedWait

/-- CORE_HEALTH, CE_HEALTH and MSU_HEALTH (R491). -/
def HealthRec.reg (h : HealthRec) : Nat := fld 23 16 h.windowCount + fld 15 8 h.persistReset + fld 5 4 h.state + fld 1 0 h.level

def State.coreWdog (s : State) (n : Nat) : Nat :=
  ((s.dev.core n).wdog &&& 0xFFFFFF05#32).toNat + flag 4 (s.fencedDom 0 n) + flag 3 (s.resetDom 0 n)

def State.coreRegs (s : State) (n : Nat) : List Reg :=
  let c := s.dev.core n
  [⟨0x0000, 32, s.coreSeqStatus n⟩, ⟨0x0004, 32, s.coreSeqPc n⟩, ⟨0x0100, 32, c.arrayStatus⟩, ⟨0x0104, 32, c.stepCount.toNat⟩,
   ⟨0x0110, 32, c.chkStatus.toNat⟩, ⟨0x0114, 32, c.chkResid.toNat⟩,
   ⟨0x0140, 32, fld 31 16 c.satCount + flag 3 c.fp32Ovf + flag 2 c.infSeen + flag 1 c.nanSeen + flag 0 c.stickySeen⟩,
   ⟨0x0150, 32, fld 14 8 c.tableSegs + flag 3 c.tableErr + flag 2 c.markerSeen
      + flag 1 (match c.curStream with
        | some r => stTrans r.entry.word
        | none => false)
      + flag 0 (match c.load with
        | some j => j.trans
        | none => false)⟩,
   ⟨0x0154, 32, c.tsbInexact⟩, ⟨0x0160, 32, fld 31 16 c.eccUncorr + fld 15 0 c.eccCorr⟩,
   ⟨0x0170, 32, (s.dev.health.get (unitCore n)).reg⟩, ⟨0x0180, 32, s.coreWdog n⟩]

/-! Coma engine, memory-side unit and segment unit registers. -/

def State.comaRegs (s : State) (g : Nat) : List Reg :=
  let e := s.dev.coma g
  [⟨0x0100, 32, fld 31 24 e.lastStatus.toNat + fld 23 16 e.lastOp.toNat + fld 15 11 e.queue.length + flag 10 e.feed.isSome
      + flag 9 (!e.bindings.isEmpty) + flag 2 e.parityErr + flag 1 e.cmdError + flag 0 (!e.queue.isEmpty)⟩,
   ⟨0x0104, 32, e.routeDrops⟩, ⟨0x0110, 32, fld 31 28 (2 ^ e.bindings.length - 1) + fld 17 0 (131072 - storeUsed e.bindings)⟩,
   ⟨0x0120, 32, (s.dev.health.get (unitComa g)).reg⟩, ⟨0x0180, 32, e.auditPairs⟩, ⟨0x0184, 32, e.auditHits⟩]

/-- The update engine, or the stream multiplier, has a command to run. -/
def Dev.msuBusy (d : Dev) (u : Nat) : Bool :=
  let m := d.msu u
  (d.headCmd opUpdate m.runs).isSome || (d.headCmd opUpdateVec m.runs).isSome || !m.pass2.isEmpty
def Dev.smulBusy (d : Dev) (u : Nat) : Bool := (d.headCmd opSmul (d.msu u).runs).isSome

def State.msuRegs (s : State) (u : Nat) : List Reg :=
  let m := s.dev.msu u
  let e := s.dev.memErr.get u
  [⟨0x0000, 32, fld 31 24 m.lastStatus.toNat + fld 23 20 m.phase + fld 19 4 m.cmd + flag 3 m.fallback + flag 2 (s.dev.smulBusy u)
      + flag 1 m.cmdError + flag 0 (s.dev.msuBusy u)⟩,
   ⟨0x0010, 64, fld 63 32 m.value.toNat + fld 31 16 s.hst.gen.toNat + flag 2 m.mismatch + flag 1 m.held + flag 0 m.stale⟩,
   ⟨0x0020, 32, m.skips⟩, ⟨0x0024, 32, fld 31 16 m.fallbacks + fld 15 0 m.retries⟩,
   ⟨0x0030, 32, (s.dev.health.get (unitMsu u)).reg⟩, ⟨0x0400, 32, m.hotConfig.toNat⟩, ⟨0x0404, 32, m.hotStatus.toNat⟩,
   ⟨0x0408, 32, fld 31 24 e.tagFail + fld 23 12 e.uncorr + fld 11 0 e.corr⟩]

def State.segRegs (s : State) (k : Nat) : List Reg :=
  let f := s.dev.segFaults.get k
  [⟨0x0000, 32, fld 31 20 f.segment + fld 19 16 f.kind + fld 15 8 f.source + flag 1 f.more + flag 0 f.fault⟩, ⟨0x0008, 64, fld 47 0 f.offset⟩]

/-! Orbit controller and link registers. -/

/-- The peer of a link, as its markers report it, is the one of the topology table (R415). -/
def State.peerOk (s : State) (link : Nat) : Bool :=
  let l := s.link link
  let t := s.topo s.me link
  s.dev.plan.installed && l.heard && tpValid t && l.peerModule == tpModule t && l.peerLink == tpLink t
    && l.peerDigest == digest64 s.dev.plan.digest

/-- Links of an IO die that an active entry uses. -/
def State.usedLinks (s : State) (io : Nat) : List Nat :=
  ((List.range 24).map (24 * io + ·)).filter (fun l => !(s.entriesOn l false).isEmpty || !(s.entriesOn l true).isEmpty)

/-- RUN_STATE: 0 IDLE, 1 ARMED, 2 RUNNING. -/
def State.runState (s : State) : Nat := match s.fab.start with
  | none => 0
  | some c => if c.begun = 0 then 1 else 2

def State.primaryIo (s : State) : Nat := if (s.fab.regs.get 1).primary then 1 else 0

def State.orbRegs (s : State) (io : Nat) : List Reg :=
  let g := s.fab.regs.get io
  let tb := s.fab.tb
  let mine := s.recs.filter (·.inHalf io)
  [⟨0x0000, 32, fld 27 22 tb.parent + fld 21 18 tb.depth + fld 17 15 tb.state + fld 11 10 s.runState
      + flag 2 ((s.usedLinks io).any (fun l => (s.link l).heard && !s.peerOk l)) + flag 1 g.timeAlert + flag 0 g.slackAlert⟩,
   ⟨0x0008, 64, s.dev.time % 2 ^ 64⟩, ⟨0x0010, 64, fld 39 0 s.fab.epoch⟩,
   ⟨0x0020, 64, fld 63 48 g.alertTicks + fld 47 32 g.slackEntry + fld 31 0 g.minSlack⟩,
   ⟨0x0028, 64, fld 63 48 g.sendMissed + fld 47 32 g.recvMissed + fld 31 16 g.overdue + fld 15 0 (s.dev.lateSignals.get io)⟩,
   ⟨0x0030, 64, fld 63 32 g.proven + fld 31 0 g.observed⟩,
   ⟨0x0200, 64, if io = s.primaryIo then fld 63 40 s.hst.item + fld 39 32 s.hst.section_ + fld 31 30 s.hst.die + fld 23 16 s.hst.check
      + fld 15 8 s.hst.verStatus.toNat + flag 1 s.dev.plan.installed else 0⟩,
   ⟨0x0300, 32, fld 19 16 g.vote + fld 15 8 g.reason + flag 3 s.fab.red.probeDone + flag 2 g.corrected + flag 1 g.lateFail + flag 0 s.dev.plan.arrival⟩,
   ⟨0x0308, 64, fld 63 48 g.retractions + fld 47 32 g.leftOut + fld 31 0 g.saturated⟩,
   ⟨0x0400, 64, fld 63 32 g.recoveries + fld 31 24 g.lastStatus + fld 23 20 g.lastCause + fld 19 16 g.lastKind + fld 15 4 g.lastIndex
      + flag 3 (mine.any (fun r => r.cause == 3)) + flag 2 (mine.any (fun r => r.stage == 2)) + flag 1 (mine.any (fun r => r.stage == 1))⟩,
   ⟨0x0408, 32, flag 11 g.separated + flag 10 g.noPrimary + flag 9 g.dualPrimary + flag 8 g.strap + flag 1 g.peerAlive + flag 0 g.primary⟩]

def State.linkRegs (s : State) (l : Nat) : List Reg :=
  let k := s.link l
  [⟨0x0000, 32, fld 31 21 k.peerModule + fld 20 15 k.peerLink + fld 14 7 (min 0xFF k.rtt) + flag 3 (s.peerOk l) + fld 2 0 k.state⟩,
   ⟨0x0008, 64, fld 63 32 k.symbols + fld 31 0 k.codewords⟩,
   ⟨0x0010, 64, fld 63 48 k.uncorr + fld 47 32 k.retries + fld 31 16 k.retryFails + fld 15 8 k.tagFails + fld 7 0 k.markerLosses⟩]

/-! Efmus, power and security registers. -/

def State.efmusRegs (s : State) (p : Nat) : List Reg :=
  let x := s.hst.ports.get p
  [⟨0x0000, 32, fld 31 16 x.hold.length + fld 15 8 x.retrains + flag 3 s.sec.session.isSome + flag 2 (p == s.primaryIo) + fld 1 0 x.state⟩]

/-- Cooling class of a code (Table 19-3): 0 A, 1 L, 2 I, 3 none. -/
def classOf (c : BitVec 3) : Nat := if c = 0b110 then 0 else if c = 0b101 then 1 else if c = 0b011 then 2 else 3
/-- Envelope of a class in watts. -/
def envelopeOf (cls : Nat) : Nat := if cls = 0 then 1600 else if cls ≤ 2 then 2600 else 0

def byteOfInt (x : Int) : Nat := (x % 256).toNat

def State.pwrRegs (s : State) (h : Nat) : List Reg :=
  let p := s.pwr.halves.get h
  let t := p.temps
  [⟨0x0000, 32, fld 31 20 p.clock + fld 19 13 p.duty + fld 10 8 s.pwr.coolingId.toNat + fld 7 6 (classOf s.pwr.coolingId) + flag 5 p.kitChanged
      + flag 4 s.pwr.capBelowPlan + flag 3 p.thermalLimit + flag 2 p.powerLimit + flag 1 s.pwr.umbra + flag 0 s.pwr.railsOk⟩,
   ⟨0x0008, 32, fld 31 20 (envelopeOf (classOf s.pwr.coolingId)) + fld 19 8 (s.pwr.capNext.getD s.pwr.cap) + flag 0 s.pwr.capNext.isSome⟩,
   ⟨0x000C, 32, fld 31 20 p.budget + fld 19 8 p.draw⟩,
   ⟨0x0010, 64, fld 63 48 s.pwr.vinMv + fld 47 32 s.pwr.iin10ma + fld 31 16 s.pwr.pinW + fld 15 0 s.pwr.peakW⟩,
   ⟨0x0018, 64, fld 63 56 (byteOfInt t.cda) + fld 55 48 (byteOfInt t.cdb) + fld 47 40 (byteOfInt t.io) + fld 39 32 (byteOfInt t.hbm)
      + fld 31 24 (byteOfInt t.t2) + fld 23 16 (byteOfInt t.inlet)⟩,
   ⟨0x0020, 32, fld 31 16 p.limitEntries + fld 15 8 p.umbraEntries + fld 7 0 p.kitChanges⟩]

/-- Owner tag of the open session, 0 for none. -/
def State.ownerTag (s : State) : Nat := match s.sec.session with
  | some x => x.tag.toNat
  | none => 0

def State.secRegs (s : State) (io : Nat) : List Reg :=
  [⟨0x0000, 32, fld 31 24 s.ownerTag + fld 23 17 s.sec.ownerGen + fld 15 12 (BitVec.toNat s.sec.debug) + flag 11 s.sec.genExhausted
      + flag 10 (s.fabricInUse && (s.usedLinks io).any (fun l => (s.link l).keys.isNone)) + flag 9 s.sec.owner.isSome
      + fld 7 6 (match s.sec.session with
        | some x => x.kind
        | none => 0) + flag 2 s.sec.t2Key.isNone + flag 1 (s.sec.bootFallback.get io) + flag 0 s.sec.bootOk⟩,
   ⟨0x0008, 32, fld 31 16 s.sec.macFails + fld 15 8 s.sec.openFails + fld 7 0 s.sec.sigFails⟩]

/-! The window (Table 17-5). -/

/-- A register block: what it belongs to and the unit's number. -/
inductive Block where
  | core (n : Nat)
  | coma (n : Nat)
  | msu (u : Nat)
  | orb (io : Nat)
  | link (l : Nat)
  | seg (k : Nat)
  | efmus (p : Nat)
  | pwr (h : Nat)
  | sec (io : Nat)
deriving DecidableEq, Repr

/-- The block that a window address lies in. -/
def blockOf (a : Nat) : Option Block :=
  let n := a / 0x10000
  if n < 128 then some (.core n)
  else if n < 0x80 + 32 then some (.coma (n - 0x80))
  else if n < 0xA0 + 16 then some (.msu (n - 0xA0))
  else if n < 0xB0 then none
  else if n < 0xB2 then some (.orb (n - 0xB0))
  else if n < 0xC0 then none
  else if n < 0xF0 then some (.link (n - 0xC0))
  else if n < 0xF6 then some (.seg (n - 0xF0))
  else if n < 0x100 then none
  else if n < 0x102 then some (.efmus (n - 0x100))
  else if n < 0x110 then none
  else if n < 0x112 then some (.pwr (n - 0x110))
  else if n < 0x120 then none
  else if n < 0x122 then some (.sec (n - 0x120))
  else none

def State.blockRegs (s : State) : Block → List Reg
  | .core n => s.coreRegs n
  | .coma n => s.comaRegs n
  | .msu u => s.msuRegs u
  | .orb io => s.orbRegs io
  | .link l => s.linkRegs l
  | .seg k => s.segRegs k
  | .efmus p => s.efmusRegs p
  | .pwr h => s.pwrRegs h
  | .sec io => s.secRegs io

/-- The register that holds an offset of its block. -/
def findReg (o : Nat) : List Reg → Option Reg
  | [] => none
  | r :: rs => if r.off ≤ o ∧ o < r.off + r.width / 8 then some r else findReg o rs

/-- The 32-bit word at a window address that is a multiple of 4 (R9, R536). -/
def State.readWindow (s : State) (a : Nat) : Nat :=
  match blockOf a with
  | none => 0
  | some b => match findReg (a % 0x10000) (s.blockRegs b) with
    | none => 0
    | some r => r.val / 2 ^ (8 * (a % 0x10000 - r.off)) % 2 ^ 32

end Sys2Proof.Machine
end

