-- ==== Sys2Proof/Machine/ExecCore.lean ====
section
/-! DEFINITION. The meanings of the core instructions and of what happens in a core and between cores (chapters 3, 7 and 8 of
the spec): each takes the row's operands to the operation that carries it out. A word that is not the row's is no command of
it (`Fault.notThisCommand`). -/
namespace Sys2Proof.Machine

/-- A command of a unit: its effect on what running work touches. -/
def devRow (s : State) (f : Dev → Dev) : Host.Outcome State Fault Refusal := .next (s.mapDev f)

/-- A core instruction: the word must be one of the row. -/
def coreRow (ok : Bool) (s : State) (f : Dev → Dev) : Host.Outcome State Fault Refusal :=
  if ok then devRow s f else .fault .notThisCommand

/-- A command of the module. -/
def modRow (s : State) (f : State → State) : Host.Outcome State Fault Refusal := .next (f s)

/-- WLOAD (R244). -/
def execWload (core : Fin 128) (w : IWord) (s : State) : Host.Outcome State Fault Refusal :=
  coreRow (wOpcode w == opWload) s (fun d => doWload d core w)

/-- SHADOW_SET_VALID (R81). -/
def execShadowSetValid (core : Fin 128) (s : State) : Host.Outcome State Fault Refusal :=
  devRow s (fun d => doShadowSetValid d core)

/-- WSWAP (R247). -/
def execWswap (core : Fin 128) (w : IWord) (s : State) : Host.Outcome State Fault Refusal :=
  coreRow (wOpcode w == opWswap) s (fun d => doWswap d core w)

/-- WEIGHT_SET_EXCHANGE (R78). -/
def execWeightSetExchange (core : Fin 128) (s : State) : Host.Outcome State Fault Refusal :=
  devRow s (fun d => doWeightSetExchange d core)

/-- STREAM (R248). -/
def execStream (core : Fin 128) (w : IWord) (s : State) : Host.Outcome State Fault Refusal :=
  coreRow (wOpcode w == opStream) s (fun d => doStream d core w)

/-- ARRAY_STEP (R73). -/
def execArrayStep (core : Fin 128) (s : State) : Host.Outcome State Fault Refusal :=
  devRow s (fun d => doArrayStep d core)

/-- MERGE_DELIVERY (R169). -/
def execMergeDelivery (core : Fin 128) (s : State) : Host.Outcome State Fault Refusal :=
  devRow s (fun d => doMergeDelivery d core)

/-- WINDOW_DRAIN (R91). -/
def execWindowDrain (core : Fin 128) (obs : CheckObs) (s : State) : Host.Outcome State Fault Refusal :=
  devRow s (fun d => doWindowDrain d core obs)

/-- STREAM_COMPLETE (R253). -/
def execStreamComplete (core : Fin 128) (s : State) : Host.Outcome State Fault Refusal :=
  devRow s (fun d => doStreamComplete d core)

/-- DRAIN (R254). -/
def execDrain (core : Fin 128) (w : IWord) (s : State) : Host.Outcome State Fault Refusal :=
  coreRow (wOpcode w == opDrain) s (fun d => doDrain d core w)

/-- VOP_VECTOR (R257). -/
def execVopVector (core : Fin 128) (w : IWord) (failGroup : Option Nat) (s : State) : Host.Outcome State Fault Refusal :=
  coreRow (wOpcode w == opVop && !vpScalar w) s (fun d => doVopVector d core w failGroup)

/-- VOP_SCALAR (R263). -/
def execVopScalar (core : Fin 128) (w : IWord) (s : State) : Host.Outcome State Fault Refusal :=
  coreRow (wOpcode w == opVop && vpScalar w) s (fun d => doVopScalar d core w)

/-- MOVE (R265). -/
def execMove (core : Fin 128) (w : IWord) (s : State) : Host.Outcome State Fault Refusal :=
  coreRow (wOpcode w == opMove && !mvToSreg w) s (fun d => doMove d core w)

/-- MOVE_TO_SREG (R267). -/
def execMoveToSreg (core : Fin 128) (w : IWord) (s : State) : Host.Outcome State Fault Refusal :=
  coreRow (wOpcode w == opMove && mvToSreg w) s (fun d => doMoveToSreg d core w)

/-- MCAST (R269). -/
def execMcast (core : Fin 128) (w : IWord) (s : State) : Host.Outcome State Fault Refusal :=
  coreRow (wOpcode w == opMcast) s (fun d => doMcast d core w)

/-- MCAST_MEMBER_DELIVERY (R270). -/
def execMcastMemberDelivery (core : Fin 128) (member : Fin 128) (s : State) : Host.Outcome State Fault Refusal :=
  devRow s (fun d => doMcastMemberDelivery d core member)

/-- DMAKE (R272). -/
def execDmake (core : Fin 128) (w : IWord) (s : State) : Host.Outcome State Fault Refusal :=
  coreRow (wOpcode w == opDmake) s (fun d => doDmake d core w)

/-- GATHER (R274). -/
def execGather (core : Fin 128) (w : IWord) (s : State) : Host.Outcome State Fault Refusal :=
  coreRow (wOpcode w == opGather) s (fun d => doGather d core w)

/-- SCATTER (R274). -/
def execScatter (core : Fin 128) (w : IWord) (s : State) : Host.Outcome State Fault Refusal :=
  coreRow (wOpcode w == opScatter) s (fun d => doScatter d core w)

/-- MERGE (R274). -/
def execMerge (core : Fin 128) (w : IWord) (s : State) : Host.Outcome State Fault Refusal :=
  coreRow (wOpcode w == opMerge) s (fun d => doMerge d core w)

/-- TAKE (R276). -/
def execTake (core : Fin 128) (w : IWord) (s : State) : Host.Outcome State Fault Refusal :=
  coreRow (wOpcode w == opTake) s (fun d => doTake d core w)

/-- TAKE_RESULT (R278). -/
def execTakeResult (core : Fin 128) (s : State) : Host.Outcome State Fault Refusal :=
  devRow s (fun d => doTakeResult d core)

/-- SIGNAL (R279). -/
def execSignal (core : Fin 128) (w : IWord) (s : State) : Host.Outcome State Fault Refusal :=
  coreRow (wOpcode w == opSignal) s (fun d => doSignal d core w)

/-- SIGNAL_ARRIVAL (R220). -/
def execSignalArrival (nth : Nat) (s : State) : Host.Outcome State Fault Refusal :=
  devRow s (fun d => doSignalArrival d nth)

/-- WAIT (R280). -/
def execWait (core : Fin 128) (w : IWord) (s : State) : Host.Outcome State Fault Refusal :=
  coreRow (wOpcode w == opWait) s (fun d => doWait d core w)

/-- FENCE (R281). -/
def execFence (core : Fin 128) (w : IWord) (s : State) : Host.Outcome State Fault Refusal :=
  coreRow (wOpcode w == opFence) s (fun d => doFence d core w)

/-- CHECK_ARRAY (R108). -/
def execCheckArray (core : Fin 128) (w : IWord) (s : State) : Host.Outcome State Fault Refusal :=
  coreRow (wOpcode w == opCheck && ckUnit w == 0) s (fun d => doCheckArray d core w)

/-- CHECK_REGION (R282). -/
def execCheckRegion (core : Fin 128) (w : IWord) (s : State) : Host.Outcome State Fault Refusal :=
  coreRow (wOpcode w == opCheck && ckUnit w == 1) s (fun d => doCheckRegion d core w)

/-- CHECK_IMEM (R282). -/
def execCheckImem (core : Fin 128) (w : IWord) (s : State) : Host.Outcome State Fault Refusal :=
  coreRow (wOpcode w == opCheck && ckUnit w == 2) s (fun d => doCheckImem d core w)

/-- CTXSAVE_YIELD (R231). -/
def execCtxsaveYield (core : Fin 128) (w : IWord) (s : State) : Host.Outcome State Fault Refusal :=
  coreRow (wOpcode w == opCtxsave && !cxAreaEn w) s (fun d => doCtxsaveYield d core w)

/-- CTXSAVE_AREA (R283). -/
def execCtxsaveArea (core : Fin 128) (w : IWord) (s : State) : Host.Outcome State Fault Refusal :=
  coreRow (wOpcode w == opCtxsave && cxAreaEn w) s (fun d => doCtxsaveArea d core w)

/-- CTXRESTORE (R284). -/
def execCtxrestore (core : Fin 128) (w : IWord) (s : State) : Host.Outcome State Fault Refusal :=
  coreRow (wOpcode w == opCtxrestore) s (fun d => doCtxrestore d core w)

/-- HALT (R285). -/
def execHalt (core : Fin 128) (w : IWord) (s : State) : Host.Outcome State Fault Refusal :=
  coreRow (wOpcode w == opHalt) s (fun d => doHalt d core w)

/-- COUNTER_BANK_RELOAD (R321). -/
def execCounterBankReload (die : Fin 4) (parity : Bool) (s : State) : Host.Outcome State Fault Refusal :=
  devRow s (fun d => doCounterBankReload d die parity)

/-- MOVE_COMPLETION (R268). -/
def execMoveCompletion (core : Fin 128) (s : State) : Host.Outcome State Fault Refusal :=
  devRow s (fun d => doMoveCompletion d core)

/-- VOP_COMPLETION (R262). -/
def execVopCompletion (core : Fin 128) (s : State) : Host.Outcome State Fault Refusal :=
  devRow s (fun d => doVopCompletion d core)

end Sys2Proof.Machine
end

