-- ==== Sys2Proof/Machine/CompletionOps.lean ====
section
/-! DEFINITION. Completion records, the two Efmus ports and the host adapter with its rings (R512 to R519, R532, R533). -/
namespace Sys2Proof.Machine

/-! Records (Table 17-3). -/

def flFinal : Nat := 2 ^ 15
def flLinkLost : Nat := 2 ^ 14

/-- Bytes of a completion record. -/
def CompRec.bytes (r : CompRec) : List Byte :=
  leBytes 4 r.handle.toNat ++ leBytes 4 r.seq.toNat ++ [r.status, r.opcode] ++ leBytes 2 r.flags.toNat ++ leBytes 2 r.dropped
    ++ leBytes 2 0 ++ leBytes 8 r.jobTime ++ leBytes 8 r.orbit ++ leBytes 32 r.detail.toNat

/-- Bytes a to b of the detail field hold v, byte 32 being bits [7:0]. -/
def dtl (a b v : Nat) : Nat := v % 256 ^ (b + 1 - a) * 256 ^ (a - 32)

def hPort (h : W32) : Nat := bitsOf h 31 31
def hQueue (h : W32) : Nat := bitsOf h 30 30
def qKey (port queue : Nat) : Nat := 2 * port + queue

def State.updPort (s : State) (p : Nat) (f : Port → Port) : State := { s with hst := { s.hst with ports := s.hst.ports.set p (f (s.hst.ports.get p)) } }
def State.updQueue (s : State) (k : Nat) (f : HQueue → HQueue) : State := { s with hst := { s.hst with queues := s.hst.queues.set k (f (s.hst.queues.get k)) } }
def State.port (s : State) (p : Nat) : Port := s.hst.ports.get p
def State.queue (s : State) (k : Nat) : HQueue := s.hst.queues.get k

/-- A record goes to its port, where it is held up to 4,096 deep; beyond that it is dropped and counted (R514, R533). -/
def State.record (s : State) (port : Nat) (handle : W32) (opcode status flags orbit detail : Nat) : State :=
  let r : CompRec :=
    { handle := handle, seq := s.hst.seq, status := BitVec.ofNat 8 status, opcode := BitVec.ofNat 8 opcode, flags := BitVec.ofNat 16 flags
      dropped := 0, jobTime := s.dev.time, orbit := orbit, detail := BitVec.ofNat 256 detail }
  let s := { s with hst := { s.hst with seq := s.hst.seq + 1 } }
  s.updPort port (fun p => if 4096 ≤ p.hold.length then { p with dropped := p.dropped + 1 } else { p with hold := p.hold ++ [r] })

/-- The one record of a command. -/
def State.finishCmd (s : State) (c : WaitCmd) (status detail : Nat) : State :=
  s.record c.port c.handle (bitsOf c.entry 7 0) status flFinal 0 detail

/-! The adapter's rings (R516 to R519). -/

/-- Entries of a submission ring and of a completion ring. -/
def sqSize (q : HQueue) : Nat := let n := bitsOf q.sqBase 3 0; 2 ^ (if 4 ≤ n ∧ n ≤ 10 then n else 4)
def cqSize (q : HQueue) : Nat := let n := bitsOf q.cqBase 3 0; 2 ^ (if 4 ≤ n ∧ n ≤ 12 then n else 4)
def qEnabled (q : HQueue) : Bool := bitOf q.sqBase 4
def ringAddr (base : W64) : Nat := hostBase + base.toNat / 4096 * 4096

def HQueue.full (q : HQueue) : Bool := (q.cqTail + 1) % cqSize q == q.cqHead.toNat % cqSize q

/-- Write a record into its completion ring and raise the ring's vector, while the ring has room; otherwise it waits. -/
def State.ringWrite (s : State) (k : Nat) (r : CompRec) : State :=
  let q := s.queue k
  if q.full || !q.waiting.isEmpty then s.updQueue k (fun q => { q with waiting := q.waiting ++ [r] })
  else
    let s := { s with dev := { s.dev with ms := { s.dev.ms with mem := memWriteList s.dev.ms.mem (ringAddr q.cqBase + 64 * q.cqTail) r.bytes } } }
    s.updQueue k (fun q => { q with cqTail := (q.cqTail + 1) % cqSize q, raised := if q.masked then q.raised else q.raised + 1 })

/-- Records that wait in the adapter are written while there is room. -/
def drainRing : Nat → Nat → State → State
  | 0, _, s => s
  | n + 1, k, s =>
    let q := s.queue k
    match q.waiting with
    | [] => s
    | r :: rest =>
      if q.full then s
      else drainRing n k (((s.updQueue k (fun q => { q with waiting := [] })).ringWrite k r).updQueue k (fun q => { q with waiting := rest }))

/-- A record of the module reaches the adapter: for a handle no longer outstanding it is discarded (R515). -/
def State.adapterTake (s : State) (r : CompRec) : State :=
  let k := qKey (hPort r.handle) (hQueue r.handle)
  if (s.queue k).outstanding.any (fun o => o.handle == r.handle) then
    let s := if bitOf r.flags 15 then s.updQueue k (fun q => { q with outstanding := q.outstanding.filter (fun o => o.handle != r.handle) }) else s
    s.ringWrite k r
  else s.updQueue k (fun q => { q with lateRecords := satAdd 0xFFFF q.lateRecords 1 })

/-- The next record of a port is delivered, carrying the records dropped before it (R514). -/
def State.deliverOne (s : State) (p : Nat) : State :=
  match (s.port p).hold with
  | [] => s
  | r :: rest =>
    let r := { r with dropped := min 0xFFFF (s.port p).dropped }
    (s.updPort p (fun x => { x with hold := rest, dropped := 0 })).adapterTake r

/-- COMPLETION_RECORD. -/
def doCompletionRecord (s : State) (p : Nat) : State := if (s.port p).state = 2 then s.deliverOne p else s

/-- A handle is completed by the adapter itself (R515, R529). -/
def State.adapterDone (s : State) (k : Nat) (o : Outstanding) (status detail : Nat) : State :=
  let r : CompRec :=
    { handle := o.handle, seq := 0xFFFFFFFF, status := BitVec.ofNat 8 status, opcode := o.opcode, flags := BitVec.ofNat 16 (flFinal + flLinkLost)
      dropped := 0, jobTime := s.dev.time, orbit := 0, detail := BitVec.ofNat 256 detail }
  (s.updQueue k (fun q => { q with outstanding := q.outstanding.filter (fun x => x.handle != o.handle)
                                   linkLost := q.linkLost || decide (status = 0x30) })).ringWrite k r

/-- Entry i of a submission ring. -/
def State.sqEntry (s : State) (q : HQueue) (i : Nat) : Entry64 := BitVec.ofNat 512 (memRead s.dev.ms.mem (ringAddr q.sqBase + 64 * i) 64)

/-- The handle of the n-th entry a queue accepts: port, queue and count (R517). -/
def handleNum (k n : Nat) : Nat := k / 2 * 2 ^ 31 + k % 2 * 2 ^ 30 + n % 2 ^ 30

/-- The acknowledgement of an entry: its handle under a valid bit (R517). -/
def ackBytes (h : Nat) : List Byte := leBytes 8 (2 ^ 32 + h)

/-- The entry at the head of a submission queue: it gets its handle and its acknowledgement (R517). -/
def State.fetchOne (k : Nat) (s : State) : State :=
  let q := s.queue k
  let e := s.sqEntry q q.sqHead
  let h := handleNum k q.accepted
  let o : Outstanding := ⟨BitVec.ofNat 32 h, BitVec.ofNat 8 (bitsOf e 7 0), bitsOf e 7 0 == 0x40 && bitsOf e 67 64 == 5⟩
  let ack := ringAddr q.ackBase + 8 * q.sqHead
  let s := { s with dev := { s.dev with ms := { s.dev.ms with mem := memWriteList s.dev.ms.mem ack (ackBytes h) } } }
  let s := s.updQueue k (fun q => { q with
    sqHead := (q.sqHead + 1) % sqSize q, accepted := q.accepted + 1, outstanding := q.outstanding ++ [o] })
  if (s.port (k / 2)).lost then s.adapterDone k o 0x30 0 else s

/-- Fetch entries in ring order up to the tail (R517). -/
def fetchEntries : Nat → Nat → State → State
  | 0, _, s => s
  | n + 1, k, s => if (s.queue k).sqHead = (s.queue k).sqTail.toNat % sqSize (s.queue k) then s else fetchEntries n k (s.fetchOne k)

/-- SQ_DOORBELL: a write of EHL_SQ_TAIL. `ringFails`: the ring read that it starts fails on PCIe; FETCH_ERR is set and the queue
stops fetching (EHL_Q_STATUS). -/
def doSqDoorbell (s : State) (port queue : Nat) (tail : W32) (ringFails : Bool) : State :=
  let k := qKey port queue
  let s := s.updQueue k (fun q => { q with sqTail := tail &&& 0xFFFF })
  if qEnabled (s.queue k) && !(s.queue k).fetchErr then
    if ringFails then s.updQueue k (fun q => { q with fetchErr := true }) else fetchEntries 1024 k s
  else s

/-- CQ_HEAD_WRITE: a write of EHL_CQ_HEAD. -/
def doCqHeadWrite (s : State) (port queue : Nat) (head : W32) : State :=
  let k := qKey port queue
  drainRing 4096 k (s.updQueue k (fun q => { q with cqHead := head &&& 0xFFFF }))

/-- QUEUE_ENABLE: a write of EHL_SQ_BASE, the driver having written the other two bases; none of the bases changes while
ENABLE is 1 (R519). -/
def doQueueEnable (s : State) (port queue : Nat) (value ack cq : W64) : State :=
  s.updQueue (qKey port queue) (fun q =>
    if qEnabled q then { q with sqBase := setBits q.sqBase 4 4 (bitsOf value 4 4) }
    else
      let q := { q with
        sqBase := BitVec.ofNat 64 (value.toNat / 4096 * 4096 + value.toNat % 32)
        ackBase := BitVec.ofNat 64 (ack.toNat / 4096 * 4096)
        cqBase := BitVec.ofNat 64 (cq.toNat / 4096 * 4096 + cq.toNat % 16) }
      if bitOf value 4 then { q with accepted := 0, sqTail := 0, cqHead := 0, sqHead := 0, cqTail := 0 } else q)

/-! Ports (R514, R515, R529, R556). -/

/-- Every record held for a port that is UP is delivered in order. -/
def deliverHeld : Nat → Nat → State → State
  | 0, _, s => s
  | n + 1, p, s => deliverHeld n p (s.deliverOne p)

/-- Kind-5 RESET_DOMAIN handles of a port: the adapter completes them once the port is UP and the module READY (R529). -/
def State.finishKind5 (s : State) (p : Nat) : State :=
  if (s.port p).state ≠ 2 || !s.pwr.ready then s
  else
    [qKey p 0, qKey p 1].foldl (fun s k =>
      ((s.queue k).outstanding.filter (·.kind5)).foldl (fun s o => s.adapterDone k o 0x31 (dtl 32 32 5 + dtl 36 39 (s.moon.crashSeq - 1))) s) s

/-- EFMUS_PORT_UP: the port has trained and agreed keys with the adapter. -/
def doEfmusPortUp (s : State) (p : Nat) : State :=
  if (s.port p).state = 2 then s
  else
    let s := s.updPort p (fun x => { x with state := 2, lost := false, keyed := true })
    (deliverHeld 4096 p s).finishKind5 p

/-- EFMUS_PORT_DOWN. -/
def doEfmusPortDown (s : State) (p : Nat) : State :=
  if (s.port p).state ≠ 2 then s
  else s.updPort p (fun x => { x with state := 0, keyed := false, retrains := satAdd 0xFF x.retrains 1 })

/-- PORT_LINK_LOST: 100 ms without the port; every outstanding handle but a kind-5 reset is completed. -/
def doPortLinkLost (s : State) (p : Nat) : State :=
  if (s.port p).state = 2 || (s.port p).lost then s
  else
    let s := s.updPort p (fun x => { x with lost := true })
    [qKey p 0, qKey p 1].foldl (fun s k =>
      ((s.queue k).outstanding.filter (fun o => !o.kind5)).foldl (fun s o => s.adapterDone k o 0x30 0) s) s

/-- RESET_HOLD_TIMEOUT: 10 s have passed since the port went DOWN. -/
def doResetHoldTimeout (s : State) (p : Nat) : State :=
  if (s.port p).state = 2 && s.pwr.ready then s
  else
    [qKey p 0, qKey p 1].foldl (fun s k =>
      ((s.queue k).outstanding.filter (·.kind5)).foldl (fun s o => s.adapterDone k o 0x30 0) s) s

/-- The adapter holds the handle of a command that it has carried to the module. -/
def State.carried (s : State) (c : WaitCmd) : State :=
  let k := qKey c.port c.queue
  if (s.queue k).outstanding.any (fun o => o.handle == c.handle) then s
  else s.updQueue k (fun q => { q with outstanding := q.outstanding
    ++ [⟨c.handle, BitVec.ofNat 8 (bitsOf c.entry 7 0), bitsOf c.entry 7 0 == 0x40 && bitsOf c.entry 67 64 == 5⟩] })

/-- Registers of a queue block at BAR0. -/
def State.queueRegs (s : State) (k : Nat) : List Reg :=
  let q := s.queue k
  [⟨0x000, 64, q.sqBase.toNat⟩, ⟨0x008, 64, q.ackBase.toNat⟩, ⟨0x010, 64, q.cqBase.toNat⟩, ⟨0x018, 32, q.sqTail.toNat⟩, ⟨0x01C, 32, q.cqHead.toNat⟩,
   ⟨0x020, 32, fld 31 16 q.lateRecords + flag 3 q.linkLost + flag 2 q.full + flag 1 q.fetchErr + flag 0 (!q.outstanding.isEmpty)⟩]

end Sys2Proof.Machine
end

