-- ==== Sys2Proof/Machine/HealthOps.lean ====
section
/-! DEFINITION. Unit health: the repeat of a failed check, the hot-channel watch, the health windows, the flash copies of the
health records and the delivery of error records (R357, R469 to R471, R475, R476, R480, R490). -/
namespace Sys2Proof.Machine

/-! The repeat (R469 to R471, R488). -/

/-- KIND of CORE_CHK_STATUS. -/
def Core.chkKind (c : Core) : Nat := bitsOf c.chkStatus 7 4
/-- The residues of the last failure where it is a residue failure, 0 otherwise (Table 15-8). -/
def Core.residue (c : Core) : Nat := if c.chkKind = 1 then c.chkResid.toNat else 0

/-- The instruction whose check failed. -/
def Core.repeatOf (c : Core) : Option Issuer :=
  match c.pendingRepeat with
  | some (.step stream _) => (findStream stream c.streams).map (·.who)
  | some (.group _) => c.vecQ.head?.map (·.who)
  | some .array => c.arrayQ.head?.map (·.who)
  | none => none

/-- The repeat of a core's check failed: PERSISTENT is set, the core fails, and its logical core stops at the instruction
(R236, R471). -/
def Dev.repeatFailed (d : Dev) (core where_ : Nat) (kind : BitVec 4) (c : Core) : Dev :=
  let c := { c with chkStatus := setBits (setBits c.chkStatus 7 4 kind.toNat) 1 1 1, pendingRepeat := none }
  let d := match (d.core core).repeatOf with
    | some w => d.atInstr w
    | none => d
  (d.setCore core c).failUnit (unitCore core) kind.toNat where_ c.residue

/-- The repeat of a core's check passed: REPEAT_PASSED is set and the event is a transient (R470). -/
def Dev.repeatPassed (d : Dev) (core where_ : Nat) : Dev :=
  let c := { (d.core core).notePassed with pendingRepeat := none }
  (d.setCore core c).transient (unitCore core) c.chkKind where_ c.residue

/-- The step of a repeat scope. -/
def findStep (stream idx : Nat) : List OpenStep → Option OpenStep
  | [] => none
  | s :: r => if s.stream = stream ∧ s.idx = idx then some s else findStep stream idx r

/-- A core repeats the scope of its failed check. -/
def repeatCore (d : Dev) (core : Nat) (obs : CheckObs) : Dev :=
  let c := d.core core
  if c.fenced || c.retired then d
  else
    match c.pendingRepeat, obs with
    | none, _ => d
    | some (.step stream idx), .pass =>
      match findStream stream c.streams, findStep stream idx c.steps with
      | some r, some s => ((drainOut (d.repeatPassed core idx) core r s).after core)
      | _, _ => d
    | some (.step stream idx), .fail k q =>
      let c := match findStep stream idx c.steps with
        | some s => if k = 1 then c.noteResid s.check q.toNat else c
        | none => c
      d.repeatFailed core idx k c
    | some (.group g), .pass =>
      (((d.repeatPassed core g).updCore core (fun c =>
        { c with vecQ := updHead (fun r => { r with failGroup := none, held := false }) c.vecQ })).vpump core).after core
    | some (.group g), .fail _ _ => d.repeatFailed core g 7 c
    | some .array, .pass => (((d.repeatPassed core 0).popArray core).pump core).after core
    | some .array, .fail _ _ => d.repeatFailed core 0 5 c

/-- A Coma engine repeats the command at the head of its queue, which is its scope (R149). -/
def repeatComa (d : Dev) (g : Nat) (bad : Bool) : Dev :=
  let e := d.coma g
  match e.queue with
  | [] => d
  | c :: _ =>
    if !e.pendingRepeat then d
    else match hOp c.hdr with
      | 0x01 => doGatherRows d g bad
      | 0x02 => doGatherSeq d g bad
      | 0x03 => doGatherCols d g bad
      | 0x04 => doRoute d g bad
      | 0x05 => doSeqload d g bad
      | 0x11 => doScatterRows d g bad
      | 0x12 => doScatterSlot d g bad
      | 0x13 => doScatterCols d g bad
      | 0x21 => doMergeBind d g bad
      | 0x22 => doMergeUnbind d g bad
      | 0x23 => doSlotsum d g bad
      | 0x24 => doAudit d g bad
      | 0x25 => doAuditClose d g bad
      | _ => d

/-- A memory-side unit repeats a pass-1 command, a patch of pass 2, or an SMUL pass (R393, R394, R399). -/
def repeatMsu (d : Dev) (u : Nat) (bad : Bool) : Dev :=
  let m := d.msu u
  if m.repeatUpd then
    (if !m.pass2.isEmpty then doUpdatePass2 d u bad
     else if (d.headCmd opUpdate m.runs).isSome then doUpdate d u bad else doUpdateVec d u bad)
  else if m.repeatMul then doSmul d u bad
  else d

/-- CHECK_REPEAT. A collective engine pair repeats within BUCKET_FINALISE and ENCODE_COMPARE, and units of the other classes
repeat nothing (Table 15-1). -/
def doCheckRepeat (d : Dev) (unit : Nat) (obs : CheckObs) : Dev :=
  let i := unit % 4096
  let bad := match obs with
    | .pass => false
    | .fail _ _ => true
  match unit / 4096 with
  | 0 => if i < 128 then repeatCore d i obs else d
  | 1 => if i < 32 then repeatComa d i bad else d
  | 2 => if i < 16 then repeatMsu d i bad else d
  | _ => d

/-! The hot-channel watch (R357). -/

def hotRunLimit (c : W32) : Nat := max 1 (bitsOf c 31 24)
def hotWindowUs (c : W32) : Nat := max 1 (bitsOf c 23 16)
def hotRatio (c : W32) : Nat := max 17 (bitsOf c 15 8)
def hotMinKilo (c : W32) : Nat := bitsOf c 7 0
def hotSet (s : W32) : Bool := bitOf s 0

/-- Channels of a memory-side unit. -/
def msuChannels (u : Nat) : Nat := if u < 12 then 32 else 12

/-- The lowest channel with the largest count: count and channel. -/
def maxChannel (f : Nat → Nat) : Nat → Nat × Nat
  | 0 => (f 0, 0)
  | n + 1 => let m := maxChannel f n; if m.1 < f (n + 1) then (f (n + 1), n + 1) else m

/-- The window of a unit's counts is imbalanced; Cmean is the exact quotient of the total and the number of channels. -/
def hotImbalanced (cfg : W32) (channels total cmax : Nat) : Bool :=
  decide (hotMinKilo cfg * 1024 ≤ total) && decide (hotRatio cfg * total < 16 * cmax * channels)

/-- HOT_WINDOW: a window of a unit ends. -/
def doHotWindow (s : State) (u : Nat) : State :=
  let d := s.dev
  let m := d.msu u
  let n := msuChannels u
  let f (c : Nat) : Nat := d.accesses.get (32 * u + c)
  let total := ((List.range n).map f).foldl (· + ·) 0
  let top := maxChannel f (n - 1)
  let imb := hotImbalanced m.hotConfig n total top.1
  let run := if imb then m.hotRun + 1 else 0
  let fire := imb && decide (hotRunLimit m.hotConfig ≤ run) && !hotSet m.hotStatus
  let st := setBits m.hotStatus 1 1 (if imb then 1 else 0)
  let st := if fire then setBits (setBits (setBits st 31 16 (satAdd 0xFFFF (bitsOf st 31 16) 1)) 12 8 top.2) 0 0 1 else st
  let d := { d with accesses := d.accesses.clear (32 * u) (32 * u + 32) }
  let s := { s with dev := d.updMsu u (fun m => { m with hotStatus := st, hotRun := min 255 run }) }
  if fire then s.event else s

/-! Health records (R475, R476, R480). -/

/-- Minutes of a unit's health window: HIST_WINDOW hours, or 24 hours for a unit of class 0x5 to 0x7. -/
def windowMinutes (s : Settings) (unit : Nat) : Nat := if unit / 4096 ≤ 4 then 60 * s.histWindow else 1440

/-- HEALTH_WINDOW_EXPIRY: the window's powered hours have passed. -/
def doHealthWindowExpiry (d : Dev) (unit : Nat) : Dev :=
  let h := d.health.get unit
  if !h.windowOpen ∨ 8 ≤ unit / 4096 then d
  else
    { d with
      poweredMin := max d.poweredMin (h.windowStart + windowMinutes d.settings unit)
      health := d.health.set unit { h with windowCount := 0, memCount := 0, windowOpen := false } }

/-- HEALTH_FLUSH: Moonlet writes every record whose LEVEL, STATE or count has changed to flash. -/
def doHealthFlush (d : Dev) : Dev :=
  { d with health := d.health.mapVals (fun h => { h with
    flashState := h.state, flashLevel := h.level, flashCount := h.windowCount, flashBad := false }) }

/-- The last n of a list. -/
def lastN {α : Type} (n : Nat) (l : List α) : List α := l.drop (l.length - n)

/-- ERROR_RECORD_DELIVERY: the oldest record of an IO die goes to flash, which keeps the last 4,096, and to the chassis
(R490). -/
def doErrorRecordDelivery (s : State) (io : Nat) : State :=
  match s.dev.errQ.get io with
  | [] => s
  | r :: rest =>
    if !s.pwr.moonletUp then s
    else
      let r := { r with dropped := s.dev.errDropped.get io }
      { s with
        dev := { s.dev with errQ := s.dev.errQ.set io rest, errDropped := s.dev.errDropped.set io 0 }
        moon := { s.moon with errors := lastN 4096 (s.moon.errors ++ [r]), events := s.moon.events + 1 } }

end Sys2Proof.Machine
end

