-- ==== Sys2Proof/Machine/RecoveryOps.lean ====
section
/-! DEFINITION. Watchdogs, the recovery sequence, escalation, separation and crash records, with the end of a plan, of a
session and of everything that the main rails hold (R492 to R510, R549, R557). -/
namespace Sys2Proof.Machine

/-! Poison marks of work that a fence ends (R498). -/

/-- Addresses that a write of one row of a view touches. -/
def rowTargets (d : Dev) (pad : Nat) (v : View) (row : Nat) : List Nat :=
  (((List.range v.inner).map (v.posOf row)).filter (allReal v.dims)).flatMap (readAddrs d pad v)

/-- Addresses that a write of a whole view touches. -/
def viewTargets (d : Dev) (pad : Nat) (v : View) : List Nat :=
  if v.layout = 2 then
    (viewRuns d v).flatMap (fun r => (List.range r.2.2).map (fun i => segAddr d pad v.swz r.1 (r.2.1.toNat + i)))
  else (List.range v.rows).flatMap (rowTargets d pad v)

/-- Destination of a STREAM: none where its results go to the hand-off queue. -/
def streamTarget (e : ArrayEntry) : Option View :=
  if stHandoff e.word then none else some (viewOf (if stAcc e.word ≤ 1 then e.db else e.dc))

/-- Tags of feeder entries that a FEED stream has still to take. -/
def Dev.feedTags (d : Dev) (core : Nat) : List Nat :=
  ((d.core core).rowQ.cells.flatMap (fun c => c.2.map entTag))
    ++ (match (d.coma (gatherEngine core)).feed with
        | some f => f.left.map (·.tag)
        | none => [])

/-- Destination rows that a STREAM has not written. -/
def StreamRun.restRows (d : Dev) (core : Nat) (r : StreamRun) : List Nat :=
  (((d.core core).steps.filter (fun t => t.stream == r.id)).map (·.row))
    ++ (if r.ended then [] else if stFeed r.entry.word then d.feedTags core else (List.range (r.m - r.next)).map (r.next + ·))

/-- Addresses that a STREAM's unwritten rows touch: its destination, and its epilogue's saved form. -/
def streamMarks (d : Dev) (core : Nat) (r : StreamRun) : List Nat :=
  let e := r.epilogue (d.core core)
  (r.restRows d core).flatMap (fun row =>
    (match streamTarget r.entry with
      | some v => rowTargets d core v row
      | none => [])
    ++ (if stAcc r.entry.word ≥ 2 && decide (e.save ≠ 0) then rowTargets d core (viewOf e.sdesc) row else []))

/-- A queued array instruction that has not started. -/
def entryMarks (d : Dev) (core : Nat) (e : ArrayEntry) : List Nat :=
  if wOpcode e.word = opStream then (match streamTarget e with
    | some v => viewTargets d core v
    | none => [])
  else if wOpcode e.word = opWload && (viewOf e.da).layout == 2 then viewTargets d core (viewOf e.db)
  else []

/-- A VOP's unwritten outputs. -/
def vecMarks (d : Dev) (core : Nat) (r : VecRun) : List Nat :=
  if r.done then []
  else
    let v := viewOf r.dd
    if vpHandoff r.word then (List.range (v.rows - r.rows)).flatMap (fun i => rowTargets d core v (r.rows + i))
    else if isReduce (vpFunc r.word) then viewTargets d core v
    else (((List.range (v.elems - 512 * r.rows)).map (fun i => coords v.shape (512 * r.rows + i))).filter (allReal v.dims)).flatMap
      (readAddrs d core v)

/-- A MOVE that has not copied; the members of an MCAST still to be served. -/
def moveMarks (d : Dev) (core : Nat) (r : MoveRun) : List Nat :=
  let v := viewOf r.dd
  if isMcast r.word then r.members.flatMap (fun m => viewTargets d m v)
  else if mvToSreg r.word || r.started then []
  else viewTargets d core v

/-- Everything that a core's ended work had still to write. -/
def Dev.coreMarks (d : Dev) (core : Nat) : List Nat :=
  let c := d.core core
  c.streams.flatMap (streamMarks d core) ++ c.arrayQ.flatMap (entryMarks d core) ++ c.vecQ.flatMap (vecMarks d core)
    ++ c.moveQ.flatMap (moveMarks d core)
    ++ (match c.load with
        | some j => (List.range (8 * j.residue.length)).map (fun i => spAddr core j.set.resSwizzle (j.set.resArea + i))
        | none => [])

/-- Views that a queued Coma command had still to write. -/
def comaMarks (d : Dev) (c : ComaCmd) : List Nat :=
  let pad := d.padOf c
  (match c.opc with
    | some x => viewTargets d pad (viewOf x)
    | none => [])
  ++ (if hOp c.hdr = 0x23 then viewTargets d pad c.a else [])

/-- What a unit's commands had still to write in pass 1: norm records, and the results of SMUL. -/
def msuMarks (d : Dev) (u c : Nat) : List Nat :=
  if isUpdateOp (ueOp (d.ucmd c)) then addrRun (d.normAddr u c + 16) 24 else viewTargets d 0 (d.listView (ueMaster (d.ucmd c)))

/-! Fences (R497 step 1, R499, R510). -/

/-- Fence a core: its logical cores stop with a status, and a check that waits for its repeat enters no history (R488). -/
def Dev.fenceCore (d : Dev) (n : Nat) (code : Byte) : Dev :=
  let c := d.core n
  let d := d.markGranules (d.coreMarks n)
  let d := if c.pendingRepeat.isSome then d.pushErr 0x01 0x31 (unitCore n) c.chkKind (bitsOf c.chkStatus 31 16) c.residue else d
  let d := d.updCore n (fun c => { c with fenced := true })
  (d.stopBound n code (unitCore n)).stopBound n code (unitCore n)

/-- The core of an open step whose merge deliveries are still due. -/
def Core.streamsDue (c : Core) : Bool := c.steps.any (·.isOpen)

/-- Fence a Coma engine: its commands end, the logical cores of its gather core stop, and a bound core that waits for its
deliveries stops (R499, R510). -/
def Dev.fenceComa (d : Dev) (g : Nat) (code : Byte) : Dev :=
  let e := d.coma g
  let u := unitComa g
  let d := d.markGranules (e.queue.flatMap (comaMarks d))
  let d := if e.pendingRepeat then d.pushErr 0x01 0x31 u 0 (match e.queue with
    | c :: _ => c.ord
    | [] => 0) 0 else d
  let d := d.failQueue g code u
  let d := d.updComa g (fun e => { e with fenced := true, queue := [], feed := none, pendingRepeat := false, lastStatus := code })
  let d := (e.bindings.filter (fun b => (d.core b.core).streamsDue)).foldl (fun d b => d.stopBound b.core code u) d
  let core := 32 * (g / 8) + 24 + g % 8
  (d.stopBound core code u).stopBound core code u

/-- Fence a memory-side unit: pass 1 follows R393, pass 2 follows R394. -/
def Dev.fenceMsu (d : Dev) (u : Nat) (code : Byte) : Dev :=
  let m := d.msu u
  let d := if m.repeatUpd || m.repeatMul then d.pushErr 0x01 0x31 (unitMsu u) 0 m.cmd 0 else d
  let d := d.updMsu u (fun m => { m with fenced := true, repeatUpd := false, repeatMul := false })
  if m.pass2.isEmpty then
    let cmds := m.runs.flatMap (fun r => (List.range r.left).map (r.next + ·))
    let d := d.markGranules (cmds.flatMap (msuMarks d u))
    let d := m.runs.foldl (fun d r => (d.updMsu u (fun m => { m with lastStatus := code, cmdError := true })).stopLc
      (d.msuList u r.sem).report code (unitMsu u)) d
    (d.msuDead u).tryOwnRec
  else
    let d := d.markGranules (m.pass2.flatMap (fun c => (d.updOps (d.ucmd c)).targets.flatMap (viewTargets d 0)))
    d.breakPass2 m.p2Orbit code.toNat

def State.fenceLink (s : State) (l : Nat) : State := s.updLink l (fun k => { k with fenced := true })

/-- Members of a half. -/
def halfCores (h : Nat) : List Nat := (List.range 64).map (64 * h + ·)
def halfComas (h : Nat) : List Nat := (List.range 16).map (16 * h + ·)
def halfMsus (h : Nat) : List Nat := (List.range 16).filter (fun u => msuIo u == h)
def halfLinks (h : Nat) : List Nat := (List.range 24).map (24 * h + ·)

def State.fenceHalf (s : State) (h : Nat) (code : Byte) : State :=
  let s := s.mapDev (fun d =>
    let d := (halfCores h).foldl (fun d n => d.fenceCore n code) d
    let d := (halfComas h).foldl (fun d g => d.fenceComa g code) d
    (halfMsus h).foldl (fun d u => d.fenceMsu u code) d)
  ((halfLinks h).foldl State.fenceLink s).updRegs h (fun g => { g with fenced := true })

def State.fenceUnits (s : State) (kind index : Nat) (code : Byte) : State :=
  match kind with
  | 0 => s.mapDev (·.fenceCore index code)
  | 1 => s.mapDev (·.fenceComa index code)
  | 2 => s.mapDev (·.fenceMsu index code)
  | 3 => s.fenceLink index
  | 4 => s.fenceHalf index code
  | _ => (s.fenceHalf 0 code).fenceHalf 1 code

/-! Crash records (R500, R501, R557, Tables 16-5 and 16-6). -/

/-- Cores sampled for a domain (Table 16-1). -/
def sampledCores (kind index : Nat) : List Nat :=
  match kind with
  | 0 => [index]
  | 1 => [32 * (index / 8) + 24 + index % 8]
  | 2 => []
  | 3 => []
  | 4 => halfCores index
  | _ => halfCores 0 ++ halfCores 1

/-- The registers that a sample holds, at the fence. -/
def State.fenceRegs (s : State) (l : List Nat) : Bank W32 :=
  l.foldl (fun b n => (((b.set (4 * n) (BitVec.ofNat 32 (s.coreSeqStatus n))).set (4 * n + 1) (BitVec.ofNat 32 (s.coreSeqPc n))).set (4 * n + 2)
    (BitVec.ofNat 32 (s.dev.core n).arrayStatus)).set (4 * n + 3) (BitVec.ofNat 32 (s.coreWdog n))) (Bank.const 0)

/-- Offset within the samples of a physical scratchpad byte of a core, where the byte is sampled: words 0 to 31 and 1,504 to
1,535 of each bank. -/
def sampleOffset (core a : Nat) : Option Nat :=
  let x := a - spBase core
  let row := x / 4096
  if row < 32 then some (8192 * (x / 128 % 32) + 128 * row + x % 128)
  else if 1504 ≤ row ∧ row < 1536 then some (8192 * (x / 128 % 32) + 128 * (row - 1504 + 32) + x % 128)
  else none

/-- Scratchpad words of a core that hold an error or a poison mark, and are sampled. -/
def sampleWords (b : Bank Bool) (core : Nat) : List Nat :=
  (b.cells.filter (fun c => spBase core ≤ c.1 && decide (c.1 < spBase core + spSize) && (sampleOffset core c.1).isSome)).map (·.1)

/-- The core section of a core, its words having been read. -/
def Dev.coreSection (d : Dev) (regs : Bank W32) (core : Nat) : CoreSection :=
  { core := core, seqStatus := regs.get (4 * core), seqPc := regs.get (4 * core + 1), arrayStatus := regs.get (4 * core + 2)
    wdogStatus := regs.get (4 * core + 3)
    flags := (sampleWords d.ms.poison core ++ sampleWords d.ms.flip2 core).foldl (fun b w => b.set ((sampleOffset core w).getD 0 / 128) true)
      (Bank.const false)
    samples := (cellsIn d.ms.mem (spBase core) (spBase core + spSize)).foldl (fun b c => match sampleOffset core c.1 with
      | some o => b.set o c.2
      | none => b) (Bank.const 0) }

/-- Sample one core: each word is read through its code (R343, R500). -/
def Dev.sampleCore (d : Dev) (regs : Bank W32) (core : Nat) : Dev × CoreSection :=
  let d := (sampleWords d.ms.flip1 core ++ sampleWords d.ms.flip2 core).foldl Dev.readWord d
  (d, d.coreSection regs core)

def sampleCores (regs : Bank W32) : List Nat → Dev → Dev × List CoreSection
  | [], d => (d, [])
  | n :: r, d =>
    let x := d.sampleCore regs n
    let y := sampleCores regs r x.1
    (y.1, x.2 :: y.2)

def sectionSize : Nat := 262656
def crashBuffer : Nat := 20 * 2 ^ 20
def crashArea : Nat := 256 * 2 ^ 20

/-- Sample a recovery's cores into the crash buffers: with no session open, or too little room, the record is truncated. -/
def State.sample (s : State) (r : Recovery) : State × Recovery :=
  let l := sampledCores r.kind r.index
  let need (io : Nat) : Nat := sectionSize * (l.filter (fun n => n / 64 == io)).length
  let room := decide (s.moon.bufUsed.get 0 + need 0 ≤ crashBuffer) && decide (s.moon.bufUsed.get 1 + need 1 ≤ crashBuffer)
  if l.isEmpty then (s, r)
  else if r.sealedBy.isNone || !room then (s, { r with truncated := true })
  else
    let x := sampleCores r.regs l s.dev
    ({ s with
        dev := x.1
        moon := { s.moon with bufUsed := (s.moon.bufUsed.upd 0 (· + need 0)).upd 1 (· + need 1) } },
     { r with sample := x.2 })

/-- Bytes of a stored record. -/
def CrashStored.size (c : CrashStored) : Nat := 256 + sectionSize * c.sections.length + (if c.sections.isEmpty then 0 else 32)

/-- The newest records overwrite the oldest in the crash area. -/
def fitCrashes : Nat → List CrashStored → List CrashStored
  | 0, l => l
  | n + 1, l => if (l.map CrashStored.size).foldl (· + ·) 0 ≤ crashArea then l else fitCrashes n (l.drop 1)

/-- Halves that a domain lies in. -/
def domHalves (kind index : Nat) : List Nat := if kind = 5 then [0, 1] else [domHalf kind index]

/-- Step 5: the crash record goes to flash and is reported (R497). -/
def State.crash (s : State) (r : Recovery) (status resetUs : Nat) : State :=
  let h : CrashRec :=
    { kind := r.kind, index := r.index, cause := r.cause, status := status, sequence := s.moon.crashSeq, jobTime := r.fenceTime
      orbit := r.orbit, forced := r.forced, drainUs := r.drainUs, resetUs := resetUs, unit := r.unit, truncated := r.truncated
      digest := r.digest, poweredMin := r.poweredMin, cores := r.sample.length }
  let c : CrashStored := ⟨h, r.sample, r.sealedBy, (s.dev.draw).1⟩
  let freed (io : Nat) : Nat := sectionSize * (r.sample.filter (fun x => x.core / 64 == io)).length
  let s := (domHalves r.kind r.index).foldl (fun s h => s.updRegs h (fun g => { g with lastStatus := status })) s
  { s with
    dev := if r.sample.isEmpty then s.dev else s.dev.draw.2
    moon := { s.moon with
      crashes := fitCrashes (s.moon.crashes.length + 1) (s.moon.crashes ++ [c]), crashSeq := s.moon.crashSeq + 1, events := s.moon.events + 1
      bufUsed := (s.moon.bufUsed.upd 0 (· - freed 0)).upd 1 (· - freed 1) } }

/-! RESET_DOMAIN commands that a recovery ends (R509). -/

/-- A waiting RESET_DOMAIN, by the key of its queue and its handle, completes. -/
def State.finishReset (s : State) (status kind index seq : Nat) (w : Nat × W32) : State :=
  s.record (w.1 / 2) w.2 0x40 status flFinal 0 (dtl 32 32 kind + dtl 34 35 index + dtl 36 39 seq)

/-- The commands that wait for a recovery complete with its outcome; its crash record has just been written. -/
def State.finishWaiters (s : State) (r : Recovery) (kind index : Nat) : State :=
  let seq := s.moon.crashSeq - 1
  r.escalated.foldl (fun s w => s.finishReset 0x32 kind index seq w) (r.waiters.foldl (fun s w => s.finishReset 0x31 kind index seq w) s)

/-! The end of a plan and of a session (R549, Table 16-4). -/

/-- A core whose work has all ended. -/
def Core.idle (c : Core) : Core :=
  { c with
    occupied := false, arrayQ := [], load := none, streams := [], steps := [], handoff := [], rowQ := Bank.const [], scaleQ := Bank.const []
    vecQ := [], moveQ := [], takes := [], pendingRepeat := none }

def Coma.idle (c : Coma) : Coma := { c with queue := [], feed := none, bindings := [], pendingRepeat := false }

/-- A memory-side unit without lists. -/
def Msu.idle (m : Msu) : Msu :=
  { m with
    sems := Bank.const 0, ran := Bank.const false, runs := [], passed := [], skipped := Bank.const false, voids := false, dead := false
    parts := Bank.const 0, pass2 := [], patch := 0, repeatUpd := false, repeatMul := false, phase := 0 }

/-- A run whose plan ends: it is voided, or, where pass 2 had begun and has not ended, it ends with DOMAIN_RESET (R394). -/
def OrbitRun.cut (r : OrbitRun) : OrbitRun :=
  if r.completed then r
  else
    { r with
      ended := true, voteSent := true, closed := true, normClosed := true, updated := true
      voided := r.voided || (r.outcome != 1 && r.outcome != 2)
      endStatus := if r.outcome = 1 ∧ !r.updated then some (r.endStatus.getD 0x31) else r.endStatus }

/-- The installed plan ends: nothing of it stays bound, and its segments are no longer VALID. -/
def Dev.endPlan (d : Dev) : Dev :=
  { d with
    lcs := Bank.const LCore.unbound, cores := d.cores.mapVals Core.idle, comas := d.comas.mapVals Coma.idle, msus := d.msus.mapVals Msu.idle
    dies := d.dies.mapVals (fun k => { Die.init with seqTable := k.seqTable, slots := k.slots })
    segs := Bank.const 0, plan := Plan.none, msuPlan := MsuPlan.none, signals := [], streamSems := Bank.const 0
    runs := d.runs.map OrbitRun.cut, norms := Bank.const none, ownMsgs := [] }

/-- Detail of a START_ORBITS record that belongs to no orbit. -/
def startDetail (completed : Nat) : Nat := dtl 32 35 completed

/-- An armed or running START_ORBITS with no orbit outstanding ends with a status. -/
def State.endStart (s : State) (status : Nat) : State :=
  match s.fab.start with
  | none => s
  | some c => ({ s with fab := { s.fab with start := none } }).record c.port c.handle 0x11 status flFinal 0 (startDetail c.completed)

/-- No further orbit of the START_ORBITS begins: with orbits outstanding the last of them ends it (R524). -/
def State.closeStart (s : State) (status : Nat) : State :=
  match s.fab.start with
  | none => s
  | some c => if c.begun = c.completed then s.endStart status else { s with fab := { s.fab with start := some { c with closing := true } } }

def State.endPlan (s : State) : State :=
  let s := s.closeStart 0x13
  { s with
    dev := ({ s.dev with ms := s.dev.ms.write s.hst.deferred false }).endPlan
    hst := { s.hst with deferred := [] }
    fab := { s.fab with
      sched := Bank.const SchedPlan.none, redPlan := RedPlan.none, red := Reduce.init, xfers := [], seen := []
      links := s.fab.links.mapVals (fun l => { l with ctlQ := [], nakOut := [] }) } }

/-- A link without keys. -/
def Link.unkeyed (l : Link) : Link := { l with keys := none, eph := none, keyxSent := false, keyxPeer := none }

/-- Memories at the end of a session: scratchpads and die buffers zero, no written bit, no poison mark; tier 1 reads as zero. -/
def MemSys.wipe (m : MemSys) : MemSys :=
  { m with
    mem := memClear (memClear m.mem 0 (2 ^ 34)) t1Base (t1Base + t1Size), poison := Bank.const false, written := Bank.const false
    flip1 := m.flip1.clear 0 (2 ^ 34), flip2 := m.flip2.clear 0 (2 ^ 34) }

/-- The open session ends (R549). -/
def State.endSession (s : State) : State :=
  if s.sec.session.isNone then s
  else
    let s := s.endPlan
    { s with
      dev := { s.dev with ms := s.dev.ms.wipe, ilKey := 0, ownerTag := 0 }
      fab := { s.fab with links := s.fab.links.mapVals Link.unkeyed }
      sec := { s.sec with session := none } }

/-! The main rails fall (R503, R566 to R568, Table 16-4). -/

/-- Memories without main rails: tier 2 is kept in self-refresh, and the host's memory is the host's. -/
def MemSys.railsOff (m : MemSys) : MemSys :=
  { MemSys.init with
    mem := cellsIn m.mem t2Base (2 ^ 80), tagged := m.tagged, flip1 := m.flip1.clear 0 t2Base, flip2 := m.flip2.clear 0 t2Base }

/-- A health record across a module reset: counts since module reset restart, a UNIT_RETURN takes effect (R481, R491). -/
def HealthRec.afterReset (now : Nat) (h : HealthRec) : HealthRec :=
  let h := { h with persistReset := 0, failedOrbit := false }
  match h.returnTo with
  | none => h
  | some l => { h with level := l, state := if l = 0 then 0 else 1, returnTo := none, climb := false, lastChange := now }

def Dev.railsOff (d : Dev) (settings : Settings) : Dev :=
  { Dev.init with
    ms := d.ms.railsOff, health := d.health.mapVals (HealthRec.afterReset d.poweredMin), settings := settings, poweredMin := d.poweredMin
    free := d.free, faultN := d.faultN
    cores := (List.range 128).foldl (fun b n => b.upd n (fun c => { c with retired := (d.core n).retired && decide ((d.health.get (unitCore n)).returnTo = none) }))
      Dev.init.cores
    comas := (List.range 32).foldl (fun b n => b.upd n (fun c => { c with retired := (d.coma n).retired && decide ((d.health.get (unitComa n)).returnTo = none) }))
      Dev.init.comas }

/-- A port whose half has lost its rails. -/
def Port.railsOff (p : Port) : Port := { Port.init with state := 0, keyed := false, lost := p.lost }

/-- Everything that the main rails hold is lost; Moonlet, the flash, the fuses, the pins and the adapter are not. -/
def State.railsOff (s : State) : State :=
  { s with
    dev := s.dev.railsOff (s.moon.next.getD s.dev.settings)
    fab := { Fab.init with links := Bank.const { Link.init with state := 0 }, regs := Bank.const OrbRegs.init }
    hst := { Hst.init with queues := s.hst.queues, ports := s.hst.ports.mapVals Port.railsOff }
    sec := { s.sec with
      bootOk := false, bootFallback := Bank.const false, genExhausted := false, nonce := none, session := none, lastTag := 0, t2Key := none
      debug := 0, debugUntil := 0, macFails := 0, openFails := 0, sigFails := 0 }
    pwr := { s.pwr with
      railsOk := false, ready := false, umbra := false, halves := Bank.const HalfPwr.init, capNext := none
      capBelowPlan := false, peakW := 0, saved := false }
    moon := { s.moon with next := none, bufUsed := Bank.const 0 }
    recs := [] }

/-! Starting a recovery (R497, R509, R510). -/

/-- A RESET_DOMAIN joins the recovery that covers its domain. -/
def joinRec (kind index : Nat) (ws es : List (Nat × W32)) : List Recovery → List Recovery
  | [] => []
  | r :: rs =>
    if r.covers kind index then { r with waiters := r.waiters ++ ws, escalated := r.escalated ++ es } :: rs
    else r :: joinRec kind index ws es rs

def State.sealNow (s : State) : Option Seal := s.sec.session.map (fun x => ⟨x.id, x.kCrash⟩)

/-- Recover a domain. One that is fenced already gets no second recovery; recoveries inside it end in it, a record of one
that has been sampled being kept (Table 16-7). -/
def State.recover (s : State) (kind index cause unit : Nat) (code : Byte) (ws es : List (Nat × W32)) : State :=
  if s.fencedDom kind index then { s with recs := joinRec kind index ws es s.recs }
  else
    let inside (r : Recovery) : Bool :=
      decide (kind = 5) || (decide (kind = 4) && decide (r.kind < 4) && domHalf r.kind r.index == index)
    let inner := s.recs.filter inside
    let s := inner.foldl (fun s r => if r.stage = 2 then
      ({ s with dev := s.dev.draw.2 }).crash r 0x31 (s.dev.draw.1 % 2 ^ 32) else s) s
    let r : Recovery :=
      { kind := kind, index := index, cause := cause, unit := unit, stage := 1, fenceTime := s.dev.time, orbit := s.dev.curOrbit % 2 ^ 32
        forced := false, drainUs := 0, truncated := false, waiters := (inner.flatMap (·.waiters)) ++ ws
        escalated := (inner.flatMap (·.escalated)) ++ es, poweredMin := s.dev.poweredMin, digest := s.dev.plan.digest.toNat % 2 ^ 64
        regs := s.fenceRegs (sampledCores kind index), sealedBy := s.sealNow, sample := [], resetTime := 0 }
    let s := s.fenceUnits kind index code
    let s := (domHalves kind index).foldl (fun s h => s.updRegs h (fun g =>
      { g with recoveries := satAdd 0xFFFFFFFF g.recoveries 1, lastCause := cause, lastKind := kind, lastIndex := index })) s
    let s := { s with recs := s.recs.filter (fun r => !inside r) ++ [r] }
    if kind = 5 then { s with pwr := { s.pwr with state := .inReset, ready := false, cycling := false } } else s

/-! Watchdogs (R493, R495). -/

/-- A bound logical core of a physical core has neither halted nor stopped. -/
def Dev.unfinished (d : Dev) (core : Nat) : Bool :=
  (d.boundTo core).any (fun n => match (d.lc n).phase with
    | .halted => false
    | .stopped _ => false
    | _ => true)

/-- A charged fire counts as a transient: TYPE CHECK, STATUS 0x20 (R495, R588). -/
def State.chargeFire (s : State) (unit : Nat) (charged : Bool) : State := if charged then s.mapDev (·.transient unit 0 0 0) else s

/-- CORE_WATCHDOG: not charged while the core's STATE is WAITING. -/
def doCoreWatchdog (s : State) (n : Nat) : State :=
  let c := s.dev.core n
  if s.runState ≠ 2 || !s.dev.unfinished n || s.fencedDom 0 n || c.fenced || c.retired then s
  else
    let charged := c.seqState (s.dev.lc c.lc) != 2
    let w := setBits (setBits (setBits (setBits c.wdog 31 16 (min 0xFFFF s.dev.settings.coreMs)) 15 8 (satAdd 0xFF (bitsOf c.wdog 15 8) 1)) 2 2
      (if charged then 1 else 0)) 0 0 1
    let s := s.mapDev (·.updCore n (fun c => { c with wdog := w }))
    (s.chargeFire (unitCore n) charged).recover 0 n 0 (unitCore n) stReset [] []

/-- COMA_WATCHDOG; `waiting`: the engine's oldest unfinished work waited on another unit. -/
def doComaWatchdog (s : State) (g : Nat) (waiting : Bool) : State :=
  let e := s.dev.coma g
  let due := !e.queue.isEmpty || e.bindings.any (fun b => (s.dev.core b.core).streamsDue)
  if !due || s.fencedDom 1 g || e.fenced || e.retired then s
  else (s.chargeFire (unitComa g) (!waiting)).recover 1 g 0 (unitComa g) stReset [] []

/-- MSU_WATCHDOG. -/
def doMsuWatchdog (s : State) (u : Nat) (waiting : Bool) : State :=
  let m := s.dev.msu u
  if !(s.dev.msuBusy u || s.dev.smulBusy u) || s.fencedDom 2 u || m.fenced then s
  else
    let s := s.mapDev (·.updMsu u (fun m => { m with fires := satAdd 0xFF m.fires 1 }))
    (s.chargeFire (unitMsu u) (!waiting)).recover 2 u 0 (unitMsu u) stReset [] []

/-- Control processors and halves run: from READY onward, in Umbra too. -/
def State.running (s : State) : Bool := s.pwr.state == .running

/-- One millisecond of job time. -/
def msT : Nat := 1000 * usT

/-- CP_HEARTBEAT: every millisecond. -/
def doCpHeartbeat (s : State) (h : Nat) : State :=
  if !s.running || s.fencedDom 4 h then s
  else
    let s := s.advanceTo (s.moon.cpBeat.get h + msT)
    { s with moon := { s.moon with cpBeat := s.moon.cpBeat.set h s.dev.time } }

/-- CP_WATCHDOG: CP_WDOG_MS have passed since the last heartbeat of a half; Moonlet recovers the half. -/
def doCpWatchdog (s : State) (h : Nat) : State :=
  if !s.running || s.fencedDom 4 h then s
  else (s.advanceTo (s.moon.cpBeat.get h + msT * s.dev.settings.cpMs)).recover 4 h 0 (unitOrb h) stReset [] []

/-- HALF_HEARTBEAT: half h sends its heartbeat, every 100 us, and the other half hears it. -/
def doHalfHeartbeat (s : State) (h : Nat) : State :=
  if !s.running || s.fencedDom 4 h then s
  else
    let s := s.advanceTo (s.moon.halfBeat.get h + 100 * usT)
    ({ s with moon := { s.moon with halfBeat := s.moon.halfBeat.set h s.dev.time } }).updRegs (1 - h) (fun g => { g with peerAlive := true })

/-! Drain and sample (R497 steps 2 and 3, R498, R501). -/

/-- The first recovery of a stage, and the others. -/
def takeStage (st : Nat) : List Recovery → Option (Recovery × List Recovery)
  | [] => none
  | r :: rs => if r.stage = st then some (r, rs) else (takeStage st rs).map (fun x => (x.1, r :: x.2))

/-- The rails fall for 60 ms (R503). -/
def State.startCycle (s : State) : State :=
  let s := s.railsOff
  { s with pwr := { s.pwr with state := .inReset, cycling := true } }

/-- A sampled module domain gives its crash record and its completion records, and UP ports take what they can. -/
def State.moduleRecord (s : State) (r : Recovery) : State :=
  let us := s.dev.draw.1 % 2 ^ 32
  let s := (({ s with dev := s.dev.draw.2 }).crash r 0x31 us).finishWaiters r 5 0
  deliverHeld 4096 1 (if (s.port 0).state = 2 then deliverHeld 4096 0 s else s)

/-- A module domain has been sampled: its record is written, and Moonlet cycles the rails (R501, R503). -/
def State.cycleRails (s : State) (r : Recovery) : State := (s.moduleRecord r).endSession.startCycle

/-- DOMAIN_DRAIN_END: the drain of the oldest fence ends, 2 ms after the fence at the latest. -/
def doDomainDrainEnd (s : State) (forced : Bool) (drainUs : Nat) : State :=
  match takeStage 1 s.recs with
  | none => s
  | some (r, _) =>
    let us := if forced then 2000 else min drainUs 2000
    let s := s.advanceTo (r.fenceTime + usT * us)
    let x := s.sample { r with forced := forced, drainUs := us, resetTime := s.dev.time }
    let s := x.1
    if r.kind = 5 then s.cycleRails x.2
    else if r.cause = 4 then
      let us := s.dev.draw.1
      let s := ({ s with dev := s.dev.draw.2 }).crash x.2 (us % 256) (us / 256 % 2 ^ 32)
      { s with recs := s.recs.map (fun y => if y = r then { x.2 with stage := 3, sample := [] } else y) }
    else { s with recs := s.recs.map (fun y => if y = r then { x.2 with stage := 2 } else y) }

/-! Reset and rejoin (R497 steps 4 to 6, Table 16-4). -/

/-- Both semaphore banks of the logical cores of a physical core take the binding's initial values. -/
def Dev.resetSems (d : Dev) (core : Nat) : Dev :=
  (d.boundTo core).foldl (fun d n => d.updLc n (fun l => (l.resetBank 0).resetBank 1)) d

/-- A core after its domain's reset: it runs again from the next start slot on; its merge bindings have ended. -/
def Dev.resetCore (d : Dev) (n : Nat) : Dev :=
  let d := d.updCore n (fun c => { c.reset with fenced := true })
  let d := { d with comas := d.comas.mapVals (fun (e : Coma) => { e with bindings := e.bindings.filter (fun b => b.core != n) }) }
  d.resetSems n

def Dev.resetComa (d : Dev) (g : Nat) (fenced : Bool) : Dev := d.updComa g (fun e => { e.reset with fenced := fenced })

/-- A memory-side unit after its reset: semaphores zero, registers at reset, out of work until the next start slot. -/
def Dev.resetMsu (d : Dev) (u : Nat) : Dev :=
  (d.updMsu u (fun m => { Msu.init with orbit := m.orbit, voids := m.voids, dead := m.dead, fires := m.fires, fenced := true })).updMemErr u
    (fun _ => ⟨0, 0, 0⟩)

/-- A link after its reset: TRAINING, keys kept. -/
def Link.reset (l : Link) : Link := { Link.init with keys := l.keys }

/-- Orbit controller registers of a half after its reset: RWS fields and what the half knows of the other stay. -/
def OrbRegs.reset (g : OrbRegs) : OrbRegs :=
  { OrbRegs.init with
    recoveries := g.recoveries, lastStatus := g.lastStatus, lastCause := g.lastCause, lastKind := g.lastKind, lastIndex := g.lastIndex
    noPrimary := g.noPrimary, dualPrimary := g.dualPrimary, strap := g.strap, peerAlive := g.peerAlive, primary := g.primary }

/-- A half after its reset: the plan ends on the whole module; the primary half's reset ends the session. -/
def State.resetHalf (s : State) (h : Nat) : State :=
  let s := if h = s.primaryIo then s.endSession else s
  let s := s.endPlan
  let s := s.mapDev (fun d =>
    let d := (halfCores h).foldl Dev.resetCore d
    let d := (halfComas h).foldl (fun d g => d.resetComa g true) d
    let d := (halfMsus h).foldl Dev.resetMsu d
    { d with
      segFaults := ((d.segFaults.set (2 * h) SegFault.none).set (2 * h + 1) SegFault.none).set (4 + h) SegFault.none
      lateSignals := d.lateSignals.set h 0 })
  let s := (halfLinks h).foldl (fun s l => s.updLink l (fun _ => Link.init)) s
  let s := s.updRegs h OrbRegs.reset
  { s with fab := { s.fab with tb := TimeBase.none } }

def State.resetUnits (s : State) (kind index : Nat) : State :=
  match kind with
  | 0 => s.mapDev (·.resetCore index)
  | 1 => s.mapDev (·.resetComa index false)
  | 2 => s.mapDev (·.resetMsu index)
  | 3 => s.updLink index Link.reset
  | _ => s.resetHalf index

/-- DOMAIN_RESET_COMPLETE: every unit of the oldest domain being reset is idle again, within 10 ms of the reset's start. -/
def doDomainResetComplete (s : State) (resetUs : Nat) : State :=
  match takeStage 2 s.recs with
  | none => s
  | some (r, rest) =>
    if 10000 < resetUs then s
    else
      let s := { s.advanceTo (r.resetTime + usT * resetUs) with recs := rest }
      ((s.crash r 0x31 resetUs).resetUnits r.kind r.index).finishWaiters r r.kind r.index

/-- ESCALATION: the oldest reset has not completed after 10 ms; the enclosing domain is recovered (R502). -/
def doEscalation (s : State) : State :=
  match takeStage 2 s.recs with
  | none => s
  | some (r, rest) =>
    let s := { s.advanceTo (r.resetTime + 10 * msT) with recs := rest }
    let s := s.crash r 0x32 10000
    let k := if r.kind = 4 then 5 else 4
    s.recover k (if k = 5 then 0 else domHalf r.kind r.index) 3 r.unit stEscalated [] (r.waiters ++ r.escalated)

/-! Separation (R506). -/

/-- SEPARATION: the halves have heard no heartbeat of each other for 1 ms. -/
def doSeparation (s : State) : State :=
  if !s.running || (s.fab.regs.get 0).separated then s
  else
    let s := s.recs.foldl (fun s r => (r.waiters ++ r.escalated).foldl (fun s w => s.finishReset 0x30 4 (domHalf r.kind r.index) 0 w) s) s
    let s := { s with recs := [], moon := { s.moon with bufUsed := Bank.const 0 } }
    let s := (s.recover 4 0 4 0xFFFF stReset [] []).recover 4 1 4 0xFFFF stReset [] []
    let sep (g : OrbRegs) : OrbRegs := { g with separated := true, peerAlive := false }
    let half (p : HalfPwr) : HalfPwr := { p with budget := min s.pwr.cap (envelopeOf (classOf s.pwr.coolingId)) / 2 }
    let s := (s.updRegs 0 sep).updRegs 1 sep
    { s with pwr := { s.pwr with halves := (s.pwr.halves.upd 0 half).upd 1 half } }

end Sys2Proof.Machine
end

