-- ==== Sys2Proof/Machine/OrbitOps.lean ====
section
/-! DEFINITION. Orbits: the start slot, the last tick and the completion record (R206, R209 to R212, R219, R230, R233, R234,
R379, R380, R414, R423, R474, R478, R496, R524, R534, R594). -/
namespace Sys2Proof.Machine

/-! Rebinding (R207, R209, R210). -/

/-- Logical cores bound in a list to a core. -/
def boundCount (d : Dev) (core : Nat) : Nat := (d.boundTo core).length

/-- Cores that may take a logical core of a die: healthy, with room, and gather cores for a gather logical core. -/
def rebindTargets (d : Dev) (die : Nat) (gather : Bool) : List Nat :=
  ((List.range 32).map (32 * die + ·)).filter (fun n => !(d.core n).retired && decide (boundCount d n < 4) && (!gather || decide (24 ≤ n % 32)))

/-- The target with the fewest bound logical cores, the lower number on a tie. -/
def leastBound (d : Dev) : List Nat → Option Nat
  | [] => none
  | n :: r =>
    match leastBound d r with
    | none => some n
    | some m => if boundCount d m < boundCount d n then some m else some n

/-- Move the logical cores of retired cores in ascending number; none where one finds no room. -/
def rebind : List Nat → Dev → Option Dev
  | [], d => some d
  | n :: r, d =>
    let l := d.lc n
    if !l.bound || !(d.core l.phys).retired then rebind r d
    else
      match leastBound d (rebindTargets d (n / 128) l.gather) with
      | none => none
      | some c => rebind r (d.updLc n (fun l => { l with phys := c }))

def Dev.rebindAll (d : Dev) : Option Dev := rebind (List.range 512) d

/-- Retired cores and Coma engines. -/
def Dev.retiredCount (d : Dev) : Nat :=
  ((List.range 128).filter (fun n => (d.core n).retired)).length + ((List.range 32).filter (fun n => (d.coma n).retired)).length

/-! The last tick (R423, R425). -/

/-- Best-effort transfers of an orbit that have not ended. -/
def State.openBe (s : State) (io : Nat) (r : OrbitRun) : List Nat :=
  (List.range (s.sch io).count).filter (fun i =>
    let x := s.xfer io i r
    s.active io i && !seSched (s.entry io i) && (x.stage == .waiting || x.stage == .running || x.stage == .refused))

/-- One alert per orbit and IO die where MIN_SLACK fell below ALERT_TICKS (R433). -/
def State.slackEvent (s : State) (io : Nat) : State :=
  if (s.fab.regs.get io).minSlack < (s.fab.regs.get io).alertTicks then s.event else s

/-- ORBIT_END. -/
def doOrbitEnd (s : State) : State :=
  match s.dev.curRun with
  | none => s
  | some r =>
    let s := s.advanceTo (r.start + tickT * (s.orbitTicks - 1))
    let s := [0, 1].foldl (fun s io => (s.openBe io r).foldl (fun s i => s.miss io i r (s.xfer io i r)) s) s
    let d := s.dev
    let sems := [0, 1].foldl (fun b io => b.clear (streamKey io r.num 0) (streamKey io r.num 0 + 1024)) d.streamSems
    let s := { s with dev := { d.updLast (fun r => { r with ended := true, degraded := r.degraded || decide (0 < d.retiredCount) }) with
      streamSems := sems } }
    (s.slackEvent 0).slackEvent 1

/-! The start slot. -/

/-- An event that ends the command has occurred in an orbit (R524). -/
def OrbitRun.ends (r : OrbitRun) : Bool := r.voided || r.deadline || r.endStatus.isSome || r.persistent.isSome

/-- Fenced units whose recovery is over rejoin at the start slot (Table 16-4). -/
def State.rejoin (s : State) : State :=
  s.mapDev (fun d =>
    let d := (List.range 128).foldl (fun d n => if (d.core n).fenced && !s.fencedDom 0 n then d.updCore n (fun c => { c with fenced := false }) else d) d
    let d := (List.range 32).foldl (fun d g => if (d.coma g).fenced && !s.fencedDom 1 g then d.updComa g (fun e => { e with fenced := false }) else d) d
    (List.range 16).foldl (fun d u => if (d.msu u).fenced && !s.fencedDom 2 u then d.updMsu u (fun m => { m with fenced := false }) else d) d)

/-- A run at its start slot. -/
def OrbitRun.begin_ (num slot start : Nat) (probe degraded : Bool) (fault : Bool) (d : Dev) (epoch : Nat) : OrbitRun :=
  { num := num, slot := slot, start := start, reason := if fault then 4 else 0, reasonUnit := 0xFFFF, reasonStatus := if fault then 0x21 else 0
    stop := none, ended := false, voteDue := false, voteSent := false, votePass := false, closed := false, passed := false
    votes := Bank.const 0, voidSeen := false, voided := false, persistent := if fault then some 0x21 else none, deadline := false
    skips := false, held := false, stale := (d.msu 0).stale, fallbacks := 0, corrected := 0, degraded := degraded, probe := probe
    retracted := 0, outcome := 0, stepValue := d.stepBase, epoch := epoch, stepFold := d.stepFold, updated := false, normClosed := false
    endStatus := none, completed := false }

/-- Level changes and retirements by history take effect, and a persistent failure binds its unit no longer (R471, R474,
R475, R477). Their error records carry the number of the orbit whose start slot it is. -/
def Dev.startHealth (d : Dev) (num : Nat) : Dev :=
  let d := { d with runs := d.runs ++ [OrbitRun.begin_ num 0 d.time false false false d 0] }
  let d := (d.health.cells.map (·.1)).foldl Dev.applyClimb d
  { d with runs := d.runs.dropLast, health := d.health.mapVals (fun h => { h with failedOrbit := false }) }

/-- Watchdog and health settings, and a chassis cap, that wait for the start slot (R494, R574). -/
def State.startSettings (s : State) : State :=
  { s with
    dev := { s.dev with settings := s.moon.next.getD s.dev.settings }
    moon := { s.moon with next := none }
    pwr := { s.pwr with cap := s.pwr.capNext.getD s.pwr.cap, capNext := none } }

/-- Host writes that completed since the last start slot (R235). -/
def State.applyDeferred (s : State) : State :=
  { s with dev := s.dev.write s.hst.deferred false, hst := { s.hst with deferred := [] } }

/-- Logical cores that have not halted orbit n at the start slot of orbit n + 2 (R219, R496). -/
def Dev.hung (d : Dev) : List Nat :=
  (List.range 512).filter (fun n => (d.lc n).bound && (d.lc n).owed.isSome && (match (d.lc n).phase with
    | .halted => false
    | .stopped _ => false
    | _ => true))

/-- HUNG_ORBIT: the core domains of hung logical cores are recovered. -/
def State.recoverHung (s : State) : State :=
  s.dev.hung.foldl (fun s n => let c := (s.dev.lc n).phys; s.recover 0 c 2 (unitCore c) stReset [] []) s

/-- Step-size latch (R23, R379, R380): the writes that completed before the start slot are taken in. -/
def Dev.latchStep (d : Dev) : Dev :=
  let due := d.stepWrites.filter (fun w => w.1 < d.time)
  let v := match due.getLast? with
    | some w => w.2
    | none => d.stepBase
  let fold := d.stepFold + due.length
  let stale := decide (fold ≤ d.stepRef)
  { d with
    stepBase := v, stepFold := fold, stepWrites := d.stepWrites.filter (fun w => !decide (w.1 < d.time))
    msus := (List.range 16).foldl (fun b u => b.upd u (fun m => { m with value := v, stale := stale })) d.msus }

/-- A bound logical core enters orbit n: at once, or when it is over with the orbit it is in (R233). -/
def LCore.enterOrbit (l : LCore) (n : Nat) : LCore :=
  match l.phase with
  | .halted => { l with phase := .notStarted, orbit := n, owed := none }
  | .stopped _ => { l with phase := .notStarted, orbit := n, owed := none }
  | _ => { l with owed := some n }

/-- Unoccupied cores run their lowest-numbered logical core (R230). -/
def Dev.startCore (d : Dev) (core : Nat) : Dev :=
  if (d.core core).occupied then d
  else
    let e := (d.updCore core (fun c => { c with lc := 2 ^ 16 })).schedule core
    if (e.core core).occupied then e else d

/-- A logical core on a core that is still fenced stops: with DOMAIN_RESET where the fence falls on the start slot itself. -/
def State.stopFenced (s : State) (n : Nat) : State :=
  let c := (s.dev.lc n).phys
  if !(s.dev.lc n).bound || !(s.dev.core c).fenced then s
  else
    let now := s.recs.any (fun r => r.kind == 0 && r.index == c && r.cause == 2 && r.fenceTime == s.dev.time)
    s.mapDev (·.stopLc n (if now then stReset else stFenced) (unitCore c))

/-- What the fabric and the reduction keep from the orbit before. -/
def Fab.startOrbit (f : Fab) : Fab :=
  { f with
    epoch := f.epoch + 1, seen := [], xfers := f.xfers.filter (fun x => x.held)
    regs := (f.regs.upd 0 (fun g => { g with minSlack := 0xFFFFFFFF })).upd 1 (fun g => { g with minSlack := 0xFFFFFFFF })
    red := { Reduce.init with agreed := f.red.agreed, probeDone := f.red.probeDone }
    start := f.start.map (fun c => { c with begun := c.begun + 1 }) }

/-- The number of the orbit that begins next: orbits completed without a void, and those outstanding that are not voided. -/
def State.nextOrbit (s : State) : Nat := s.fab.orbit + (s.dev.runs.filter (fun r => !r.completed && !r.voided)).length

/-- The orbit begins: rebinding is done. `fault`: a unit has faulted the module at this start slot. -/
def State.beginOrbit (s : State) (c : StartCmd) (fault : Bool) : State :=
  let num := s.nextOrbit
  let slot := c.slot + c.begun
  let s := s.recoverHung
  let s := { s with fab := s.fab.startOrbit }
  let d := s.dev.latchStep
  let probe := !d.plan.arrival && !s.fab.red.probeDone
  let r := OrbitRun.begin_ num slot d.time probe (decide (0 < d.retiredCount)) fault d s.fab.epoch
  let d := { d with runs := lastN 2 d.runs ++ [r], norms := Bank.const none }
  let d := { d with lcs := d.lcs.mapVals (fun l => if l.bound then l.enterOrbit num else l) }
  let s := (List.range 512).foldl State.stopFenced { s with dev := d }
  let s := s.mapDev (fun d => (List.range 128).foldl Dev.startCore d)
  let s := if s.fab.redPlan.present && s.fab.redPlan.count == 0 then
      (s.updRed (fun q => { q with redSent := true })).mapDev (·.sendSig (rhRedSig s.fab.redPlan.hdr) num)
    else s
  s.mapDev (·.tryOwnRec)

/-- Statuses that bar an orbit at its start slot: a module fault, a restriction, EPOCH's end (R378, R394, R408, R479, R487). -/
def State.barred (s : State) : Option Nat :=
  if s.dev.moduleFault then some 0x21
  else match s.dev.restrict with
    | some b => some b.toNat
    | none => if 2 ^ 40 - 1 ≤ s.fab.epoch then some 0x23 else none

/-- Time moves to the start slot; reset cores rejoin, error history climbs, and settings that waited take effect. -/
def State.atStartSlot (s : State) (c : StartCmd) : State :=
  let s := s.advanceTo ((c.slot + c.begun) * s.orbitTicks * tickT)
  (s.rejoin.mapDev (fun d => d.startHealth s.nextOrbit)).startSettings

/-- ORBIT_START: the start slot of the armed or running START_ORBITS. What the previous orbit still owes by its last tick
comes first. -/
def doOrbitStart (s0 : State) : State :=
  match s0.fab.start with
  | none => s0
  | some c =>
    if c.closing || decide (c.count ≤ c.begun) then s0
    else
      let s := doOrbitEnd (doNormDeadlineAt s0)
      if s.dev.runs.any (fun r => !r.completed && r.ends) then { s with fab := { s.fab with start := some { c with closing := true } } }
      else
        match s.barred with
        | some st => s.closeStart st
        | none =>
          let s := s.atStartSlot c
          match s.dev.rebindAll with
          | none => if c.begun = c.completed then (s.endStart 0x21).event else s0
          | some d => ({ s with dev := d }).applyDeferred.beginOrbit c d.moduleFault

/-! Completion (R234, R524, R534). -/

/-- The oldest orbit whose record has not been sent. -/
def Dev.oldestRun (d : Dev) : Option OrbitRun := d.runs.find? (fun r => !r.completed)

/-- The four conditions of R234 hold for an orbit. -/
def State.orbitDone (s : State) (r : OrbitRun) : Bool :=
  (List.range 512).all (fun n => !(s.dev.lc n).bound || (s.dev.lc n).overWith r.num)
    && (List.range 32).all (fun g => (s.dev.coma g).queue.all (fun c => c.who.orbit != r.num))
    && r.ended && r.closed && r.outcome != 0 && (r.updated || r.voided)

/-- STATUS of an orbit record, in the order of R534. -/
def OrbitRun.status (r : OrbitRun) : Nat :=
  match r.endStatus.orElse (fun _ => r.persistent) with
  | some st => st
  | none =>
    if r.deadline then 0x23
    else if r.voided then 0x22
    else if r.probe then 0x01
    else if r.stale && r.held then 0x51
    else if 0 < r.corrected then 0x02
    else if 0 < r.fallbacks then 0x50
    else if r.stale then 0x51
    else if r.degraded then 0x03
    else 0x00

def b01 (i : Nat) (b : Bool) : Nat := if b then 2 ^ i else 0

/-- FLAGS of an orbit record (Table 17-3). -/
def OrbitRun.flags (r : OrbitRun) (final : Bool) : Nat :=
  b01 15 final + b01 8 r.voided + b01 7 r.deadline + b01 6 (r.endStatus.isSome || r.persistent.isSome) + b01 5 r.held + b01 4 r.stale
    + b01 3 (decide (0 < r.fallbacks)) + b01 2 r.degraded + b01 1 (decide (0 < r.corrected)) + b01 0 r.probe

/-- DETAIL of an orbit record (Table 17-4). -/
def OrbitRun.detail (r : OrbitRun) (completed retired : Nat) : Nat :=
  let stop := r.stop.getD (0, 0)
  dtl 32 35 completed + dtl 36 36 stop.1 + dtl 38 39 (stop.2 % 512) + dtl 40 41 retired + dtl 44 47 r.corrected + dtl 48 51 r.fallbacks
    + dtl 52 55 r.stepValue.toNat

/-- Statuses that end the START_ORBITS (R524). -/
def endsStart (st : Nat) : Bool := st == 0x21 || st == 0x22 || st == 0x23 || st == 0x31

/-- Mark the oldest outstanding run as completed. -/
def completeFirst : List OrbitRun → List OrbitRun
  | [] => []
  | r :: rs => if r.completed then r :: completeFirst rs else { r with completed := true } :: rs

/-- ORBIT_COMPLETION. -/
def doOrbitCompletion (s : State) : State :=
  match s.dev.oldestRun, s.fab.start with
  | some r, some c =>
    if !s.orbitDone r then s
    else
      let st := r.status
      let done := c.completed + 1
      let closing := c.closing || endsStart st
      let final := c.begun == done && (closing || done == c.count)
      let s := s.record c.port c.handle 0x11 st (r.flags final) r.num (r.detail done s.dev.retiredCount)
      { s with
        dev := { s.dev with runs := completeFirst s.dev.runs }
        fab := { s.fab with
          start := if final then none else some { c with completed := done, closing := closing }
          orbit := if r.voided then s.fab.orbit else s.fab.orbit + 1
          red := { s.fab.red with probeDone := s.fab.red.probeDone || (r.probe && !r.voided) } } }
  | _, _ => s

end Sys2Proof.Machine
end

