-- ==== Sys2Proof/Machine/PlanImage.lean ====
section
/-! DEFINITION. The plan image: header, directory, sections and the fields of their entries (R295, R306, R316 to R319, R326 to
R328, R365, R417, R437; Tables 10-1 to 10-8). -/
namespace Sys2Proof.Machine

/-- An image as the load-plan command names it: its bytes from address 0 on, and the command's LENGTH. -/
structure Img where
  mem : Mem
  len : Nat
deriving DecidableEq, Repr

/-- `n` bytes of the image from byte `a` on. -/
def Img.num (m : Img) (a n : Nat) : Nat := memRead m.mem a n

/-- The whole image, and its digest (R335). -/
def Img.bytes (m : Img) : List Byte := memReadList m.mem 0 m.len
def Img.digest (m : Img) : BitVec 384 := BitVec.ofNat 384 (leNat (sha384 m.bytes))

/-- Bits [hi:lo] of a number. -/
def nbits (x hi lo : Nat) : Nat := x / 2 ^ lo % 2 ^ (hi + 1 - lo)

/-- The next multiple of 128. -/
def al128 (x : Nat) : Nat := (x + 127) / 128 * 128

/-! Header (Table 10-1). -/

def Img.sectCount (m : Img) : Nat := m.num 6 2
def Img.modules (m : Img) : Nat := nbits (m.num 16 4) 26 16 + 1
def Img.arrival (m : Img) : Bool := nbits (m.num 16 4) 3 3 == 1
def Img.fixedKey (m : Img) : Bool := nbits (m.num 16 4) 2 2 == 1
def Img.cls (m : Img) : Nat := nbits (m.num 16 4) 1 0
def Img.key (m : Img) : Nat := m.num 24 8

/-- The header holds what Table 10-1 and the command require (R10, R316, R332, R522). -/
def Img.headerOk (m : Img) : Bool :=
  m.num 0 4 == 0x4E414C50 && m.num 4 2 == 1 && decide (1 ≤ m.sectCount) && decide (m.sectCount ≤ 64) && m.num 8 8 == m.len
    && nbits (m.num 16 4) 31 27 == 0 && nbits (m.num 16 4) 15 4 == 0 && m.cls != 3 && m.num 20 4 == 0 && (m.fixedKey || m.key == 0)
    && m.num 32 96 == 0 && decide (128 + 16 * m.sectCount ≤ m.len)

/-! Directory and sections (R316, R317, Table 10-2). -/

/-- A directory entry; `extra`: its reserved bits. -/
structure Sect where
  id : Nat
  die : Nat
  count : Nat
  off : Nat
  extra : Nat
deriving DecidableEq, Repr

def Img.sect (m : Img) (i : Nat) : Sect :=
  let w := m.num (128 + 16 * i) 4
  ⟨w % 256, nbits w 9 8, m.num (132 + 16 * i) 4, m.num (136 + 16 * i) 8, w / 1024⟩

def Img.sects (m : Img) : List Sect := (List.range m.sectCount).map m.sect

def scCode : Nat := 0x01
def scBind : Nat := 0x02
def scCount : Nat := 0x03
def scGroup : Nat := 0x04
def scShape : Nat := 0x05
def scDesc : Nat := 0x06
def scTensor : Nat := 0x07
def scWeight : Nat := 0x08
def scSeg : Nat := 0x09
def scTile : Nat := 0x0A
def scSplit : Nat := 0x0B
def scData : Nat := 0x0C
def scLink : Nat := 0x10
def scMsu : Nat := 0x11
def scRed : Nat := 0x12
def scSign : Nat := 0x20

/-- Entry size and largest COUNT of a section ID; none for an ID that Table 10-2 does not list. -/
def sectForm (id : Nat) : Option (Nat × Nat) :=
  match id with
  | 0x01 => some (16, 16384) | 0x02 => some (80, 128) | 0x03 => some (8, 64) | 0x04 => some (16, 256) | 0x05 => some (16, 256)
  | 0x06 => some (32, 65535) | 0x07 => some (32, 2047) | 0x08 => some (32, 65535) | 0x09 => some (16, 4032) | 0x0A => some (32, 65535)
  | 0x0B => some (32, 65535) | 0x0C => some (0, 2 ^ 32) | 0x10 => some (32, 65536) | 0x11 => some (64, 65535) | 0x12 => some (32, 4096)
  | 0x20 => some (256, 2 ^ 32) | _ => none

/-- DIE values that a section may take. -/
def sectDies (id : Nat) : Nat := if id ≤ 5 then 4 else if id = 0x10 then 2 else 1

def Img.find (m : Img) (id die : Nat) : Option Sect := m.sects.find? (fun x => x.id == id && x.die == die)
def Img.count (m : Img) (id die : Nat) : Nat := match m.find id die with
  | some x => x.count
  | none => 0

/-- Start of a section. -/
def Img.start (m : Img) (id die : Nat) : Nat := match m.find id die with
  | some x => x.off
  | none => 0

/-- Entry i of a section of fixed entry size, as a number. -/
def Img.entry (m : Img) (id die i : Nat) : Nat := match sectForm id with
  | some f => m.num (m.start id die + f.1 * i) f.1
  | none => 0

/-! Initial data (R318). -/

/-- A record of the initial data: where its head stands, its segment with the reserved bits, offset and length. -/
structure InitRec where
  at_ : Nat
  seg : Nat
  extra : Nat
  off : Nat
  len : Nat
deriving DecidableEq, Repr

def Img.initRec (m : Img) (a : Nat) : InitRec := ⟨a, m.num a 2 % 4096, m.num a 2 / 4096, m.num (a + 2) 6, m.num (a + 8) 8⟩

/-- The records from byte `a` on, as long as they start within the image. -/
def Img.initFrom (m : Img) : Nat → Nat → List InitRec
  | 0, _ => []
  | n + 1, a => if m.len ≤ a then [] else let r := m.initRec a; r :: m.initFrom n (al128 (a + 16 + r.len))

def Img.initRecs (m : Img) : List InitRec := match m.find scData 0 with
  | some x => m.initFrom (min x.count (m.len / 128 + 1)) x.off
  | none => []

/-! Section 0x10 (R417, Tables 13-6 and 13-7). -/

/-- Header fields. -/
def Img.orbitTicks (m : Img) (io : Nat) : Nat := nbits (m.num (m.start scLink io) 4) 30 0
def Img.rttMax (m : Img) (io : Nat) : Nat := nbits (m.num (m.start scLink io + 4) 4) 31 24
def Img.root (m : Img) (io : Nat) : Nat := nbits (m.num (m.start scLink io + 4) 4) 10 0
def Img.setCount (m : Img) (io : Nat) : Nat := nbits (m.num (m.start scLink io + 8) 4) 31 24
def Img.schedCount (m : Img) (io : Nat) : Nat := nbits (m.num (m.start scLink io + 8) 4) 16 0

/-- Where the parts of the section start, relative to it: sets, topology, time table, entries; and its length. -/
def Img.topoAt (m : Img) (io : Nat) : Nat := al128 (128 + 256 * m.setCount io)
def Img.timeAt (m : Img) (io : Nat) : Nat := al128 (m.topoAt io + 96 * m.modules)
def Img.schedAt (m : Img) (io : Nat) : Nat := if io = 0 then al128 (m.timeAt io + 4 * m.modules) else m.timeAt io
def Img.linkLen (m : Img) (io : Nat) : Nat := m.schedAt io + 32 * m.schedCount io

def Img.sched (m : Img) (io i : Nat) : BitVec 256 := BitVec.ofNat 256 (m.num (m.start scLink io + m.schedAt io + 32 * i) 32)
def Img.topo (m : Img) (io i : Nat) : W32 := BitVec.ofNat 32 (m.num (m.start scLink io + m.topoAt io + 4 * i) 4)
def Img.time (m : Img) (i : Nat) : W32 := BitVec.ofNat 32 (m.num (m.start scLink 0 + m.timeAt 0 + 4 * i) 4)

/-- Keys k to k + n - 1 of a bank from a function. -/
def bankOf {α : Type} [DecidableEq α] (d : α) (n : Nat) (f : Nat → α) : Bank α := (List.range n).foldl (fun b i => b.set i (f i)) (Bank.const d)

/-- The section as installed. -/
def Img.schedPlan (m : Img) (io : Nat) : SchedPlan :=
  if (m.find scLink io).isNone then SchedPlan.none
  else
    { orbitTicks := m.orbitTicks io, rttMax := m.rttMax io, root := m.root io
      sets := (List.range (m.setCount io)).foldl
        (fun b k => b.set (k + 1) (BitVec.ofNat 2048 (m.num (m.start scLink io + 128 + 256 * k) 256))) (Bank.const 0)
      topo := bankOf 0 (24 * m.modules) (m.topo io), times := if io = 0 then bankOf 0 m.modules m.time else Bank.const 0
      entries := bankOf 0 (m.schedCount io) (m.sched io), count := m.schedCount io }

/-! Section 0x11 (R365, Tables 12-2 to 12-5). -/

def Img.msuNum (m : Img) (o n : Nat) : Nat := m.num (m.start scMsu 0 + o) n
def Img.ruleBlocks (m : Img) : Nat := nbits (m.msuNum 0 4) 31 16
def Img.commands (m : Img) : Nat := nbits (m.msuNum 0 4) 15 0
def Img.normGroups (m : Img) : Nat := nbits (m.msuNum 16 4) 8 0
def Img.normDesc (m : Img) (u : Nat) : Nat := m.msuNum (20 + 2 * u) 2
def Img.listEntry (m : Img) (i : Nat) : Nat := m.msuNum (128 + 16 * i) 16
def Img.command (m : Img) (i : Nat) : BitVec 512 := BitVec.ofNat 512 (m.msuNum (4224 + 64 * i) 64)
def Img.ruleBlock (m : Img) (i : Nat) : BitVec 512 := BitVec.ofNat 512 (m.msuNum (4224 + 64 * m.commands + 64 * i) 64)
def Img.msuLen (m : Img) : Nat := 4224 + 64 * m.commands + 64 * m.ruleBlocks

def listOf (x : Nat) : MsuList := ⟨nbits x 15 0, nbits x 24 16, nbits x 63 32, nbits x 95 64⟩

/-! Section 0x12 (R437, Tables 14-1 to 14-3). -/

def Img.redNum (m : Img) (o n : Nat) : Nat := m.num (m.start scRed 0 + o) n
def Img.redHdr (m : Img) : BitVec 1024 := BitVec.ofNat 1024 (m.redNum 0 128)
def Img.buckets (m : Img) : Nat := nbits (m.redNum 0 4) 12 0
def Img.relays (m : Img) : Nat := nbits (m.redNum 0 4) 31 16
def Img.bucket (m : Img) (k : Nat) : BitVec 256 := BitVec.ofNat 256 (m.redNum (128 + 32 * k) 32)
def Img.relayAt (m : Img) : Nat := al128 (128 + 32 * m.buckets)
def Img.relay (m : Img) (i : Nat) : W64 := BitVec.ofNat 64 (m.redNum (m.relayAt + 8 * i) 8)

def Img.redPlan (m : Img) : RedPlan :=
  if (m.find scRed 0).isNone then RedPlan.none
  else
    { present := true, hdr := m.redHdr, buckets := bankOf 0 m.buckets m.bucket, count := m.buckets, relays := bankOf 0 m.relays m.relay
      relayCount := m.relays }

def Img.msuPlan (m : Img) : MsuPlan :=
  let h := m.redHdr
  let red := (m.find scRed 0).isSome
  let p := { MsuPlan.none with
    normDie := if red then rhNormDie h else 0, normStream := if red then rhNormStream h else 0x3FF
    normFanout := if red then rhNormFanout h else 0 }
  if (m.find scMsu 0).isNone then p
  else
    { p with
      strict := nbits (m.msuNum 4 4) 1 1 == 1, fresh := nbits (m.msuNum 4 4) 0 0 == 1, initStep := BitVec.ofNat 32 (m.msuNum 8 4)
      clip := BitVec.ofNat 32 (m.msuNum 12 4), groups := m.normGroups
      normDesc := (List.range 16).foldl (fun b u => b.set u (m.normDesc u)) (Bank.const 0xFFFF)
      lists := bankOf ⟨0, 0, 0, 0⟩ 256 (fun i => listOf (m.listEntry i)), cmds := bankOf 0 m.commands m.command
      rules := bankOf 0 m.ruleBlocks m.ruleBlock }

/-! Where a section ends. -/

/-- Length of a section (R316). -/
def Img.sectLen (m : Img) (x : Sect) : Nat :=
  match x.id with
  | 0x0C => match (m.initFrom (min x.count (m.len / 128 + 1)) x.off).getLast? with
    | some r => r.at_ + 16 + r.len - x.off
    | none => 0
  | 0x10 => m.linkLen x.die
  | 0x11 => m.msuLen
  | 0x12 => m.relayAt + 8 * m.relays
  | _ => match sectForm x.id with
    | some f => f.1 * x.count
    | none => 0

/-! Per-die tables (Tables 10-3 to 10-6). -/

def Img.code (m : Img) (k i : Nat) : IWord := BitVec.ofNat 128 (m.entry scCode k i)
def Img.binding (m : Img) (k i : Nat) : Nat := m.entry scBind k i
def bdLogical (x : Nat) : Nat := nbits x 8 0
def bdPhys (x : Nat) : Nat := nbits x 13 9
def bdGather (x : Nat) : Bool := nbits x 14 14 == 1
def bdEntry (x : Nat) : Nat := nbits x 45 32
def bdParam (x : Nat) : Nat := nbits x 127 64
def bdSem (x i : Nat) : Nat := nbits x (143 + 16 * i) (128 + 16 * i)

def ctUsed (x : Nat) : Bool := nbits x 32 32 == 1
def ctInit (x : Nat) : Nat := nbits x 31 0

def slMmax (x : Nat) : Nat := nbits x 31 0
def slNmax (x : Nat) : Nat := nbits x 41 32
def slKmax (x : Nat) : Nat := nbits x 57 48

/-! Weight, tiling and split records (Tables 6-6, 10-7 and 10-8). -/

def Img.weight (m : Img) (i : Nat) : Desc := BitVec.ofNat 256 (m.entry scWeight 0 i)
def wrUses (r : Desc) : Nat := bitsOf r 36 32

def tlProduct (x : Nat) : Nat := nbits x 31 8
def tlMode (x : Nat) : Nat := nbits x 7 4
def tlOrder (x : Nat) : Nat := nbits x 1 0
def tlNgroup (x : Nat) : Nat := nbits x 47 32
def tlKt (x : Nat) : Nat := nbits x 63 48
def tlMt (x : Nat) : Nat := nbits x 95 64
def tlAccDesc (x : Nat) : Nat := nbits x 111 96
def tlAccSlots (x : Nat) : Nat := nbits x 127 112
def tlWstage (x : Nat) : Nat := nbits x 143 128
def tlWslots (x : Nat) : Nat := nbits x 159 144
def tlLimit (x : Nat) : Nat := nbits x 175 168
def tlSplit (x : Nat) : Nat := nbits x 191 176

def spProduct (x : Nat) : Nat := nbits x 31 8
def spChunks (x : Nat) : Nat := nbits x 42 32
def spChunkRows (x : Nat) : Nat := nbits x 95 64
def spPartDesc (x : Nat) : Nat := nbits x 111 96

/-! The tables that requests consult, as an image gives them. -/

/-- Segment entry i with the session's owner tag (R309). -/
def Img.seg (m : Img) (tag : Byte) (i : Nat) : BitVec 128 :=
  let e : BitVec 128 := BitVec.ofNat 128 (m.entry scSeg 0 i)
  if segValid e then setBits e 119 112 tag.toNat else e

/-- Header fields, descriptor list, tensor table and weight records. -/
def Img.plan (m : Img) (module : Nat) : Plan :=
  { installed := true, digest := m.digest, modIndex := module, modules := m.modules
    descs := bankOf 0 (m.count scDesc 0) (fun i => BitVec.ofNat 256 (m.entry scDesc 0 i)), descCount := m.count scDesc 0
    trecs := bankOf 0 (m.count scTensor 0) (fun i => BitVec.ofNat 256 (m.entry scTensor 0 i)), trecCount := m.count scTensor 0
    weights := bankOf 0 (m.count scWeight 0) m.weight, weightCount := m.count scWeight 0, cls := m.cls, arrival := m.arrival }

/-- A device whose tables are the image's. -/
def Img.tables (m : Img) (d : Dev) (module : Nat) : Dev :=
  { d with plan := m.plan module, segs := bankOf 0 (m.count scSeg 0) (m.seg d.ownerTag) }

/-- Write the initial data through the image's segments (R318). -/
def Img.initItems (m : Img) (d : Dev) (r : InitRec) : List WItem :=
  (List.range r.len).map (fun i => ⟨segAddr d 0 0 r.seg (r.off + i), 0xFF, memGet m.mem (r.at_ + 16 + i)⟩)

end Sys2Proof.Machine
end

