-- ==== Sys2Proof/Machine/VerifyTables.lean ====
section
/-! DEFINITION. The plan verifier, checks 2 to 13 of Table 10-9: placement, class, job, segments, tables, code, tile objects,
tiling (R10, R117, R118, R141, R197, R207, R208, R238, R239, R249, R252, R267, R272, R279, R282, R295 to R307, R316 to R333,
R593). -/
namespace Sys2Proof.Machine

/-- A refusal: CHECK, STATUS, SECTION, DIE and ITEM (R336). -/
structure Refused where
  check : Nat
  status : Byte
  sect : Nat
  die : Nat
  item : Nat
deriving DecidableEq, Repr

/-- ITEM of a header. -/
def noItem : Nat := 0xFFFFFF

/-- A failing item: section, die, item. -/
abbrev Bad := Option (Nat × Nat × Nat)

/-- The first failure of a list. -/
def firstBad : List Bad → Bad
  | [] => none
  | some b :: _ => some b
  | none :: r => firstBad r

/-- The first i below n for which a test holds. -/
def firstIdx (n : Nat) (bad : Nat → Bool) : Option Nat := (List.range n).find? bad

/-- Entries of a section, ascending: the first that fails. -/
def firstEntry (sect die n : Nat) (bad : Nat → Bool) : Bad := (firstIdx n bad).map (fun i => (sect, die, i))

/-! Check 2 (R10, R316, R317). -/

/-- Bytes a to a + n and b to b + m have a byte in common. -/
def overlaps (a n b m : Nat) : Bool := decide (max a b < min (a + n) (b + m))

/-- Directory entry i breaks Table 10-2, lies beyond LENGTH, or meets the directory or an earlier entry's section. -/
def Img.dirBad (m : Img) (i : Nat) : Bool :=
  let x := m.sect i
  let n := m.sectLen x
  match sectForm x.id with
  | none => true
  | some f =>
    x.extra != 0 || decide (sectDies x.id ≤ x.die) || decide (f.2 < x.count) || x.off % 128 != 0 || decide (m.len < x.off + n)
      || overlaps x.off n 0 (128 + 16 * m.sectCount)
      || (List.range i).any (fun j => let y := m.sect j; (y.id == x.id && y.die == x.die) || overlaps x.off n y.off (m.sectLen y))

/-- Operand bits that an opcode's field table lists (R237). -/
def usedBits (w : IWord) : Nat :=
  match wOpcode w with
  | 0x01 => maskBits 23 8
  | 0x02 => 0
  | 0x03 => maskBits 50 8
  | 0x04 => maskBits 32 8
  | 0x10 => if vpScalar w then maskBits 66 8 else maskBits 44 8
  | 0x20 => maskBits 32 8
  | 0x21 => maskBits 34 8
  | 0x30 => maskBits 40 8
  | 0x40 => maskBits 26 8
  | 0x41 => maskBits 26 8
  | 0x42 => maskBits 26 8
  | 0x50 => maskBits 41 20 + maskBits 13 8
  | 0x60 => maskBits 51 8
  | 0x61 => maskBits 35 8
  | 0x62 => maskBits 8 8
  | 0x70 => maskBits 15 12 + maskBits 9 8
  | 0x80 => maskBits 15 12 + maskBits 8 8
  | 0x81 => maskBits 15 12
  | 0xF0 => 0
  | _ => maskBits 103 8

/-- A reserved bit of an instruction is set. -/
def reservedSet (w : IWord) : Bool := Nat.land w.toNat (2 ^ 105 - 1 - (usedBits w + 255)) != 0

def Img.check2 (m : Img) : Bad :=
  if !m.headerOk then some (0, 0, noItem)
  else
    firstBad (((firstIdx m.sectCount m.dirBad).map (fun i => (0, 0, i)))
      :: ((List.range 4).map (fun k => if (m.find scBind k).isSome && (m.find scCode k).isNone then some (scBind, k, 0) else none))
      ++ ((List.range 4).map (fun k => firstEntry scCode k (m.count scCode k) (fun i => reservedSet (m.code k i)))))

/-! Check 5 (R306 to R308). -/

/-- Capacity of a tier in 128 B units. -/
def tierUnits (t : Nat) : Nat := if t = 0 then 49152 else if t = 1 then 524288 else if t = 2 then 7247757312 else 51539607552

/-- First unit of the firmware range of compute die k; each is 8,388,608 units long. -/
def firmwareAt (k : Nat) : Nat := 595591168 + 1811939328 * k

/-- Two valid entries describe a common byte. -/
def segsOverlap (a b : BitVec 128) : Bool :=
  segTier a == segTier b && (segTier a != 1 || segDie a == segDie b) && overlaps (segBase a) (segLimit a) (segBase b) (segLimit b)

def segReserved (e : BitVec 128) : Bool :=
  bitsOf e 126 120 != 0 || bitsOf e 111 107 != 0 || bitsOf e 102 100 != 0 || bitsOf e 95 88 != 0 || bitsOf e 47 40 != 0

def Img.check5 (m : Img) : Bad :=
  let n := m.count scSeg 0
  let raw (i : Nat) : BitVec 128 := BitVec.ofNat 128 (m.entry scSeg 0 i)
  firstEntry scSeg 0 n (fun i =>
    let e := raw i
    segValid e && (segReserved e || segOwner e != 0 || segLimit e == 0 || (segDie e != 0 && segTier e != 1)
      || decide (tierUnits (segTier e) < segBase e + segLimit e)
      || (List.range i).any (fun j => segValid (raw j) && segsOverlap e (raw j))
      || (segTier e == 2 && (List.range 4).any (fun k => overlaps (segBase e) (segLimit e) (firmwareAt k) 8388608))))

/-! Check 6 (R197, R295, R300, R301). -/

/-- Descriptor-list indices that a DMAKE of a mode names in the code images. -/
def Img.dmakeUses (m : Img) (mode : Nat) : List Nat :=
  (List.range 4).flatMap (fun k => ((List.range (m.count scCode k)).map (m.code k)).filterMap (fun w =>
    if wOpcode w = opDmake ∧ dmMode w = mode then some (dmListIdx w) else none))

/-- Descriptor-list indices that the sections name as tensors, 0xFFFF for none left out. -/
def Img.sectionUses (m : Img) : List Nat :=
  let weights := (List.range (m.count scWeight 0)).flatMap (fun i =>
    let r := m.weight i
    [wrWDesc r, wrWtDesc r, wrSlotDesc r, wrGradDesc r])
  let tiles := (List.range (m.count scTile 0)).flatMap (fun i => let x := m.entry scTile 0 i; [tlAccDesc x, tlWstage x])
  let splits := (List.range (m.count scSplit 0)).map (fun i => spPartDesc (m.entry scSplit 0 i))
  let links := [0, 1].flatMap (fun io => ((List.range (m.count scLink io)).map (m.sched io)).filterMap (fun e =>
    if seEndpoint e = 0 then some (seDesc e) else none))
  let msu := if (m.find scMsu 0).isNone then [] else
    ((List.range 16).map m.normDesc) ++ ((List.range m.commands).map m.command).flatMap (fun c =>
      [ueMaster c, ueM1 c, ueM2 c, ueAux c] ++ (if ueOp c = opUpdate then [] else [ueWDesc c, ueGDesc c]))
  let red := if (m.find scRed 0).isNone then [] else
    rhRecDesc m.redHdr :: ((List.range m.buckets).map m.bucket).flatMap (fun b => [bkSrc b, bkArea b])
  (weights ++ tiles ++ splits ++ links ++ msu ++ red).filter (· != 0xFFFF)

def markUses (l : List Nat) : Bank Bool := l.foldl (fun b i => b.set i true) (Bank.const false)

/-- The segment of a listed descriptor is FROZEN. -/
def Dev.descFrozen (d : Dev) (i : Nat) : Bool := segFrozen (d.segs.get (viewOf (d.plan.descs.get i)).seg)

def Dev.descExists (d : Dev) (i : Nat) : Bool := decide (i < d.plan.descCount)

/-- Table 6-7 and the ranges of Table 6-6. -/
def Dev.weightOk (d : Dev) (r : Desc) : Bool :=
  let some_ (i : Nat) : Bool := i != 0xFFFF && d.descExists i
  let none_ (i : Nat) : Bool := i == 0xFFFF
  bitsOf r 7 2 == 0 && bitsOf r 63 37 == 0 && bitsOf r 255 128 == 0 && decide (1 ≤ wrUses r) && decide (wrUses r ≤ 16) && some_ (wrWDesc r)
    && (match wrRole r with
      | 0 => some_ (wrWtDesc r) && some_ (wrGradDesc r) && (if 2 ≤ wrUses r then some_ (wrSlotDesc r) else none_ (wrSlotDesc r))
      | 1 => some_ (wrWtDesc r) && none_ (wrGradDesc r) && none_ (wrSlotDesc r) && d.descFrozen (wrWDesc r) && d.descFrozen (wrWtDesc r)
      | 2 => none_ (wrWtDesc r) && none_ (wrGradDesc r) && none_ (wrSlotDesc r) && d.descFrozen (wrWDesc r)
      | _ => false)

/-- A reserved bit of a tensor record is set. -/
def trecReserved (r : Desc) : Bool := bitsOf r 103 100 != 0 || bitsOf r 178 176 != 0 || bitsOf r 242 232 != 0

def Img.check6 (m : Img) (d : Dev) : Bad :=
  let tens := markUses (m.dmakeUses 1 ++ m.sectionUses)
  let heads := markUses (m.dmakeUses 4)
  firstBad
    [firstEntry scDesc 0 d.plan.descCount (fun i =>
        (tens.get i && heads.get i) || (tens.get i && (validateDesc d (.core 0) (d.plan.descs.get i)).isSome)),
     firstEntry scTensor 0 d.plan.trecCount (fun i => trecReserved (d.plan.trecs.get i)),
     firstEntry scWeight 0 d.plan.weightCount (fun i => !d.weightOk (d.plan.weights.get i))]

/-! Check 7 (R207, R318, R319, Tables 10-4 to 10-6). -/

def Img.bindingBad (m : Img) (k i : Nat) : Bool :=
  let x := m.binding k i
  let l := bdLogical x
  nbits x 31 15 != 0 || nbits x 63 46 != 0 || l / 128 != k || bdGather x != decide (24 ≤ l % 128 ∧ l % 128 ≤ 31)
    || decide (m.count scCode k ≤ bdEntry x) || (bdGather x && decide (bdPhys x < 24))
    || (List.range i).any (fun j => bdLogical (m.binding k j) == l)
    || decide (4 ≤ ((List.range i).filter (fun j => bdPhys (m.binding k j) == bdPhys x)).length)

def Img.limitBad (m : Img) (k i : Nat) : Bool :=
  let x := m.entry scShape k i
  nbits x 47 42 != 0 || nbits x 63 58 != 0 || nbits x 127 64 != 0 || decide (512 < slNmax x) || decide (512 < slKmax x)

/-- A record of the initial data names a segment that cannot take it. -/
def initBad (d : Dev) (r : InitRec) : Bool :=
  let e := d.segs.get r.seg
  r.extra != 0 || !segValid e || segTier e == 0 || !segWrite e || decide (128 * segLimit e < r.off + r.len)

def Img.check7 (m : Img) (d : Dev) : Bad :=
  let dies (sect : Nat) (bad : Nat → Nat → Bool) : List Bad := (List.range 4).map (fun k => firstEntry sect k (m.count sect k) (bad k))
  firstBad (dies scBind m.bindingBad ++ dies scCount (fun k i => nbits (m.entry scCount k i) 63 33 != 0) ++ dies scShape m.limitBad
    ++ [firstEntry scData 0 m.initRecs.length (fun i => match m.initRecs[i]? with
        | some r => initBad d r
        | none => false)])

/-! Check 8 (R141, R238, R239, R249, R252, R267, R272, R279, R282, R322, R324). -/

/-- The opcodes of Table 8-2. -/
def knownOp (o : Nat) : Bool :=
  o == opWload || o == opWswap || o == opStream || o == opDrain || o == opVop || o == opMove || o == opMcast || o == opDmake || o == opGather
    || o == opScatter || o == opMerge || o == opTake || o == opSignal || o == opWait || o == opFence || o == opCheck || o == opCtxsave
    || o == opCtxrestore || o == opHalt

/-- R239 for instruction i of a code image of n words. -/
def flowBad (w : IWord) (i n : Nat) : Bool :=
  let c := wCond w
  (c == 0 && (wFreg w != 0 || wTarget w != 0)) || (c == 1 && wFreg w != 0) || ((c == 6 || c == 7) && wFreg w == 63)
    || (c != 0 && decide (n ≤ wTarget w)) || (wOpcode w == opHalt && c != 0)
    || (i + 1 == n && wOpcode w != opHalt && c != 1)

/-- Instructions that can follow instruction i. -/
def successors (w : IWord) (i : Nat) : List Nat :=
  if wOpcode w = opHalt then [] else if wCond w = 0 then [i + 1] else if wCond w = 1 then [wTarget w] else [i + 1, wTarget w]

/-- Instructions reached from a work list, each visited once. -/
def reach (code : Nat → IWord) (n : Nat) : Nat → List Nat → Bank Bool → Bank Bool
  | 0, _, seen => seen
  | _ + 1, [], seen => seen
  | f + 1, i :: r, seen =>
    if n ≤ i ∨ seen.get i then reach code n f r seen else reach code n f (successors (code i) i ++ r) (seen.set i true)

/-- Instructions of die k that a plain logical core can reach from its entry. -/
def Img.plainCode (m : Img) (k : Nat) : Bank Bool :=
  let n := m.count scCode k
  let starts := ((List.range (m.count scBind k)).map (m.binding k)).filterMap (fun x => if bdGather x then none else some (bdEntry x))
  reach (m.code k) n (3 * n + starts.length + 1) starts (Bank.const false)

/-- The fields of bits [44:8] of Table 8-18: a target that exists. -/
def sigTargetOk (w : IWord) : Bool :=
  let t := bitsOf w 9 8
  let num := bitsOf w 18 10
  let sem := bitsOf w 28 19
  (t == 0 && decide (sem < 32)) || (t == 1 && decide (num < 16) && decide (sem < 16)) || (t == 2 && decide (num < 2) && decide (sem < 1024))

/-- A completion-signal field: INC = 0 sends none. -/
def sigFieldOk (w : IWord) : Bool := bitsOf w 44 29 == 0 || sigTargetOk w

def signalBad (w : IWord) : Bool :=
  (bitsOf w 44 29 == 0 && !bitOf w 45) || (bitsOf w 44 29 != 0 && bitOf w 45) || !sigTargetOk w

def streamFieldsBad (w : IWord) (plain : Bool) : Bool :=
  let acc := stAcc w
  ((acc ≤ 1 || stHandoff w) && stOdesc w != 0) || (acc == 3 && stPdesc w != 0) || (stHandoff w && decide (acc ≤ 1)) || (stFeed w && plain)

def Img.instrBad (m : Img) (k i : Nat) (plain : Bool) : Bool :=
  let w := m.code k i
  let o := wOpcode w
  !knownOp o || flowBad w i (m.count scCode k)
    || (o == opStream && streamFieldsBad w plain)
    || (o == opDrain && decide (4 < bitsOf w 15 13))
    || (o == opVop && decide ((if vpScalar w then 0x15 else 0x11) < vpFunc w))
    || (o == opMove && mvToSreg w && decide (63 < mvSreg w + mvNwords w))
    || (o == opMcast && (decide (m.count scGroup k ≤ bitsOf w 23 16) || m.entry scGroup k (bitsOf w 23 16) == 0))
    || (o == opDmake && (decide (4 < dmMode w) || ((dmMode w == 0 || dmMode w == 3) && decide (60 < dmSreg w))
        || ((dmMode w == 1 || dmMode w == 4) && decide (m.count scDesc 0 ≤ dmListIdx w))))
    || (o == opTake && (decide (m.count scCount k ≤ bitsOf w 25 20) || !ctUsed (m.entry scCount k (bitsOf w 25 20))))
    || (o == opSignal && signalBad w)
    || (o == opCheck && ckUnit w == 3)

/-- A group whose members include a logical core that the die does not bind (R324). -/
def Img.groupBad (m : Img) (k g : Nat) : Bool :=
  let bound := markUses ((List.range (m.count scBind k)).map (fun i => bdLogical (m.binding k i) % 128))
  (List.range 128).any (fun i => nbits (m.entry scGroup k g) i i == 1 && !bound.get i)

/-- A command header that breaks R141 or the ranges of Table 5-3 (R593). -/
def headerBad (h : Desc) : Bool :=
  let op := hOp h
  !headerOk h
    || (op == 0x04 && (hExperts h == 0 || decide (256 < hExperts h) || hTopk h == 0 || decide (8 < hTopk h) || decide (hExperts h < hTopk h)
        || hCapacity h == 0))
    || ((op == 0x12 || op == 0x23) && (hSlots h == 0 || decide (8 < hSlots h))) || (op == 0x21 && decide (65536 < hShare h))

def Img.check8 (m : Img) (d : Dev) : Bad :=
  let heads := markUses (m.dmakeUses 4)
  firstBad (((List.range 4).map (fun k =>
      let plain := m.plainCode k
      firstEntry scCode k (m.count scCode k) (fun i => m.instrBad k i (plain.get i))))
    ++ ((List.range 4).map (fun k => firstEntry scGroup k (m.count scGroup k) (m.groupBad k)))
    ++ [firstEntry scDesc 0 d.plan.descCount (fun i => heads.get i && headerBad (d.plan.descs.get i))])

/-! Checks 9 and 10 (R117, R118, Table 4-5). -/

/-- A range of bytes lies within what a record of the initial data writes. -/
def inRecord (d : Dev) (r : InitRec) (a n : Nat) : Bool :=
  let b := segAddr d 0 0 r.seg r.off
  decide (b ≤ a) && decide (a + n ≤ b + r.len)

/-- Tile objects of the compressed tensors that the image names, as view and slot. -/
def Img.tiles (m : Img) (d : Dev) : List (View × Nat) :=
  ((markUses (m.dmakeUses 1 ++ m.sectionUses)).cells.map (·.1)).flatMap (fun i =>
    let v := viewOf (d.plan.descs.get i)
    match if v.layout = 2 ∧ i < d.plan.descCount then slotRange v else none with
    | some (lo, hi) => (List.range (hi + 1 - lo).toNat).map (fun (k : Nat) => (v, (lo + k).toNat))
    | none => [])

/-- Those whose header and bitmap a record writes. -/
def tilesIn (d : Dev) (r : InitRec) (l : List (View × Nat)) : List (View × Nat) :=
  l.filter (fun t => inRecord d r (tileAddr d 0 t.1 t.2 0) 32896)

/-- Table 4-5, checks 1, 2, 6 and 7. -/
def tileBad (d : Dev) (t : View × Nat) : Bool :=
  let v := t.1
  let cols := (List.range 512).map (fun n => occupied (tileBits d 0 v t.2 n))
  let lines (o : List Nat) : Nat := ((List.range 128).filter (fun p => o.any (fun r => r % 128 == p))).length
  !tileHeaderOk d 0 v t.2 || tileFormat d 0 v t.2 != v.fmt || (cols.map List.length).foldl (· + ·) 0 != tileNnz d 0 v t.2
    || (cols.map (fun o => o.length - lines o)).foldl (· + ·) 0 != tileRes d 0 v t.2

def Img.dataBad (m : Img) (d : Dev) (bad : View × Nat → Bool) : Bad :=
  let l := m.tiles d
  firstEntry scData 0 m.initRecs.length (fun i => match m.initRecs[i]? with
    | some r => (tilesIn d r l).any bad
    | none => false)

def Img.check9 (m : Img) (d : Dev) : Bad := m.dataBad d (tileBad d)
def Img.check10 (m : Img) (d : Dev) : Bad := m.dataBad d (fun t => oversize t.1.fmt (tileNnz d 0 t.1 t.2))

/-! Check 11 (R326, R330). -/

/-- Modes of Table 3-1. -/
def modeKnown (x : Nat) : Bool := x == modeD8 || x == modeD16 || x == modeDK || x == modeSP

/-- A listed descriptor is an FP32 native scratchpad tile of 512 columns with WR = 1 and at least some rows. -/
def Dev.accOk (d : Dev) (i rows : Nat) : Bool :=
  let v := viewOf (d.plan.descs.get i)
  d.descExists i && v.fmt == 0 && v.layout == 0 && v.wr && segTier (d.segs.get v.seg) == 0 && (v.dims.headD ⟨0, 0, 0, 0⟩).ext == 512
    && decide (rows ≤ v.rows)

/-- The staging region holds some weight tiles of a mode, of its own format and layout. -/
def Dev.stageOk (d : Dev) (i slots mode : Nat) : Bool :=
  let v := viewOf (d.plan.descs.get i)
  d.descExists i && (if v.layout = 2 then (match slotRange v with
      | some (lo, hi) => decide ((slots : Int) ≤ hi - lo + 1)
      | none => slots == 0)
    else decide (slots * modeRows mode * 512 ≤ v.elems))

/-- Shape-limit entries with a number, over the dies that have one. -/
def Img.limits (m : Img) (i : Nat) : List Nat := ((List.range 4).filter (fun k => decide (i < m.count scShape k))).map (fun k => m.entry scShape k i)

def Img.tilingBad (m : Img) (d : Dev) (i : Nat) : Bool :=
  let x := m.entry scTile 0 i
  let rows := modeRows (tlMode x)
  let kt := tlKt x
  let accNeed := if tlOrder x = 0 then 1 else tlNgroup x
  let lims := m.limits (tlLimit x)
  let sp := m.entry scSplit 0 (tlSplit x)
  nbits x 3 2 != 0 || nbits x 167 160 != 0 || nbits x 255 192 != 0 || !modeKnown (tlMode x) || decide (1 < tlOrder x) || kt == 0
    || tlNgroup x == 0 || (tlOrder x == 0 && tlNgroup x != 1)
    || decide (tlAccSlots x < accNeed) || !d.accOk (tlAccDesc x) (tlAccSlots x * tlMt x)
    || (tlWstage x != 0xFFFF && (decide (tlWslots x < (if 2 ≤ kt then 2 else 1)) || !d.stageOk (tlWstage x) (tlWslots x) (tlMode x)))
    || lims.isEmpty || lims.any (fun l => decide (tlMt x < slMmax l) || decide (rows < slKmax l))
    || (tlSplit x != 0xFFFF && (decide (m.count scSplit 0 ≤ tlSplit x) || spProduct sp != tlProduct x || spChunkRows sp == 0
        || spChunkRows sp % rows != 0 || spChunks sp != (kt * rows + spChunkRows sp - 1) / spChunkRows sp
        || !d.accOk (spPartDesc sp) (spChunks sp * tlMt x)))

def Img.splitBad (m : Img) (i : Nat) : Bool :=
  let x := m.entry scSplit 0 i
  nbits x 7 0 != 0 || nbits x 63 43 != 0 || nbits x 127 112 != 0 || nbits x 255 128 != 0 || decide (spChunks x < 2)
    || decide (1024 < spChunks x)

def Img.check11 (m : Img) (d : Dev) : Bad :=
  firstBad [firstEntry scTile 0 (m.count scTile 0) (m.tilingBad d), firstEntry scSplit 0 (m.count scSplit 0) m.splitBad]

/-! Check 12 (R250): every STREAM's LIMIT names an entry of its die's table. -/

def Img.check12 (m : Img) : Bad :=
  firstBad ((List.range 4).map (fun k => firstEntry scCode k (m.count scCode k) (fun i =>
    wOpcode (m.code k i) == opStream && decide (m.count scShape k ≤ stLimit (m.code k i)))))

end Sys2Proof.Machine
end

