-- ==== Sys2Proof/Machine/VerifyFabric.lean ====
section
/-! DEFINITION. The plan verifier, checks 14 and 15 of Table 10-9: the link schedule with its occupancy proof, and the update,
norm-exchange and reduction configuration (R369, R370, R417 to R422, R428, R430, R437, R462; Tables 13-10 and 14-10). -/
namespace Sys2Proof.Machine

/-! Check 14. -/

/-- Section 0x10 of both IO dies, with the modules of the job. -/
structure Net where
  a : SchedPlan
  b : SchedPlan
  modules : Nat

def Img.net (m : Img) : Net := ⟨m.schedPlan 0, m.schedPlan 1, m.modules⟩
def Net.sch (n : Net) (io : Nat) : SchedPlan := if io = 0 then n.a else n.b
def Net.entry (n : Net) (io i : Nat) : BitVec 256 := (n.sch io).entries.get i
def Net.active (n : Net) (io i m : Nat) : Bool := (n.sch io).inSet (seSet (n.entry io i)) m
def Net.mods (n : Net) : List Nat := List.range n.modules
/-- Topology entry of link L, 0 to 47, on module m. -/
def Net.topo (n : Net) (m l : Nat) : W32 := (n.sch (l / 24)).topo.get (24 * m + l % 24)
def Net.valid (n : Net) (m l : Nat) : Bool := decide (l < 48) && tpValid (n.topo m l)
def Net.peer (n : Net) (m l : Nat) : Nat := tpModule (n.topo m l)
def Net.parent (n : Net) (m : Nat) : Nat := bitsOf (n.a.times.get m) 5 0
def Net.backup (n : Net) (m : Nat) : Nat := bitsOf (n.a.times.get m) 13 8
def Net.link (n : Net) (io i : Nat) : Nat := 24 * io + seLink (n.entry io i)

/-- A schedule entry's fields lie in their ranges (R417, R424, Table 13-7). -/
def schedOk (e : BitVec 256) (sets : Nat) : Bool :=
  let rx := seRecv e && seSched e
  decide (seLink e < 24) && decide (seClass e < 2) && decide (seEndpoint e < 3) && bitsOf e 196 192 == 0 && bitsOf e 50 0 == 0
    && decide (1 ≤ seLength e) && (seSched e || (seSlack e == 0 && seEndpoint e == 0)) && (seEndpoint e == 0 || seDesc e == 0)
    && (rx || (seRegion e == 0 && seFreeBy e == 0)) && decide (seSet e ≤ sets) && sigFieldOk (seSig e)

/-- Header and tables of a section. -/
def Img.linkHeaderOk (m : Img) (io : Nat) : Bool :=
  let s := m.start scLink io
  let t := m.orbitTicks io
  (if io = 0 then decide (20000 ≤ t) && decide (t ≤ 2000000000) && t % 2000 == 0 && decide (m.root 0 < m.modules) else t == 0 && m.root io == 0)
    && nbits (m.num s 4) 31 31 == 0 && nbits (m.num (s + 4) 4) 23 11 == 0 && decide (1 ≤ m.rttMax io) && nbits (m.num (s + 8) 4) 23 17 == 0
    && m.num (s + 12) 116 == 0 && m.schedCount io == m.count scLink io
    && (List.range (24 * m.modules)).all (fun i =>
      let e := m.topo io i
      bitsOf e 30 27 == 0 && bitsOf e 15 14 == 0 && bitsOf e 7 0 == 0 && (!tpValid e || (decide (tpModule e < m.modules) && decide (tpLink e < 48))))
    && (io != 0 || (List.range m.modules).all (fun i =>
      let e := m.time i
      bitsOf e 31 14 == 0 && bitsOf e 7 6 == 0 && (decide (bitsOf e 5 0 < 48) || bitsOf e 5 0 == 63)
        && (decide (bitsOf e 13 8 < 48) || bitsOf e 13 8 == 63)))

def Img.link1 (m : Img) (n : Net) (io : Nat) : Bad :=
  match m.find scLink io with
  | none => if io = 0 ∨ 1 < n.modules then some (scLink, io, noItem) else none
  | some _ =>
    if !m.linkHeaderOk io then some (scLink, io, noItem)
    else firstEntry scLink io (n.sch io).count (fun i =>
      !schedOk (n.entry io i) (m.setCount io) || (i != 0 && decide (seOffset (n.entry io i) < seOffset (n.entry io (i - 1)))))

/-- Item 2: the topology is symmetric. -/
def Net.topoBad (n : Net) (io : Nat) : Bool :=
  n.mods.any (fun m => (List.range 24).any (fun k =>
    let l := 24 * io + k
    let p := n.peer m l
    let pl := tpLink (n.topo m l)
    n.valid m l && (p == m || !n.valid p pl || n.peer p pl != m || tpLink (n.topo p pl) != l)))

/-- The modules on the way from m to the root along the parents, m first; none beyond `fuel` links. -/
def Net.chain (n : Net) : Nat → Nat → Option (List Nat)
  | fuel, m =>
    if m = n.a.root then some [m]
    else
      match fuel with
      | 0 => none
      | f + 1 => if n.valid m (n.parent m) then (n.chain f (n.peer m (n.parent m))).map (m :: ·) else none

/-- Item 3: the time tree. -/
def Net.treeBad (n : Net) : Bool :=
  n.mods.any (fun m =>
    (if m = n.a.root then n.parent m != 63 else (n.chain 8 m).isNone)
      || (n.backup m != 63 && (!n.valid m (n.backup m) || (n.chain 7 (n.peer m (n.backup m))).isNone)))

/-- R422. -/
def Dev.memDescOk (d : Dev) (e : BitVec 256) : Bool :=
  let v := viewOf (d.plan.descs.get (seDesc e))
  let g := d.segs.get v.seg
  d.descExists (seDesc e) && v.layout == 0 && v.fmt == 0 && v.dims == [⟨128 * seLength e, 1, 0, 0⟩] && segTier g != 0
    && (!seRecv e || (v.wr && !segFrozen g))

/-- Item 4. -/
def Net.useBad (n : Net) (d : Dev) (groups io i : Nat) : Bool :=
  let e := n.entry io i
  n.mods.any (fun m => n.active io i m) && (n.mods.any (fun m => n.active io i m && !n.valid m (n.link io i))
    || (seSched e && decide (seSlack e < (n.sch io).rttMax + (seLength e + 1 + 1023) / 1024))
    || (seEndpoint e == 0 && !d.memDescOk e) || (seEndpoint e == 2 && seLength e != (32 + 24 * groups + 511) / 512))

/-- Item 5: windows of one direction of one link. -/
def Net.windowBad (n : Net) (io i : Nat) : Bool :=
  let e := n.entry io i
  seSched e && n.mods.any (fun m => n.active io i m && (decide (n.a.orbitTicks < seEnd e + guardTicks)
    || (List.range i).any (fun j =>
      let f := n.entry io j
      seSched f && n.active io j m && seLink f == seLink e && seRecv f == seRecv e && decide (seOffset e < seEnd f + guardTicks))))

/-- Item 6: an active entry on m has its counterpart on the peer. -/
def Net.matched (n : Net) (io i m : Nat) : Bool :=
  let e := n.entry io i
  let l := n.link io i
  let p := n.peer m l
  let pl := tpLink (n.topo m l)
  (List.range (n.sch (pl / 24)).count).any (fun j =>
    let f := n.entry (pl / 24) j
    n.active (pl / 24) j p && seLink f == pl % 24 && seRecv f != seRecv e && seOffset f == seOffset e && seClass f == seClass e
      && seEndpoint f == seEndpoint e && seStream f == seStream e && seLength f == seLength e && seSlack f == seSlack e)

def Net.pairBad (n : Net) (io i : Nat) : Bool := n.mods.any (fun m => n.active io i m && !n.matched io i m)

/-- Item 7. -/
def Net.regionBad (n : Net) (io i : Nat) : Bool :=
  let e := n.entry io i
  seSched e && seRecv e && n.mods.any (n.active io i) && (decide (131072 < seRegion e + seLength e)
    || decide (seFreeBy e < seEnd e + guardTicks + ((n.sch io).rttMax + 1) / 2) || decide (n.a.orbitTicks < seFreeBy e))

/-- Lifetime of a region (R428): first tick, and the tick that ends it. -/
def lifeFrom (e : BitVec 256) : Nat := seOffset e - guardTicks
def rxSched (e : BitVec 256) : Bool := seSched e && seRecv e

/-- Item 8. -/
def Net.lifeBad (n : Net) (io i : Nat) : Bool :=
  let e := n.entry io i
  rxSched e && (List.range i).any (fun j =>
    let f := n.entry io j
    rxSched f && overlaps (seRegion e) (seLength e) (seRegion f) (seLength f) && decide (lifeFrom e < seFreeBy f) && decide (lifeFrom f < seFreeBy e)
      && n.mods.any (fun m => n.active io i m && n.active io j m))

/-- PROVEN of ORB_RX_PEAK on module m: the largest sum of live lifetimes. -/
def Net.proven (n : Net) (io m : Nat) : Nat :=
  let l := ((List.range (n.sch io).count).filter (fun i => rxSched (n.entry io i) && n.active io i m)).map (n.entry io)
  (l.map (fun e => ((l.filter (fun f => decide (lifeFrom f ≤ lifeFrom e) && decide (lifeFrom e < seFreeBy f))).map seLength).foldl (· + ·) 0)).foldl max 0

def Img.check14 (m : Img) (d : Dev) : Bad :=
  let n := m.net
  let both (bad : Nat → Nat → Bool) : List Bad := [0, 1].map (fun io => firstEntry scLink io (n.sch io).count (bad io))
  match firstBad ([0, 1].map (m.link1 n)) with
  | some b => some b
  | none =>
    firstBad ([0, 1].map (fun io => if n.topoBad io then some (scLink, io, noItem) else none)
      ++ [if n.treeBad then some (scLink, 0, noItem) else none]
      ++ both (n.useBad d m.normGroups) ++ both n.windowBad ++ both n.pairBad ++ both n.regionBad ++ both n.lifeBad)

/-! Check 15, section 0x11 (R369, R370). -/

/-- Lists of a section that are used: unit, and entry. -/
def Img.lists (m : Img) : List (Nat × MsuList) :=
  ((List.range 256).map (fun i => (i / 16, listOf (m.listEntry i)))).filter (fun x => x.2.count != 0)

def listHas (c : Nat) (x : Nat × MsuList) : Bool := decide (x.2.first ≤ c) && decide (c < x.2.first + x.2.count)

/-- The unit whose list holds a command. -/
def Img.unitOf (m : Img) (c : Nat) : Option Nat := (m.lists.find? (listHas c)).map (·.1)

def finite32 (x : W32) : Bool := (f32 x).isFinite
def below32 (a b : W32) : Bool := (f32 a).lt (f32 b)

/-- A rule block (Table 12-5); `precond`: some PRECOND command names it. -/
def ruleOk (r : BitVec 512) (precond : Bool) : Bool :=
  let f := rbField r
  (List.range 7).all (fun i => finite32 (f i)) && !below32 (f 1) 0 && below32 (f 1) one32 && !below32 (f 2) 0 && below32 (f 2) one32
    && !below32 (f 3) 0 && !below32 (f 4) 0 && !below32 (f 6) (f 5) && bitsOf r 287 266 == 0 && bitsOf r 511 288 == 0
    && (!precond || (finite32 (f 7) && below32 0 (f 7) && decide (1 ≤ rbBlock r) && decide (rbBlock r ≤ 128)))

/-- A norm area's descriptor: tier-1 FP32 with WR = 1, not in a FROZEN segment. -/
def Dev.normAreaOk (d : Dev) (i : Nat) : Bool :=
  let v := viewOf (d.plan.descs.get i)
  let g := d.segs.get v.seg
  i == 0xFFFF || (d.descExists i && v.fmt == 0 && v.wr && segTier g == 2 && !segFrozen g)

def Img.msuHeaderOk (m : Img) (d : Dev) : Bool :=
  nbits (m.msuNum 4 4) 31 2 == 0 && nbits (m.msuNum 16 4) 31 9 == 0 && m.msuNum 52 76 == 0 && m.commands == m.count scMsu 0
    && decide (m.ruleBlocks ≤ 4096) && decide (m.normGroups ≤ 256) && (List.range 16).all (fun u => d.normAreaOk (m.normDesc u))

/-- List entry i breaks Table 12-3, runs past COMMANDS, or holds a command of an earlier list. -/
def Img.listBad (m : Img) (i : Nat) : Bool :=
  let x := m.listEntry i
  let l := listOf x
  nbits x 31 25 != 0 || nbits x 127 96 != 0
    || (l.count != 0 && (l.threshold == 0 || decide (m.commands < l.first + l.count)
      || (List.range i).any (fun j => let k := listOf (m.listEntry j); overlaps l.first l.count k.first k.count)))

/-- Rule block b breaks Table 12-5. -/
def Img.ruleBad (m : Img) (b : Nat) : Bool :=
  !ruleOk (m.ruleBlock b)
    ((List.range m.commands).any (fun c => isUpdateOp (ueOp (m.command c)) && ueRule (m.command c) == 4 && ueBlock (m.command c) == b))

/-- Rows and columns of the matrix that an update command names. -/
def Dev.updShape (d : Dev) (c : BitVec 512) : Nat × Nat := let o := d.updOps c; (o.n, o.k)

/-- Bytes of a command's norm record (Table 12-6). -/
def Dev.normSize (d : Dev) (c : BitVec 512) : Nat := 64 + (if ueRule c = 3 then 4 * ((d.updShape c).1 + (d.updShape c).2) else 0)

/-- First byte of a unit's norm area, and its bytes. -/
def Img.normArea (m : Img) (d : Dev) (u : Nat) : Nat × Nat :=
  let v := viewOf (d.plan.descs.get (m.normDesc u))
  match viewRuns d v with
  | r :: _ => (segAddr d 0 0 r.1 r.2.1.toNat, r.2.2)
  | [] => (0, 0)

/-- The norm record of a command in a list: first byte and length. -/
def Img.normRec (m : Img) (d : Dev) (c : Nat) : Option (Nat × Nat) :=
  match m.unitOf c with
  | none => none
  | some u => if isUpdateOp (ueOp (m.command c)) then some ((m.normArea d u).1 + ueNormOff (m.command c), d.normSize (m.command c)) else none

/-- An operand of an update: FP32, native, in tier 1 or tier 2, of a shape. -/
def Dev.optOperandOk (d : Dev) (i : Nat) (shape : List Nat) : Bool :=
  let v := viewOf (d.plan.descs.get i)
  d.descExists i && v.fmt == 0 && v.layout == 0 && decide (2 ≤ segTier (d.segs.get v.seg)) && v.shape == shape

/-- AUX of a rule holds its statistics. -/
def Dev.auxOk (d : Dev) (i need : Nat) : Bool :=
  let v := viewOf (d.plan.descs.get i)
  d.descExists i && v.fmt == 0 && v.layout == 0 && decide (2 ≤ segTier (d.segs.get v.seg)) && decide (need ≤ v.elems)

/-- Statistics of PRECOND: a square of the block's rows for each block. -/
def precondNeed (n k b : Nat) : Nat := ((List.range ((n + b - 1) / b)).map (fun i => (min b (n - i * b)) ^ 2 * ((k + b - 1) / b))).foldl (· + ·) 0

/-- R370 and Table 12-7. -/
def Img.updateOk (m : Img) (d : Dev) (c : BitVec 512) : Bool :=
  let vec := ueOp c == opUpdateVec
  let rule := ueRule c
  let w := viewOf (d.plan.descs.get (if vec then ueWDesc c else wrWDesc (d.plan.weights.get (ueOperand c))))
  let g := viewOf (d.plan.descs.get (ueGDesc c))
  let m1 := rule != 3
  let m2 := rule == 1 || rule == 2
  let s := d.updShape c
  (if vec then decide (rule ≤ 2) && d.descExists (ueWDesc c) && d.descExists (ueGDesc c) && w.rank == 1 && g.rank == 1
    else decide (rule ≤ 4) && decide (ueOperand c < d.plan.weightCount) && wrRole (d.plan.weights.get (ueOperand c)) == 0)
    && d.optOperandOk (ueMaster c) w.shape
    && (if m1 then d.optOperandOk (ueM1 c) w.shape else ueM1 c == 0xFFFF) && (if m2 then d.optOperandOk (ueM2 c) w.shape else ueM2 c == 0xFFFF)
    && (if rule = 3 then d.auxOk (ueAux c) (s.1 + s.2)
      else if rule = 4 then d.auxOk (ueAux c) (precondNeed s.1 s.2 (max 1 (rbBlock (m.ruleBlock (ueBlock c))))) else ueAux c == 0xFFFF)
    && decide (ueGroup c < m.normGroups) && decide (ueBlock c < m.ruleBlocks) && ueNormOff c % 64 == 0

def Img.commandBad (m : Img) (d : Dev) (i : Nat) : Bool :=
  let c := m.command i
  let u := m.unitOf i
  let area := m.normArea d (u.getD 0)
  bitsOf c 15 11 != 0 || bitsOf c 63 41 != 0 || bitsOf c 383 353 != 0 || bitsOf c 511 384 != 0 || !sigFieldOk (ueSig c)
    || (if isUpdateOp (ueOp c) then
        !m.updateOk d c
          || (match u with
            | some u => m.normDesc u == 0xFFFF || decide (area.2 < ueNormOff c + d.normSize c)
            | none => false)
          || (match m.normRec d i with
            | some r => (List.range i).any (fun j => match m.normRec d j with
              | some q => overlaps r.1 r.2 q.1 q.2
              | none => false)
            | none => false)
      else if ueOp c = opSmul then ueRule c != 0 || ueNCount c == 0 || !d.descExists (ueWDesc c) || !d.descExists (ueGDesc c) || !d.descExists (ueMaster c)
      else true)

def Img.checkMsu (m : Img) (d : Dev) : Bad :=
  if (m.find scMsu 0).isNone then none
  else if !m.msuHeaderOk d then some (scMsu, 0, noItem)
  else firstBad [firstEntry scMsu 0 256 m.listBad, firstEntry scMsu 0 m.commands (m.commandBad d), firstEntry scMsu 0 m.ruleBlocks m.ruleBad]

/-! Check 15, section 0x12 (R462). -/

/-- SEND entries that carry a transfer from module m on a stream of an IO die, through the relays, with the module that each
reaches: (sender, IO die, entry, receiver). -/
def Img.route (m : Img) (n : Net) (kind bucket : Nat) : Nat → Nat → Nat → Nat → List (Nat × Nat × Nat × Nat)
  | 0, _, _, _ => []
  | f + 1, io, mod, stream =>
    if stream = 0x3FF then []
    else ((List.range (n.sch io).count).filter (fun i =>
        !seRecv (n.entry io i) && seStream (n.entry io i) == stream && n.active io i mod)).flatMap (fun i =>
      let l := n.link io i
      let p := n.peer mod l
      let pio := tpLink (n.topo mod l) / 24
      let outs := ((List.range m.relays).map m.relay).filter (fun r =>
        rlDie r == pio && rlIn r == stream && rlKind r == kind && (kind == 4 || rlBucket r == bucket) && (n.sch pio).inSet (rlSet r) p)
      (mod, io, i, p) :: (if seEndpoint (n.entry io i) = 1 then outs.flatMap (fun r => m.route n kind bucket f pio p (rlOut r)) else []))

def Img.contribRoute (m : Img) (n : Net) (k c : Nat) : List (Nat × Nat × Nat × Nat) :=
  m.route n 1 k n.modules (bkDie (m.bucket k)) c (bkSend (m.bucket k))
def Img.correctRoute (m : Img) (n : Net) (k c : Nat) : List (Nat × Nat × Nat × Nat) :=
  m.route n 2 k n.modules (bkDie (m.bucket k)) c (bkCorr (m.bucket k))
def Img.reducedRoute (m : Img) (n : Net) (k : Nat) : List (Nat × Nat × Nat × Nat) :=
  m.route n 3 k n.modules (bkDie (m.bucket k)) (bkOwner (m.bucket k)) (bkDist (m.bucket k))
def Img.normRoute (m : Img) (n : Net) (c : Nat) : List (Nat × Nat × Nat × Nat) :=
  m.route n 4 0 n.modules (rhNormDie m.redHdr) c (rhNormStream m.redHdr)

def reaches (l : List (Nat × Nat × Nat × Nat)) (p : Nat) : Nat := (l.filter (fun x => x.2.2.2 == p)).length

/-- Contributors of a bucket other than its owner. -/
def Img.senders (m : Img) (n : Net) (k : Nat) : List Nat :=
  n.mods.filter (fun c => (n.sch (bkDie (m.bucket k))).inSet (bkCset (m.bucket k)) c && c != bkOwner (m.bucket k))

/-- Links between two modules along the time tree. -/
def Net.dist (n : Net) (a b : Nat) : Nat :=
  let ca := (n.chain 8 a).getD [a]
  let cb := (n.chain 8 b).getD [b]
  match ca.find? (fun x => cb.contains x) with
  | some x => ca.idxOf x + cb.idxOf x
  | none => 0

def Net.diameter (n : Net) : Nat := (n.mods.flatMap (fun a => n.mods.map (n.dist a))).foldl max 0

/-- Item 1. -/
def Img.redHeaderOk (m : Img) (n : Net) : Bool :=
  let h := m.redHdr
  bitsOf h 15 13 == 0 && m.buckets == m.count scRed 0 && decide (m.buckets ≤ 4096) && rhInitScale h != 0xFF && bitsOf h 39 34 == 0
    && rhMode h == m.arrival && bitsOf h 190 174 == 0 && sigFieldOk (rhRedSig h) && bitsOf h 199 192 == 0 && bitsOf h 255 237 == 0
    && bitsOf h 1023 256 == 0 && decide (1 ≤ n.modules)

def Img.relayOk (m : Img) (i : Nat) : Bool :=
  let r := m.relay i
  decide (1 ≤ rlKind r) && decide (rlKind r ≤ 4) && (if rlKind r = 4 then rlBucket r == 0 else decide (rlBucket r < m.buckets))
    && bitsOf r 31 26 == 0 && bitsOf r 47 42 == 0 && decide (rlSet r ≤ m.setCount (rlDie r)) && bitsOf r 63 56 == 0

def Img.bucketRangesOk (m : Img) (k : Nat) : Bool :=
  let b := m.bucket k
  bitsOf b 11 0 == 0 && bitsOf b 63 52 == 0 && decide (1 ≤ bkBlocks b) && decide (bkOwner b < m.modules) && decide (bkCset b ≤ m.setCount (bkDie b))
    && bitsOf b 143 138 == 0 && bitsOf b 159 154 == 0 && bitsOf b 175 170 == 0 && bitsOf b 191 190 == 0 && (m.arrival || bkCommit b == 0)

/-- A tier-1 FP32 native rank-1 descriptor with stride 1, no padding and WR = 1; its extent. -/
def Dev.flatExt (d : Dev) (i : Nat) : Option Nat :=
  let v := viewOf (d.plan.descs.get i)
  match v.dims with
  | [x] => if d.descExists i ∧ v.fmt = 0 ∧ v.layout = 0 ∧ x.str = 1 ∧ x.plo = 0 ∧ x.phi = 0 ∧ v.wr ∧ segTier (d.segs.get v.seg) = 2 then some x.ext else none
  | _ => none

def Dev.flatAddr (d : Dev) (i : Nat) : Nat := let v := viewOf (d.plan.descs.get i); segAddr d 0 0 v.seg (4 * v.offset.toNat)

/-- Blocks of a gradient region: those of its segment that hold a real element. -/
def gradBlocks (v : View) : List Nat :=
  match elemRange v.dims with
  | none => []
  | some (lo, hi) =>
    let lo := (v.offset + lo).toNat / 32
    let hi := (v.offset + hi).toNat / 32
    let elems := (List.range v.elems).map (fun i => (v.elemIndex (coords v.shape i)).toNat / 32)
    ((List.range (hi + 1 - lo)).map (lo + ·)).filter (fun b => elems.contains b)

/-- Gradient regions that the buckets must cover: those of TRAINABLE weights and of UPDATE_VEC commands. -/
def Img.gradients (m : Img) (d : Dev) : List Nat :=
  ((List.range d.plan.weightCount).map d.plan.weights.get).filterMap (fun r => if wrRole r = 0 then some (wrGradDesc r) else none)
    ++ (if (m.find scMsu 0).isNone then [] else ((List.range m.commands).map m.command).filterMap (fun c =>
      if ueOp c = opUpdateVec then some (ueGDesc c) else none))

/-- Buckets whose source holds a block of a segment. -/
def Img.covering (m : Img) (d : Dev) (seg b : Nat) : Nat :=
  ((List.range m.buckets).filter (fun k =>
    let v := viewOf (d.plan.descs.get (bkSrc (m.bucket k)))
    let lo := v.offset.toNat / 32 + bkFirst (m.bucket k)
    v.seg == seg && decide (lo ≤ b) && decide (b < lo + bkBlocks (m.bucket k)))).length

def Img.covered (m : Img) (d : Dev) : Bool :=
  (m.gradients d).all (fun i => let v := viewOf (d.plan.descs.get i); (gradBlocks v).all (fun b => m.covering d v.seg b == 1))

/-- Bucket area: the region that AREA_DESC describes. -/
def Img.areaRange (m : Img) (d : Dev) (k : Nat) : Nat × Nat :=
  (d.flatAddr (bkArea (m.bucket k)), 4 * (d.flatExt (bkArea (m.bucket k))).getD 0)

def Img.bucketPlaceBad (m : Img) (d : Dev) (k : Nat) : Bool :=
  let b := m.bucket k
  let src := viewOf (d.plan.descs.get (bkSrc b))
  let a := m.areaRange d k
  (match d.flatExt (bkSrc b) with
    | some n => decide (n < 32 * (bkFirst b + bkBlocks b)) || src.offset % 32 != 0
    | none => true)
    || (match d.flatExt (bkArea b) with
      | some n => decide (4 * n < areaSize (bkBlocks b))
      | none => true)
    || (List.range k).any (fun j => let c := m.areaRange d j; overlaps a.1 a.2 c.1 c.2)

def Img.recDescOk (m : Img) (d : Dev) : Bool :=
  let i := rhRecDesc m.redHdr
  (match d.flatExt i with
    | some n => decide (8 ≤ n)
    | none => false) && !d.descFrozen i

/-- Item 3: what each stream number of an IO die belongs to: (die, stream, kind, bucket); kind 0 is staging. -/
def Img.streams (m : Img) : List (Nat × Nat × Nat × Nat) :=
  (((List.range m.buckets).flatMap (fun k =>
      let b := m.bucket k
      [(bkDie b, bkStageSem b, 0, k), (bkDie b, bkSend b, 1, k), (bkDie b, bkCorr b, 2, k), (bkDie b, bkDist b, 3, k)]))
    ++ ((List.range m.relays).map m.relay).flatMap (fun r => [(rlDie r, rlIn r, rlKind r, rlBucket r), (rlDie r, rlOut r, rlKind r, rlBucket r)])
    ++ [(rhNormDie m.redHdr, rhNormStream m.redHdr, 4, 0)]).filter (fun x => x.2.1 != 0x3FF)

/-- LENGTH of a transfer of a kind (R439). -/
def Img.lengthOk (m : Img) (kind bucket : Nat) (e : BitVec 256) : Bool :=
  let n := bkBlocks (m.bucket bucket)
  match kind with
  | 1 => seLength e == (contribLen n + 511) / 512
  | 2 => decide (1 ≤ seLength e)
  | 3 => seLength e == (reducedLen n + 511) / 512
  | _ => seLength e == (64 + 32 + 24 * m.normGroups + 511) / 512

/-- A stream's use breaks item 3; a number that belongs to two uses fails at the later bucket. -/
def Img.streamBad (m : Img) (n : Net) (x : Nat × Nat × Nat × Nat) : Bool :=
  let es := ((List.range (n.sch x.1).count).map (n.entry x.1)).filter (fun e => seStream e == x.2.1)
  m.streams.any (fun y => y.1 == x.1 && y.2.1 == x.2.1 && (y.2.2.1 != x.2.2.1 || y.2.2.2 != x.2.2.2) && (x.2.2.1 == 4 || decide (y.2.2.2 ≤ x.2.2.2)))
    || (if x.2.2.1 = 0 then !es.isEmpty
      else es.isEmpty || es.any (fun e => !seSched e || !((seEndpoint e == 1 && m.lengthOk x.2.2.1 x.2.2.2 e) || (seEndpoint e == 2 && x.2.2.1 == 4))))

def Img.corrBad (m : Img) (k : Nat) : Bool := (m.arrival || m.modules == 1) && bkCorr (m.bucket k) != 0x3FF

/-- Item 4. -/
def Img.deliveryBad (m : Img) (n : Net) (k : Nat) : Bool :=
  let o := bkOwner (m.bucket k)
  (m.senders n k).any (fun c => reaches (m.contribRoute n k c) o != 1)
    || n.mods.any (fun p => p != o && reaches (m.reducedRoute n k) p != 1)

def Img.normBad (m : Img) (n : Net) : Bool := n.mods.any (fun c => n.mods.any (fun p => p != c && reaches (m.normRoute n c) p != 1))

def Net.ends (n : Net) (x : Nat × Nat × Nat × Nat) : Nat := seEnd (n.entry x.2.1 x.2.2.1)
def Net.begins (n : Net) (x : Nat × Nat × Nat × Nat) : Nat := seOffset (n.entry x.2.1 x.2.2.1)

/-- Item 5 for a bucket. -/
def Img.windowsBad (m : Img) (n : Net) (k : Nat) : Bool :=
  let dl := bkDeadline (m.bucket k)
  (m.senders n k).any (fun c =>
      (m.contribRoute n k c ++ m.correctRoute n k c).any (fun x => decide (dl < n.ends x + guardTicks))
        || (m.correctRoute n k c).any (fun x => x.1 == c && (m.contribRoute n k c).any (fun y => y.1 == c && decide (n.begins x < n.ends y))))
    || (m.reducedRoute n k).any (fun x => decide (n.begins x < dl) || decide (rhVoteTick m.redHdr < n.ends x + guardTicks))

def Img.normWindowsBad (m : Img) (n : Net) : Bool :=
  n.mods.any (fun c => (m.normRoute n c).any (fun x => decide (rhNormDeadline m.redHdr < n.ends x + guardTicks)))

/-- Item 6 for a bucket. -/
def Img.commitBad (m : Img) (n : Net) (k : Nat) : Bool :=
  let b := m.bucket k
  let dl := bkDeadline b
  m.arrival && (n.mods.filter (fun c => (n.sch (bkDie b)).inSet (bkCset b) c)).any (fun c =>
    let w := 2000 * (n.dist c (bkOwner b) + 1)
    let r := m.contribRoute n k c
    decide (dl < bkCommit b + w) || r.any (fun x => decide (dl < n.ends x + w))
      || r.any (fun x => x.2.2.2 == bkOwner b && (
        let l := tpLink (n.topo x.1 (n.link x.2.1 x.2.2.1))
        (List.range (n.sch (l / 24)).count).any (fun j =>
          let f := n.entry (l / 24) j
          let e := n.entry x.2.1 x.2.2.1
          n.active (l / 24) j (bkOwner b) && seRecv f && seLink f == l % 24 && seStream f == seStream e && seOffset f == seOffset e
            && decide (seFreeBy f < dl + guardTicks)))))

/-- Item 7. -/
def Img.ticksBad (m : Img) (n : Net) : Bool :=
  let h := m.redHdr
  decide (rhVoteClose h < rhVoteTick h + 2000 * (n.diameter + 1)) || decide (rhNormDeadline h < rhVoteClose h)
    || decide (n.a.orbitTicks < rhNormDeadline h)

def Img.checkRed (m : Img) (d : Dev) : Bad :=
  let n := m.net
  let all (bad : Bool) : Bad := if bad then some (scRed, 0, noItem) else none
  let each (bad : Nat → Bool) : Bad := firstEntry scRed 0 m.buckets bad
  if (m.find scRed 0).isNone then all (decide (1 < n.modules) && !(m.gradients d).isEmpty)
  else if !m.redHeaderOk n then some (scRed, 0, noItem)
  else
    firstBad [each (fun k => !m.bucketRangesOk k), firstEntry scRed 0 m.relays (fun i => !m.relayOk i), each (m.bucketPlaceBad d),
      all (!m.recDescOk d || !m.covered d), each (fun k => m.corrBad k || m.streams.any (fun x => x.2.2.1 != 4 && x.2.2.2 == k && m.streamBad n x)),
      all (m.streams.any (fun x => x.2.2.1 == 4 && m.streamBad n x)), each (m.deliveryBad n), all (m.normBad n), each (m.windowsBad n),
      all (m.normWindowsBad n), each (m.commitBad n), all (m.ticksBad n)]

def Img.check15 (m : Img) (d : Dev) : Bad := firstBad [m.checkMsu d, m.checkRed d]

/-! All checks in order (R331). -/

/-- A failing item with its check and status. -/
def asRefused (check : Nat) (status : Byte) : Bad → Option Refused
  | none => none
  | some b => some ⟨check, status, b.1, b.2.1, b.2.2⟩

/-- The first refusal of a list. -/
def firstRefused : List (Option Refused) → Option Refused
  | [] => none
  | some r :: _ => some r
  | none :: r => firstRefused r

def stVerify : Byte := 0x13
def stClass : Byte := 0x15

/-- A header-level failure. -/
def headBad (b : Bool) : Bad := if b then some (0, 0, noItem) else none

/-- The device that checks 5 to 15 judge the image against: its own tables, and its initial data in memory. -/
def Img.judged (m : Img) (d : Dev) (module : Nat) : Dev :=
  let t := m.tables d module
  { t with ms := { MemSys.init with mem := m.initRecs.foldl (fun x r => if initBad t r then x else applyWrites x (m.initItems t r)) [] } }

/-- Checks 2 to 15. A static analysis whose method the spec does not give has a free verdict (Config.staticVerdict). -/
def Img.refusal (m : Img) (d : Dev) (module : Nat) (envelope : Nat) : Option Refused :=
  match m.check2 with
  | some b => asRefused 2 stVerify (some b)
  | none =>
    let dg := m.digest
    let static (c : Nat) : Bad := Config.staticVerdict c dg
    match firstRefused [asRefused 3 stClass (headBad (decide (envelope < envelopeOf m.cls))), asRefused 4 stVerify (headBad (decide (m.modules ≤ module))),
        asRefused 5 stVerify m.check5] with
    | some r => some r
    | none =>
      let t := m.judged d module
      firstRefused [asRefused 6 stVerify (m.check6 t), asRefused 7 stVerify (m.check7 t), asRefused 8 stVerify (m.check8 t),
        asRefused 9 stVerify (firstBad [m.check9 t, static 9]), asRefused 10 stOversize (firstBad [m.check10 t, static 10]),
        asRefused 11 stVerify (firstBad [m.check11 t, static 11]), asRefused 12 stVerify (firstBad [m.check12, static 12]),
        asRefused 13 stVerify (static 13), asRefused 14 stVerify (m.check14 t), asRefused 15 stVerify (m.check15 t)]

end Sys2Proof.Machine
end

