-- ==== Sys2Proof/Machine/Loader.lean ====
section
/-! DEFINITION. The installation of an accepted plan image (R206, R309, R318, R320, R334, R344, R353, R355, R358, R379, R408,
R410, R412, R430, R444). -/
namespace Sys2Proof.Machine

/-- The image of `len` bytes at a host address. -/
def State.image (s : State) (addr len : Nat) : Img :=
  ⟨(cellsIn s.dev.ms.mem (hostBase + addr) (hostBase + addr + len)).map (fun c => (c.1 - (hostBase + addr), c.2)), len⟩

/-- Counter i of a die: both banks hold INIT (R320). -/
def Img.counter (m : Img) (k i : Nat) : Counter :=
  let x := m.entry scCount k i
  let v : W32 := BitVec.ofNat 32 (ctInit x)
  if ctUsed x then ⟨true, v, v, v⟩ else ⟨false, 0, 0, 0⟩

def Img.limit (m : Img) (k i : Nat) : ShapeLimit := let x := m.entry scShape k i; ⟨slMmax x, slNmax x, slKmax x⟩

/-- Tables of die k; its sequence table and audit slots stay. -/
def Img.loadDie (m : Img) (k : Nat) (x : Die) : Die :=
  { x with
    counters := bankOf ⟨false, 0, 0, 0⟩ (m.count scCount k) (m.counter k)
    groups := bankOf 0 (m.count scGroup k) (fun i => BitVec.ofNat 128 (m.entry scGroup k i))
    limits := bankOf ⟨0, 0, 0⟩ (m.count scShape k) (m.limit k), codeLen := m.count scCode k }

/-- A logical core as a binding entry gives it: halted, both semaphore banks at their initial values (Table 10-3, R219). -/
def bindLc (k x : Nat) : LCore :=
  let l := { LCore.unbound with
    bound := true, phys := 32 * k + bdPhys x, gather := bdGather x, entry := bdEntry x, param := BitVec.ofNat 64 (bdParam x)
    semInit := bankOf 0 32 (fun i => BitVec.ofNat 16 (bdSem x i)) }
  (l.resetBank 0).resetBank 1

/-- The binding tables of the four dies. -/
def Img.bindings (m : Img) : Bank LCore :=
  [0, 1, 2, 3].foldl (fun b k => (List.range (m.count scBind k)).foldl (fun b i =>
    let x := m.binding k i
    b.set (bdLogical x) (bindLc k x)) b) (Bank.const LCore.unbound)

/-- The code image of a die goes to every core of the die. -/
def Img.loadCode (m : Img) (mem : Mem) (k : Nat) : Mem :=
  memWriteList (memClear mem (imemBase k) (imemBase k + imemSize)) (imemBase k) (memReadList m.mem (m.start scCode k) (16 * m.count scCode k))

/-- What a plan load does to a memory-side unit: no list has run, and the run of imbalanced windows restarts (R358, R364). -/
def Msu.load (u : Msu) : Msu := { u.idle with orbit := 0, p2Orbit := 0, hotRun := 0 }

/-- Steps 1 to 6 of R334 on what running work touches; `key`: the interleave key. -/
def Dev.install (d : Dev) (m : Img) (module : Nat) (key : W64) : Dev :=
  let d := m.tables { d with ms := d.ms.wipe, ilKey := key } module
  let d := m.initRecs.foldl (fun (d : Dev) r => d.write (m.initItems d r) false) d
  let mem := [0, 1, 2, 3].foldl m.loadCode d.ms.mem
  let flips (b : Bank Bool) : Bank Bool := b.clear (2 ^ 36) (2 ^ 36 + 128 * imemSize)
  { d with
    ms := { d.ms with mem := mem, flip1 := flips d.ms.flip1, flip2 := flips d.ms.flip2 }
    dies := [0, 1, 2, 3].foldl (fun b k => b.upd k (m.loadDie k)) d.dies
    lcs := m.bindings, cores := d.cores.mapVals Core.idle, comas := d.comas.mapVals Coma.idle, msus := d.msus.mapVals Msu.load
    msuPlan := m.msuPlan, signals := [], streamSems := Bank.const 0, accesses := Bank.const 0, runs := [], norms := Bank.const none
    stepBase := m.msuPlan.initStep, stepWrites := [], stepFold := 0, stepRef := 0, restrict := none, ownMsgs := [] }

/-- Time after a plan load: the root is LOCKED and its job time starts at 0; any other module steps to its parent's time
until it first reaches LOCKED (R410, R412). -/
def State.loadTime (s : State) : State :=
  if s.isRoot then
    { s with
      dev := { s.dev with time := 0 }
      fab := { s.fab with tb := { TimeBase.none with state := 2, locked := true }, slot := 0 }
      moon := { s.moon with cpBeat := Bank.const 0, halfBeat := Bank.const 0 } }
  else { s with fab := { s.fab with tb := TimeBase.none } }

/-- The fabric after a plan load: new schedule, no transfer, links without keys, no orbit, EPOCH 0. -/
def Fab.install (f : Fab) (m : Img) (module : Nat) : Fab :=
  let n := m.net
  let io (i : Nat) (g : OrbRegs) : OrbRegs := { g with proven := n.proven i module, observed := 0 }
  { f with
    sched := ((Bank.const SchedPlan.none).set 0 (m.schedPlan 0)).set 1 (m.schedPlan 1)
    links := f.links.mapVals (fun (l : Link) => { l.unkeyed with ctlQ := [], nakOut := [], lastTick := none }), xfers := [], seen := [], epoch := 0
    regs := (f.regs.upd 0 (io 0)).upd 1 (io 1), redPlan := m.redPlan, red := Reduce.init, orbit := 0 }

/-- An accepted image replaces the installed plan whole (R205, R334); a drawn key comes from the free values (R353). -/
def State.install (s : State) (m : Img) (module : Nat) : State :=
  let x := s.dev.draw
  let d := if m.fixedKey then s.dev else x.2
  let key : W64 := BitVec.ofNat 64 (if m.fixedKey then m.key else x.1)
  { s with dev := d.install m module key, fab := s.fab.install m module }.loadTime

end Sys2Proof.Machine
end

