-- ==== Sys2Proof/Machine/SecurityOps.lean ====
section
/-! DEFINITION. Identity and attestation, owners and sessions, plan signatures and debug tokens (R521, R539 to R553, R558 to
R560). -/
namespace Sys2Proof.Machine

/-! Identity (R539 to R541). -/

def bytes256 (x : BitVec 256) : List Byte := leBytes 32 x.toNat
def bytes384 (x : BitVec 384) : List Byte := leBytes 48 x.toNat
def bytes776 (x : BitVec 776) : List Byte := leBytes 97 x.toNat
def of256 (l : List Byte) : BitVec 256 := BitVec.ofNat 256 (leNat l)
def of384 (l : List Byte) : BitVec 384 := BitVec.ofNat 384 (leNat l)
def of776 (l : List Byte) : BitVec 776 := BitVec.ofNat 776 (leNat l)

/-- Fused secret of an IO die. -/
def Sec.secret (x : Sec) (io : Nat) : BitVec 256 := x.fused.get io

/-- Security-controller image (cp = 0) or control-processor image (cp = 1) of an IO die. -/
def Sec.image (x : Sec) (io cp : Nat) : FwBanks := x.fw.get (2 * io + cp)

/-- Digest of the image that booted. -/
def FwBanks.digest (b : FwBanks) : List Byte := sha384 (if b.usedB then b.bankB else b.bankA)

def Sec.identityPub (x : Sec) (io : Nat) : List Byte := ecPublic (Config.deviceKey (x.secret io))
def Sec.serial (x : Sec) (io : Nat) : List Byte := sha384 (x.identityPub io)
def Sec.alias_ (x : Sec) (io : Nat) : Nat := Config.aliasKey (x.secret io) (x.image io 0).digest (x.image io 1).digest

/-- The owner record, where it opens under the present generation (R544). -/
def Sec.opened (x : Sec) : Option Owner := match x.owner with
  | some o => if o.gen = x.ownerGen then some o else none
  | none => none

/-- The IDENTITY reply (Table 18-2) with a nonce. -/
def Sec.identity (x : Sec) (io : Nat) (nonce : BitVec 384) : List Byte :=
  leBytes 4 (fld 20 17 (BitVec.toNat x.debug) + flag 16 x.opened.isSome + 1) ++ leBytes 4 (x.ownerGen % 128)
    ++ leBytes 8 (fld 15 8 (x.image io 1).svn + fld 7 0 (x.image io 0).svn) ++ bytes384 nonce ++ x.identityPub io ++ List.replicate 15 0
    ++ x.serial io

/-- A nonce is drawn, and every earlier one is void (R540). -/
def State.drawNonce (s : State) : State × BitVec 384 :=
  let x := s.dev.draw
  let n : BitVec 384 := BitVec.ofNat 384 x.1
  ({ s with dev := x.2, sec := { s.sec with nonce := some n, lastNonce := n } }, n)

/-- The eight measured values (Table 18-3). -/
def State.measured (s : State) : List (List Byte) :=
  let x := s.sec
  let io := s.primaryIo
  [(x.image 0 0).digest, (x.image 0 1).digest, (x.image 1 0).digest, (x.image 1 1).digest,
   [BitVec.ofNat 8 (x.image io 0).svn, BitVec.ofNat 8 (x.image io 1).svn, BitVec.ofNat 8 x.ownerGen], bytes384 s.dev.plan.digest,
   [BitVec.ofNat 8 (BitVec.toNat x.debug)], bytes384 x.moonletDigest]

/-- The answer to an SPDM request. -/
def State.spdm (s : State) (request : List Byte) : List Byte × State :=
  (Config.spdmReply s.dev.free request s.measured, { s with dev := s.dev.draw.2 })

/-! Tier-2 keys and owner generations (R544, R548, R553). -/

/-- What the tier-2 keys derive from: the digest of the owner's key, or of the HMAC of its secret. -/
def Owner.keyDigest (o : Owner) : BitVec 384 :=
  of384 (sha384 (if o.pub ≠ 0 then bytes776 o.pub else hmac384 (bytes256 o.secret) (textBytes "aq9 id")))

/-- FW_DEBUG is in force. -/
def Sec.fwDebug (x : Sec) : Bool := bitOf x.debug 3

/-- Tier-2 keys are installed while the module is owned and FW_DEBUG is not in force. -/
def Sec.lockT2 (x : Sec) : Sec :=
  { x with t2Key := if x.fwDebug then none else x.opened.map (fun o => (o.keyDigest, x.ownerGen)) }

/-- One OWNER_GEN fuse is burnt and the record becomes `o`: every tier-2 line written before fails its tag. -/
def State.burn (s : State) (o : Option Owner) : State :=
  let g := s.sec.ownerGen + 1
  let sec := { s.sec with ownerGen := g, owner := o.map (fun (o : Owner) => { o with gen := g }) }
  { s with sec := sec.lockT2, dev := { s.dev with ms := { s.dev.ms with tagged := Bank.const false } } }

/-! The session message (Table 18-4). -/

/-- A session message: its bytes from address 0 on, and its length. -/
def Img.kind (m : Img) : Nat := nbits (m.num 0 4) 3 0
def Img.rotate (m : Img) : Bool := nbits (m.num 0 4) 8 8 == 1
def Img.release (m : Img) : Bool := nbits (m.num 0 4) 9 9 == 1
def Img.field (m : Img) (a b : Nat) : List Byte := memReadList m.mem a (b + 1 - a)

/-- Reserved bits and bytes are zero. -/
def Img.plain (m : Img) : Bool :=
  nbits (m.num 0 4) 7 4 == 0 && nbits (m.num 0 4) 31 10 == 0 && m.num 201 7 == 0 && m.num 304 16 == 0

/-- Bytes sealed in the message. -/
def Img.sealedLen (m : Img) : Nat := if m.kind = 3 then 161 else 32

/-- Session keys (R546). -/
structure SessionKeys where
  cmd : List Byte
  enc : List Byte
  crash : List Byte
  id : List Byte

def sessionKeys (moduleNonce hostNonce ikm : List Byte) : SessionKeys :=
  let salt := moduleNonce ++ hostNonce
  ⟨hkdf384 salt ikm (textBytes "aq9 cmd") 48, hkdf384 salt ikm (textBytes "aq9 enc") 32, hkdf384 salt ikm (textBytes "aq9 crash") 32,
   hkdf384 salt ikm (textBytes "aq9 id") 8⟩

/-- Input keying material of a kind; none where the kind is not accepted or its PROOF fails (Table 18-5). `eph`: the
module's ephemeral private key. -/
def Sec.material (x : Sec) (m : Img) (eph : Nat) : Option (List Byte) :=
  let eph' := m.field 104 200
  match m.kind, x.opened with
  | 1, some o => if o.pub ≠ 0 && !m.release && ecdsaVerify (bytes776 o.pub) (sha384 (m.field 0 207)) (m.field 208 303) then ecdh eph eph' else none
  | 2, some o =>
    if o.secret ≠ 0 && !m.release && hmac384 (bytes256 o.secret) (m.field 0 103) == m.field 208 255 then some (bytes256 o.secret) else none
  | 3, none => if !m.rotate && !m.release then ecdh eph eph' else none
  | _, _ => none

/-- The sealed bytes in the clear; none where the tag fails. -/
def Img.unseal (m : Img) (key : List Byte) : Option (List Byte) :=
  let n := m.sealedLen
  let ct := m.field 320 (319 + n)
  let iv := List.replicate 12 0
  if 336 + n ≤ m.len && gcmTag key iv [] ct == m.field (320 + n) (335 + n) then some (gcmCrypt key iv ct) else none

/-- What an accepted open gives. -/
structure Grant where
  keys : SessionKeys
  clear : List Byte

/-- The kinds that open a session: the nonce is the newest, PROOF and SEALED hold, and a generation is left where one is
needed (R547). -/
def Sec.grant (x : Sec) (m : Img) (eph : Nat) : Option Grant :=
  if x.nonce ≠ some (of384 (m.field 8 55)) || !m.plain then none
  else if (m.rotate || m.kind == 3) && decide (64 ≤ x.ownerGen) then none
  else match x.material m eph with
    | none => none
    | some ikm =>
      let k := sessionKeys (m.field 8 55) (m.field 56 103) ikm
      (m.unseal k.enc).map (fun c => ⟨k, c⟩)

/-- CLOSE is accepted: a session is open, the nonce is the newest, and RELEASE has a generation left. -/
def Sec.closable (x : Sec) (m : Img) : Bool :=
  m.kind == 4 && x.session.isSome && decide (x.nonce = some (of384 (m.field 8 55))) && m.plain && !m.rotate
    && !(m.release && decide (64 ≤ x.ownerGen))

/-- A message needs a 65th generation. -/
def Sec.exhausts (x : Sec) (m : Img) : Bool :=
  decide (64 ≤ x.ownerGen) && (m.rotate || m.kind == 3 || (m.kind == 4 && m.release))

/-- The nonce that a message or token names is consumed. -/
def Sec.consume (x : Sec) (n : BitVec 384) : Sec := if x.nonce = some n then { x with nonce := none } else x

/-! Opening and closing (R545, R548, R549). -/

/-- Owner tag of the next session: 0xFE wraps to 0x01 (R548). -/
def nextTag (t : Byte) : Byte := if t = 0xFE then 0x01 else t + 1

/-- The reply to an accepted message, 256 B (R545): `eph` and `k` are the ephemeral key and the signature's nonce. -/
def State.sessionReply (s : State) (m : Img) (eph k : Nat) (id : List Byte) : List Byte :=
  let head := ecPublic eph ++ List.replicate 7 0 ++ id ++ List.replicate 16 0
  head ++ ecdsaSign (s.sec.alias_ s.primaryIo) k (sha384 (m.bytes ++ head)) ++ List.replicate 32 0

def State.hostWrite (s : State) (addr : Nat) (l : List Byte) : State :=
  { s with dev := { s.dev with ms := { s.dev.ms with mem := memWriteList s.dev.ms.mem (hostBase + addr) l } } }

/-- The ephemeral key and the signature's nonce: two draws of the random generator, each from 1 to n - 1. -/
def scalarOf (x : Nat) : Nat := x % (p384n - 1) + 1
def State.eph (s : State) : Nat := scalarOf s.dev.draw.1
def State.sigNonce (s : State) : Nat := scalarOf s.dev.draw.2.draw.1
def State.drawn2 (s : State) : State := { s with dev := s.dev.draw.2.draw.2 }

/-- The new session of a grant. -/
def Grant.session (g : Grant) (m : Img) (tag : Byte) : Session :=
  { kind := if m.kind = 2 then 2 else 1, id := BitVec.ofNat 64 (leNat g.keys.id), tag := tag, kCmd := of384 g.keys.cmd, kCrash := of256 g.keys.crash
    jobSecret := of256 (g.clear.take 32), minPlanSvn := m.num 4 4, cmdNumber := Bank.const 0 }

/-- Owner that CLAIM's sealed bytes name. -/
def Grant.owner (g : Grant) : Owner := ⟨of776 ((g.clear.drop 32).take 97), of256 ((g.clear.drop 129).take 32), 0⟩

/-- A granted open: any session ends, CLAIM and ROTATE burn their fuse, and the new session begins. -/
def State.begin_ (s : State) (m : Img) (g : Grant) : State :=
  let s := s.endSession
  let s := if m.kind = 3 then s.burn (some g.owner) else if m.rotate then s.burn s.sec.owner else s
  let tag := nextTag s.sec.lastTag
  { s with
    dev := { s.dev with ownerTag := tag }
    sec := { s.sec with session := some (g.session m tag), lastTag := tag } }

/-- Outcome of an OPEN_SESSION message at a host address: the state and the record's status and detail. -/
def State.openMessage (s : State) (addr len : Nat) : State × Nat × Nat :=
  let m := s.image addr len
  let x := s.sec
  let eph := s.eph
  let k := s.sigNonce
  let s := s.drawn2
  let s := { s with sec := { (x.consume (of384 (m.field 8 55))) with genExhausted := x.genExhausted || x.exhausts m } }
  if x.closable m then
    let id : List Byte := leBytes 8 (match x.session with
      | some y => y.id.toNat
      | none => 0)
    let s := s.hostWrite (addr + len) (s.sessionReply m eph k id)
    let s := s.endSession
    (if m.release then s.burn none else s, 0x00, 0)
  else match x.grant m eph with
    | some g =>
      let s := s.hostWrite (addr + len) (s.sessionReply m eph k g.keys.id)
      let s := s.begin_ m g
      (s, 0x00, dtl 32 39 (leNat g.keys.id) + dtl 40 40 s.sec.lastTag.toNat)
    | none => ({ s with sec := { s.sec with openFails := satAdd 0xFF s.sec.openFails 1 } }, 0x41, 0)

/-! Plan signatures (R551, R552). -/

/-- Start of the signature entry; a section of any COUNT but 1 counts as absent. -/
def Img.signAt (m : Img) : Option Nat := match m.find scSign 0 with
  | some x => if x.count = 1 then some x.off else none
  | none => none

/-- The image with its signature taken as zero, hashed. -/
def Img.signedDigest (m : Img) (a : Nat) : List Byte := sha384 (memReadList (memClear m.mem (a + 8) (a + 104)) 0 m.len)

/-- Key of 48 B from the owner secret for plans or debug tokens. -/
def Owner.derived (o : Owner) (info : String) : List Byte := hkdf384 [] (bytes256 o.secret) (textBytes info) 48

/-- Check 1 of Table 10-9: the signature verifies under the owner's key or secret, and PLAN_SVN is high enough. -/
def Img.signed (m : Img) (owner : Option Owner) (minSvn : Nat) : Bool :=
  match m.signAt, owner with
  | some a, some o =>
    let sig := m.field (a + 8) (a + 103)
    let ok := match nbits (m.num a 4) 1 0 with
      | 0 => o.pub != 0 && ecdsaVerify (bytes776 o.pub) (m.signedDigest a) sig
      | 1 => o.secret != 0 && hmac384 (o.derived "aq9 plan") (m.signedDigest a) == sig.take 48
      | _ => false
    ok && decide (minSvn ≤ m.num (a + 4) 4)
  | _, _ => false

/-- Section, die and item of a refusal at check 1. -/
def Img.signRefused (m : Img) : Refused :=
  if m.signAt.isSome then ⟨1, 0x42, scSign, 0, 0⟩ else ⟨1, 0x42, scSign, 0, noItem⟩

/-! Debug tokens (R558, R559, Table 18-6). -/

/-- Byte fields of a token. -/
def tkField (t : BitVec 2560) (a b : Nat) : List Byte := leBytes (b + 1 - a) (bitsOf t (8 * b + 7) (8 * a))
def tkRights (t : BitVec 2560) : BitVec 4 := BitVec.ofNat 4 (bitsOf t 35 32)
def tkSigner (t : BitVec 2560) : Nat := bitsOf t 17 16
def tkDuration (t : BitVec 2560) : Nat := bitsOf t (8 * 107 + 7) (8 * 104)

/-- The token's form: version, reserved bits, duration. -/
def tkForm (t : BitVec 2560) : Bool :=
  bitsOf t 15 0 == 1 && bitsOf t 31 18 == 0 && bitsOf t 63 36 == 0 && bitsOf t (8 * 127 + 7) (8 * 108) == 0
    && decide (1 ≤ tkDuration t) && decide (tkDuration t ≤ 10080) && (tkSigner t == 2 || bitsOf t 2559 (8 * 224) == 0)

/-- The token's signatures, over the SHA-384 of bytes 0 to 127. -/
def tkSigned (t : BitVec 2560) (o : Owner) : Bool :=
  let dg := sha384 (tkField t 0 127)
  let byKey := o.pub != 0 && ecdsaVerify (bytes776 o.pub) dg (tkField t 128 223)
  match tkSigner t with
  | 0 => byKey && !bitOf (tkRights t) 3
  | 1 => o.secret != 0 && hmac384 (o.derived "aq9 debug") dg == tkField t 128 175 && !bitOf (tkRights t) 3
  | 2 => byKey && ecdsaVerify Config.bamkarDebugPub dg (tkField t 224 319)
  | _ => false

/-- Every check of a token. -/
def State.tokenOk (s : State) (t : BitVec 2560) : Bool :=
  tkForm t && tkField t 8 55 == s.sec.serial s.primaryIo && decide (s.sec.nonce = some (of384 (tkField t 56 103)))
    && (match s.sec.opened with
        | some o => tkSigned t o
        | none => false)
    && !(decide (4 ≤ (tkRights t).toNat) && decide (s.runState ≠ 0))

/-- DEBUG_TOKEN. -/
def doDebugToken (s : State) (t : BitVec 2560) : State :=
  if !s.pwr.ready then { s with moon := { s.moon with lastOk := false } }
  else
    let ok := s.tokenOk t
    let s := { s with sec := s.sec.consume (of384 (tkField t 56 103)), moon := { s.moon with lastOk := ok } }
    if !ok then { s with sec := { s.sec with openFails := satAdd 0xFF s.sec.openFails 1 } }
    else
      let s := { s with sec := { s.sec with debug := tkRights t, debugUntil := s.dev.poweredMin + tkDuration t } }
      if s.sec.fwDebug then
        let s := s.endSession
        { s with sec := s.sec.lockT2 }
      else s

/-- DEBUG_EXPIRY: DURATION has elapsed. -/
def doDebugExpiry (s : State) : State :=
  if s.sec.debug = 0 then s
  else
    let s := s.mapDev (fun d => { d with poweredMin := max d.poweredMin s.sec.debugUntil })
    { s with sec := { s.sec with debug := 0, debugUntil := 0 }.lockT2 }

end Sys2Proof.Machine
end

