-- ==== Sys2Proof/Machine/PowerOps.lean ====
section
/-! DEFINITION. Power states, start-up and power-down, the pins, the caps and the clocks of the halves, and Umbra (R476, R503,
R504, R542, R543, R561 to R578, R581, R582, R586). -/
namespace Sys2Proof.Machine

/-! Events. -/

/-- An error record of an event for which the spec gives no TYPE and no STATUS: both are free values (R504, R570, R575). -/
def Dev.pushOpen (d : Dev) (io : Nat) : Dev :=
  let a := d.draw
  let b := a.2.draw
  b.2.pushErr (a.1 % 256) (b.1 % 256) (unitOrb io) 0 0 0

def State.updHalf (s : State) (h : Nat) (f : HalfPwr → HalfPwr) : State := { s with pwr := { s.pwr with halves := s.pwr.halves.upd h f } }

/-- Envelope of the class in force. -/
def State.envelope (s : State) : Nat := envelopeOf (classOf s.pwr.coolingId)

/-! Output pins (R581, R582). -/

/-- Outputs are released, so that the board's pulls set their levels. -/
def State.released (s : State) : Bool := s.pwr.state == .unpowered || s.pwr.state == .inReset

def State.readyPin (s : State) : Bool := s.pwr.state == .running && s.pwr.ready
def State.alertN (s : State) : Bool := s.released || s.moon.events == 0

/-- A fault of R479, R503 or R565 is latched. -/
def State.faulted (s : State) : Bool := s.dev.faultN || s.pwr.faultRail || s.pwr.faultKit || s.pwr.faultTrip || s.pwr.faultBoot
def State.faultNPin (s : State) : Bool := s.released || !s.faulted
def State.thermtripN (s : State) : Bool := s.released || !s.pwr.tripLatch
/-- PRSNT_N is tied to ground on the module. -/
def prsntN : Bool := false

/-! Start-up (R563 to R565). -/

/-- INPUT_ON: the input reaches 41 V; no chassis cap has been set, so the envelope is the cap. -/
def doInputOn (s : State) : State :=
  if s.pwr.state ≠ .unpowered then s else { s with pwr := { s.pwr with state := .standby, moonletUp := false, cap := 4095, capNext := none } }

/-- Moonlet samples COOLING_ID and releases the main rails, or refuses them (R565). -/
def State.release (s : State) : State :=
  let s := { s with pwr := { s.pwr with coolingId := s.pwr.coolingNow, faultKit := false, faultTrip := false } }
  if classOf s.pwr.coolingId = 3 then { s with pwr := { s.pwr with state := .standby, faultKit := true } }.event
  else if s.pwr.tripLatch then { s with pwr := { s.pwr with state := .standby, faultTrip := true } }.event
  else if s.pwr.faultBoot || s.pwr.faultRail then { s with pwr := { s.pwr with state := .standby } }.event
  else { s with pwr := { s.pwr with state := .powering, railsOk := true } }

/-- RAIL_RELEASE: Moonlet has booted. -/
def doRailRelease (s : State) : State :=
  if s.pwr.state ≠ .standby then s
  else
    let s := { s with pwr := { s.pwr with moonletUp := true } }
    if !s.pwr.pwrEn then s else s.release

/-- PWR_EN_RISE. -/
def doPwrEnRise (s : State) : State :=
  if s.pwr.pwrEn then s
  else
    let s := { s with pwr := { s.pwr with pwrEn := true } }
    if s.pwr.state = .standby ∧ s.pwr.moonletUp then s.release else s

/-- PRIMARY_CLAIM: each IO die samples its own PRIMARY_SEL; low claims for IOA and high for IOB (R504). -/
def doPrimaryClaim (s : State) (selA selB : Bool) : State :=
  if s.pwr.state ≠ .powering then s
  else
    let a := !selA
    let b := selB
    let dual := a && b
    let none_ := !a && !b
    let set (primary strap : Bool) (g : OrbRegs) : OrbRegs :=
      { g with primary := primary, strap := strap, dualPrimary := dual, noPrimary := none_ }
    let s := (s.updRegs 0 (set (a || none_) selA)).updRegs 1 (set (b && !dual) selB)
    if dual || none_ then s.mapDev (·.pushOpen 0) else s

/-- One image boots from bank A, or else from bank B; none where neither verifies or is recent enough (R542). -/
def FwBanks.boot (b : FwBanks) : Option FwBanks :=
  let ok (l : List Byte) : Option Nat := match Config.imageVersion l with
    | some v => if b.svn ≤ v then some v else none
    | none => none
  match ok b.bankA with
  | some v => some { b with usedB := false, booted := v }
  | none => match ok b.bankB with
    | some v => some { b with usedB := true, booted := v }
    | none => none

/-- Boot the images of a list of keys. -/
def bootAll : List Nat → Bank FwBanks → Option (Bank FwBanks)
  | [], b => some b
  | k :: ks, b => match (b.get k).boot with
    | some x => bootAll ks (b.set k x)
    | none => none

/-- SECURE_BOOT: both images of both IO dies, then the tier-2 keys where an owner record opens (R542, R553). -/
def doSecureBoot (s : State) : State :=
  if s.pwr.state ≠ .powering then s
  else match bootAll [0, 1, 2, 3] s.sec.fw with
    | none =>
      let s := s.railsOff
      { s with pwr := { s.pwr with state := .standby, faultBoot := true } }.event
    | some fw =>
      let fb (io : Nat) : Bool := (fw.get (2 * io)).usedB || (fw.get (2 * io + 1)).usedB
      { s with sec := { s.sec with fw := fw, bootOk := true, bootFallback := ((Bank.const false).set 0 (fb 0)).set 1 (fb 1) }.lockT2 }

/-- A counter is burnt up to the version that booted, at most its 64 fuses (R543). -/
def FwBanks.burn (b : FwBanks) : FwBanks := { b with svn := max b.svn (min 64 b.booted) }

/-- A health record as flash gives it: one whose CRC fails is taken as LEVEL 3 and MARGINED (R476). -/
def HealthRec.load (h : HealthRec) : HealthRec :=
  if h.flashBad then { h with state := 1, level := 3, climb := false }
  else { h with state := h.flashState, level := h.flashLevel, windowCount := h.flashCount, climb := false }

/-- Retired cores and Coma engines stay in reset (R477). -/
def Dev.applyRetired (d : Dev) : Dev :=
  { d with
    cores := (List.range 128).foldl (fun b n => b.upd n (fun c => { c with retired := decide ((d.health.get (unitCore n)).state = 2) })) d.cores
    comas := (List.range 32).foldl (fun b n => b.upd n (fun c => { c with retired := decide ((d.health.get (unitComa n)).state = 2) })) d.comas }

/-- A record whose CRC failed is reported, one event each. -/
def badRecords (b : Bank HealthRec) : Nat := (b.cells.filter (fun c => c.2.flashBad)).length

/-- A cap within 1,200 W and the envelope (R571). -/
def clampCap (envelope w : Nat) : Nat := max 1200 (min envelope w)

/-- POWER_UP_READY: health records are loaded and applied, the ports are UP, links enter TRAINING, raised firmware counters
are burnt, and READY is released high. -/
def doPowerUpReady (s : State) : State :=
  if s.pwr.state ≠ .powering || !s.sec.bootOk then s
  else
    let bad := badRecords s.dev.health
    let s := s.mapDev (fun d => { d with health := d.health.mapVals HealthRec.load }.applyRetired)
    let s := { s with
      fab := { s.fab with links := s.fab.links.mapVals (fun (l : Link) => { l with state := 1 }) }
      hst := { s.hst with ports := s.hst.ports.mapVals (fun (p : Port) => { p with state := 2, lost := false, keyed := true }) }
      sec := { s.sec with fw := s.sec.fw.mapVals FwBanks.burn }
      pwr := { s.pwr with state := .running, ready := true, railFails := 0, cap := clampCap s.envelope s.pwr.cap }
      moon := { s.moon with events := s.moon.events + bad, cpBeat := Bank.const s.dev.time, halfBeat := Bank.const s.dev.time } }
    (s.finishKind5 0).finishKind5 1

/-! Rails off (R503, R564, R566 to R568, R576). -/

/-- The rails fall at once, with no fence. -/
def State.dropRails (s : State) (state : PState) : State :=
  let s := s.railsOff
  { s with pwr := { s.pwr with state := state, cycling := false } }

/-- Main rails are up. -/
def State.railsUp (s : State) : Bool := s.pwr.railsOk

/-- BROWN_OUT: the input is gone; tier 2 loses its retention, and what only the input's removal clears is cleared. -/
def doBrownOut (s : State) : State :=
  if s.pwr.state = .unpowered then s
  else
    let s := s.dropRails .unpowered
    { s with
      dev := { s.dev with faultN := false, ms := { s.dev.ms with mem := memClear s.dev.ms.mem t2Base (t2Base + t2Size), tagged := Bank.const false } }
      pwr := { s.pwr with moonletUp := false, tripLatch := false, faultRail := false, faultKit := false, faultTrip := false, faultBoot := false, railFails := 0 } }

/-- OVERVOLTAGE. -/
def doOvervoltage (s : State) : State := if !s.railsUp then s else s.dropRails .standby

/-- THERMAL_TRIP. -/
def doThermalTrip (s : State) : State :=
  if !s.railsUp then s
  else
    let s := s.dropRails .standby
    { s with pwr := { s.pwr with tripLatch := true } }.event

/-- A waiting command completes. -/
def State.finishWaiting (s : State) (status : Nat) : State :=
  s.hst.waiting.foldl (fun s c => s.finishCmd c status 0) { s with hst := { s.hst with waiting := [] } }

/-- Commands in flight: those that wait, RESET_DOMAIN commands under way, and a START_ORBITS. -/
def State.finishAll (s : State) (status : Nat) : State :=
  let s := s.recs.foldl (fun s r => (r.waiters ++ r.escalated).foldl (fun s w => s.finishReset status r.kind r.index 0 w) s) s
  (s.endStart status).finishWaiting status

/-- POWER_DOWN: PWR_EN has stayed low for 1 ms (R567). -/
def doPowerDown (s : State) : State :=
  let s := { s with pwr := { s.pwr with pwrEn := false, tripLatch := false, faultTrip := false } }
  if !s.railsUp && s.pwr.state ≠ .inReset then s
  else
    let s := { s with pwr := { s.pwr with ready := false } }.finishAll 0x30
    let s := [0, 1].foldl (fun s p => if (s.port p).state = 2 then deliverHeld 4096 p s else s) s
    let s := s.mapDev doHealthFlush
    s.dropRails .standby

/-- RESET_IN_N: low starts a module reset and holds it. -/
def doResetInN (s : State) : State :=
  let s := { s with pwr := { s.pwr with resetInN := false } }
  match s.pwr.state with
  | .running => s.recover 5 0 5 0xFFFF stReset [] []
  | .powering => s.startCycle
  | _ => s

/-- RESET_IN_N_RISE. -/
def doResetInNRise (s : State) : State := { s with pwr := { s.pwr with resetInN := true } }

/-- RAIL_CYCLE_DONE: the 60 ms hold of a module reset is over, or a cycle has ended without READY. After two cycles in a row
that did not reach READY the rails stay off. -/
def doRailCycleDone (s : State) : State :=
  if !s.pwr.resetInN then s
  else if s.pwr.state = .inReset ∧ s.pwr.cycling then
    { s with pwr := { s.pwr with cycling := false, railFails := 1 } }.release
  else if s.pwr.state = .powering ∧ 1 ≤ s.pwr.railFails then
    let s := s.railsOff
    if 2 ≤ s.pwr.railFails then { s with pwr := { s.pwr with state := .standby, faultRail := true } }.event
    else { s with pwr := { s.pwr with railFails := s.pwr.railFails + 1 } }.release
  else s

/-- COOLING_ID_CHANGE: the lines change; while the rails are up this sets KIT_CHANGED and changes nothing else (R570). -/
def doCoolingIdChange (s : State) (code : BitVec 3) : State :=
  if code = s.pwr.coolingNow then s
  else
    let s := { s with pwr := { s.pwr with coolingNow := code } }
    if !s.railsUp then s
    else
      let set (p : HalfPwr) : HalfPwr := { p with kitChanged := true, kitChanges := satAdd 0xFF p.kitChanges 1 }
      ((s.updHalf 0 set).updHalf 1 set).mapDev (·.pushOpen s.primaryIo)

/-! Caps (R571, R574, R575). -/

/-- The chassis cap as commanded: the one in force, or the one that waits for the next start slot. -/
def State.capSet (s : State) : Nat := s.pwr.capNext.getD s.pwr.cap

/-- CAP_BELOW_PLAN follows the chassis cap and the installed plan's CLASS; setting it raises one error record (R575). -/
def State.judgeCap (s : State) : State :=
  let below := s.dev.plan.installed && decide (s.capSet < envelopeOf s.dev.plan.cls)
  let s' := { s with pwr := { s.pwr with capBelowPlan := below } }
  if below && !s.pwr.capBelowPlan then s'.mapDev (·.pushOpen s.primaryIo) else s'

/-- SET_CAP: at the next start slot while orbits run or are armed, at once otherwise. -/
def doSetCap (s : State) (w : Nat) : State :=
  if !s.pwr.ready then { s with moon := { s.moon with lastOk := false } }
  else
    let c := clampCap s.envelope w
    let s := if s.runState ≠ 0 then { s with pwr := { s.pwr with capNext := some c } } else { s with pwr := { s.pwr with cap := c, capNext := none } }
    { s with moon := { s.moon with lastOk := true } }.judgeCap

/-- EMERGENCY_CAP: at once in every case. -/
def doEmergencyCap (s : State) (w : Nat) : State :=
  if !s.pwr.ready then { s with moon := { s.moon with lastOk := false } }
  else { s with pwr := { s.pwr with cap := clampCap s.envelope w, capNext := none }, moon := { s.moon with lastOk := true } }.judgeCap

/-- The module's cap. -/
def State.moduleCap (s : State) : Nat := min s.pwr.cap s.envelope

/-- North's share of a cap, at least 40 % to each half; with no draw at all the proportion is open, and the share free. -/
def shareOf (cap drawN drawS free : Nat) : Nat :=
  let lo := (4 * cap + 9) / 10
  if drawN + drawS = 0 then lo + free % (cap - 2 * lo + 1) else max lo (min (cap - lo) (cap * drawN / (drawN + drawS)))

/-- BUDGET_DIVIDE: every 1 ms the primary half divides the cap; separated halves keep half of it each (R571). -/
def doBudgetDivide (s : State) (drawN drawS : Nat) : State :=
  if !s.pwr.ready then s
  else
    let c := s.moduleCap
    let sep := (s.fab.regs.get 0).separated
    let n := if sep then c / 2 else shareOf c drawN drawS s.dev.draw.1
    let s := if !sep && drawN + drawS == 0 then { s with dev := s.dev.draw.2 } else s
    let s := (s.updHalf 0 (fun p => { p with budget := n, draw := drawN })).updHalf 1 (fun p =>
      { p with budget := if sep then n else c - n, draw := drawS })
    { s with pwr := { s.pwr with pinW := drawN + drawS } }

/-! The power controller (R572, R573, R576). -/

/-- Steps below 1,000 MHz and 100 %: 24 of 25 MHz, then 15 of 5 %. -/
def powerLevel (p : HalfPwr) : Nat := (1000 - p.clock) / 25 + (100 - p.duty) / 5
def levelClock (n : Nat) : Nat := 1000 - 25 * min n 24
def levelDuty (n : Nat) : Nat := 100 - 5 * (n - 24)

/-- Steps that the budget asks for, lowering counted positive. -/
def budgetSteps (budget draw : Nat) : Int :=
  if budget * 11 < draw * 10 then 4
  else if budget < draw then 1
  else if draw * 100 < budget * 97 then -1
  else 0

/-- Sensor kinds at or above their throttle limit: compute dies, IO die, HBM, tier 2 (Table 19-4). -/
def atLimit (t : Temps) : BitVec 4 :=
  BitVec.ofNat 4 (flag 0 (decide (95 ≤ max t.cda t.cdb)) + flag 1 (decide (95 ≤ t.io)) + flag 2 (decide (95 ≤ t.hbm)) + flag 3 (decide (85 ≤ t.t2)))

/-- Kinds whose every sensor lies 3 degrees C below the limit. -/
def coolAgain (t : Temps) : BitVec 4 :=
  BitVec.ofNat 4 (flag 0 (decide (max t.cda t.cdb ≤ 92)) + flag 1 (decide (t.io ≤ 92)) + flag 2 (decide (t.hbm ≤ 92)) + flag 3 (decide (t.t2 ≤ 82)))

/-- One action of a controller: the lower clock of budget and temperature applies; a tier-2 throttle lowers no clock. -/
def powerStep (p : HalfPwr) (drawW : Nat) (t : Temps) : HalfPwr :=
  let now := atLimit t
  let hot := (p.hot ||| now) &&& ~~~(coolAgain t)
  let b := budgetSteps p.budget drawW
  let h : Int := if now &&& 7 ≠ 0 then 1 else if hot &&& 7 ≠ 0 then 0 else -1
  let n := min 39 ((powerLevel p : Int) + max b h).toNat
  let clock := levelClock n
  let power := decide (clock < 1000) && (decide (0 < b) || p.powerLimit)
  let thermal := hot != 0
  let entries := (if power && !p.powerLimit then 1 else 0) + (if thermal && !p.thermalLimit then 1 else 0)
  { p with
    clock := clock, duty := levelDuty n, hot := hot, temps := t, powerLimit := power, thermalLimit := thermal
    limitEntries := satAdd 0xFFFF p.limitEntries entries }

/-- The input meter's reading and the largest mean of 100 µs since module reset (PWR_INPUT). -/
def Pwr.metered (p : Pwr) (m : MeterIn) : Pwr :=
  { p with vinMv := m.vinMv.toNat, iin10ma := m.iin10ma.toNat, peakW := max p.peakW m.meanW.toNat }

/-- POWER_CONTROL_TICK. -/
def doPowerControlTick (s : State) (h drawW : Nat) (t : Temps) (m : MeterIn) : State :=
  if !s.pwr.ready then s
  else
    let s := s.updHalf h (fun p => powerStep p drawW t)
    { s with pwr := s.pwr.metered m }

/-! Umbra (R577, R578, Tables 19-5 and 19-6). -/

/-- A link that is gated off: DOWN, with its counters. -/
def Link.gated (l : Link) : Link :=
  { Link.init with
    state := 0, symbols := l.symbols, codewords := l.codewords, uncorr := l.uncorr, retries := l.retries, retryFails := l.retryFails
    tagFails := l.tagFails, markerLosses := l.markerLosses, fenced := l.fenced }

/-- A core that has lost what Umbra does not keep. -/
def Core.gated (c : Core) : Core := { c.idle with active := WeightSet.blank, shadow := WeightSet.blank }

/-- What Umbra loses: scratchpad contents, weight sets, merge bindings, link keys and states, the time state. -/
def State.gate (s : State) : State :=
  { s with
    dev := { s.dev with
      ms := { s.dev.ms with mem := memClear s.dev.ms.mem 0 (2 ^ 32), flip1 := s.dev.ms.flip1.clear 0 (2 ^ 32), flip2 := s.dev.ms.flip2.clear 0 (2 ^ 32) }
      cores := s.dev.cores.mapVals Core.gated, comas := s.dev.comas.mapVals Coma.idle }
    fab := { s.fab with links := s.fab.links.mapVals Link.gated, xfers := [], tb := TimeBase.none } }

/-- Umbra is entered, from RUNNING (R577). -/
def State.enterUmbra (s : State) : State :=
  if s.pwr.state ≠ .running then s
  else
    let up (p : HalfPwr) : HalfPwr := { p with umbraEntries := satAdd 0xFF p.umbraEntries 1 }
    let s := (s.gate.updHalf 0 up).updHalf 1 up
    { s with pwr := { s.pwr with umbra := true, ready := false, saved := true } }

/-- 20 ms. -/
def wakeT : Nat := 20000 * usT

/-- The module wakes and is READY 20 ms later: the instruction memories are checked, scratchpads are zero, links enter
TRAINING, and a wake counts as a plan load for job time (R578). -/
def State.wake (s : State) : State :=
  if !s.pwr.umbra || s.pwr.state != .running then s
  else
    let s := s.advanceTo (s.dev.time + wakeT)
    let s := s.mapDev (fun d => (List.range 128).foldl Dev.checkImem d)
    let tb := if s.dev.plan.installed && s.isRoot then { TimeBase.none with state := 2, locked := true } else TimeBase.none
    { s with
      fab := { s.fab with links := s.fab.links.mapVals (fun (l : Link) => { l with state := 1 }), tb := tb }
      pwr := { s.pwr with umbra := false, ready := true, saved := false } }

/-- WAKE through Moonlet. -/
def doWake (s : State) : State :=
  let t := s.wake
  { t with moon := { t.moon with lastOk := s.pwr.umbra && s.pwr.state == .running } }

end Sys2Proof.Machine
end

