-- ==== Sys2Proof/Machine/HostOps.lean ====
section
/-! DEFINITION. Host commands: how they wait and are checked, and what each does (R205, R227, R235, R415, R505, R506, R509, R518,
R520 to R531, R547). -/
namespace Sys2Proof.Machine

/-! Entries (R520, Table 17-1). -/

/-- Bytes a to b of an entry. -/
def eb (e : Entry64) (a b : Nat) : Nat := bitsOf e (8 * b + 7) (8 * a)

def eOp (e : Entry64) : Nat := eb e 0 0
def opOpen : Nat := 0x01
def opLoad : Nat := 0x10
def opStart : Nat := 0x11
def opStep : Nat := 0x12
def opMem : Nat := 0x20
def opQuery : Nat := 0x30
def opReset : Nat := 0x40
def opEnter : Nat := 0x50
def opLeave : Nat := 0x51

def hostOps : List Nat := [opOpen, opLoad, opStart, opStep, opMem, opQuery, opReset, opEnter, opLeave]

/-- Parameters. -/
def eAddr (e : Entry64) : Nat := eb e 8 15
def eLen32 (e : Entry64) : Nat := eb e 16 19
def eLen64 (e : Entry64) : Nat := eb e 16 23
def eModule (e : Entry64) : Nat := bitsOf e 202 192
def eSlot (e : Entry64) : Nat := eb e 8 15
def eCount (e : Entry64) : Nat := eb e 16 19
def eValue (e : Entry64) : W32 := BitVec.ofNat 32 (eb e 8 11)
def eOffset (e : Entry64) : Nat := eb e 16 23
def eLength (e : Entry64) : Nat := eb e 24 31
def eSegment (e : Entry64) : Nat := bitsOf e 267 256
def eRead (e : Entry64) : Bool := bitOf e 272
def eConvert (e : Entry64) : Bool := bitOf e 273
def eFormat (e : Entry64) : Nat := bitsOf e 279 276
def eScaleSeg (e : Entry64) : Nat := bitsOf e 299 288
def eScaleOff (e : Entry64) : Nat := eb e 40 47
def eItem (e : Entry64) : Nat := eb e 8 8
def eIndex (e : Entry64) : Nat := eb e 12 15
def eReply (e : Entry64) : Nat := eb e 16 23
def eReplyLen (e : Entry64) : Nat := eb e 24 27
def eKind (e : Entry64) : Nat := bitsOf e 67 64
def eDomain (e : Entry64) : Nat := bitsOf e 91 80

/-- Bit ranges that a command uses beside its OPCODE and TAG. -/
def eUsed (op : Nat) : List (Nat × Nat) :=
  match op with
  | 0x01 => [(127, 64), (159, 128)]
  | 0x10 => [(127, 64), (191, 128), (202, 192)]
  | 0x11 => [(127, 64), (159, 128)]
  | 0x12 => [(95, 64)]
  | 0x20 => [(127, 64), (191, 128), (255, 192), (267, 256), (273, 272), (279, 276), (299, 288), (383, 320)]
  | 0x30 => [(71, 64), (127, 96), (191, 128), (223, 192)]
  | 0x40 => [(67, 64), (91, 80)]
  | _ => []

/-- No reserved bit of bytes 0 to 47 is set. -/
def eReservedZero (e : Entry64) : Bool :=
  (((7, 0) :: (63, 32) :: eUsed (eOp e)).foldl (fun x r => setBits x r.1 r.2 0) e).toNat % 2 ^ 384 == 0

/-- Unit IDs that exist (Table 15-1). -/
def unitExists (u : Nat) : Bool :=
  match u / 4096 with
  | 0 => decide (u % 4096 < 128)
  | 1 => decide (u % 4096 < 32)
  | 2 => decide (u % 4096 < 16)
  | 3 => decide (u % 4096 < 2)
  | 4 => decide (u % 4096 < 2)
  | 5 => decide (u % 4096 < 4)
  | 6 => decide (u % 4096 < 12)
  | 7 => decide (u % 4096 < 4)
  | 8 => decide (u % 4096 < 48)
  | _ => false

/-- Domains of a kind (Table 16-1). -/
def domCount (kind : Nat) : Nat :=
  match kind with
  | 0 => 128
  | 1 => 32
  | 2 => 16
  | 3 => 48
  | 4 => 2
  | 5 => 1
  | _ => 0

/-- Parameters are in their ranges (R521, R523, R526 to R529, R545, Table 17-2). -/
def eInRange (e : Entry64) : Bool :=
  match eOp e with
  | 0x01 => decide (384 ≤ eLen32 e) && decide (eLen32 e ≤ 4096)
  | 0x11 => decide (1 ≤ eCount e)
  | 0x20 => decide (1 ≤ eLength e) && decide (eLength e ≤ 2 ^ 40)
      && (!eConvert e || (decide (3 ≤ eFormat e) && decide (eFormat e ≤ 9) && eOffset e % 32 == 0 && eLength e % 32 == 0
        && (!isSubByte (eFormat e) || eOffset e % 1024 == 0)))
  | 0x30 => match eItem e with
      | 0x00 => eIndex e == 0
      | 0x01 => eIndex e == 0
      | 0x10 => eIndex e == 0
      | 0x11 => eIndex e % 4 == 0 && decide (4 ≤ eReplyLen e) && decide (eReplyLen e ≤ 4096) && eReplyLen e % 4 == 0
      | 0x12 => unitExists (eIndex e)
      | 0x13 => eReplyLen e % 64 == 0
      | _ => false
  | 0x40 => decide (eDomain e < domCount (eKind e))
  | _ => hostOps.contains (eOp e)

/-- A command that the module takes whatever its state: QUERY, LEAVE_UMBRA and a RESET_DOMAIN of kind 5 (R530). -/
def eAlways (e : Entry64) : Bool := eOp e == opQuery || eOp e == opLeave || (eOp e == opReset && eKind e == 5)

/-- Commands that run while no session is open (R521). -/
def eExempt (e : Entry64) : Bool := eOp e == opOpen || (eOp e == opQuery && decide (eItem e ≤ 1))

/-! The checks (R505, R506, R521, R530, R550). -/

/-- MAC of a command: key of its queue, CMD_NUMBER, entry (R550). -/
def Session.mac (x : Session) (k n : Nat) (e : Entry64) : List Byte :=
  (hmac384 (bytes384 x.kCmd) (leBytes 8 x.id.toNat ++ leBytes 1 k ++ leBytes 8 n ++ leBytes 48 e.toNat)).take 16

def macOf (e : Entry64) : List Byte := leBytes 16 (eb e 48 63)

def WaitCmd.key (c : WaitCmd) : Nat := qKey c.port c.queue

/-- The halves are separated. -/
def State.separated (s : State) : Bool := (s.fab.regs.get s.primaryIo).separated

/-- A fenced primary half, or separation, refuses a command. -/
def State.hostFenced (s : State) (e : Entry64) : Bool :=
  if s.separated then !(eOp e == opQuery || (eOp e == opReset && eKind e == 5))
  else s.fencedDom 4 s.primaryIo && !(eOp e == opQuery || eOp e == opReset)

/-- R521 in order: a session, the MAC with the queue's CMD_NUMBER, the entry's form. -/
def State.authorise (s : State) (c : WaitCmd) : State × Option Nat :=
  let form : Option Nat := if eReservedZero c.entry && eInRange c.entry then none else some 0x11
  match s.sec.session with
  | none => (s, if eExempt c.entry then form else some 0x40)
  | some x =>
    let n := x.cmdNumber.get c.key
    let s := { s with sec := { s.sec with session := some { x with cmdNumber := x.cmdNumber.set c.key (n + 1) } } }
    if x.mac c.key n c.entry == macOf c.entry then (s, form)
    else ({ s with sec := { s.sec with macFails := satAdd 0xFFFF s.sec.macFails 1 } }, some 0x41)

/-- Every check of a command that starts, or that has waited since it started: the status that refuses it. -/
def State.gateCheck (s : State) (c : WaitCmd) : State × Option Nat :=
  if s.hostFenced c.entry then (s, some 0x30)
  else
    let x := if c.checked then (s, if s.sec.session.isNone && !eExempt c.entry then some 0x40 else none) else s.authorise c
    match x.2 with
    | some st => (x.1, some st)
    | none => (x.1, if s.pwr.umbra && !eAlways c.entry then some 0x30 else none)

/-! Waiting (R205, R235, R518, R522, R530, R547). -/

/-- A RESET_DOMAIN of a queue is under way. -/
def State.resetPending (s : State) (k : Nat) : Bool := s.recs.any (fun r => (r.waiters ++ r.escalated).any (fun w => w.1 == k))

/-- A command has not started: an earlier one of its queue is not done, an OPEN_SESSION fetched before it has not completed,
or ENTER_UMBRA has started. `before`: the commands that were fetched earlier and are not done. -/
def State.blocked (s : State) (before : List WaitCmd) (c : WaitCmd) : Bool :=
  before.any (fun b => b.key == c.key || eOp b.entry == opOpen || (b.checked && eOp b.entry == opEnter && !eAlways c.entry))
    || s.resetPending c.key

/-- A segment that host transfers may use while orbits run. -/
def State.sharedMem (s : State) (e : Entry64) : Bool :=
  segShared (s.dev.segs.get (eSegment e)) && (!eConvert e || segShared (s.dev.segs.get (eScaleSeg e)))

/-- A command that has started and passed its checks waits. -/
def State.mustWait (s : State) (before : List WaitCmd) (c : WaitCmd) : Bool :=
  let e := c.entry
  let loading := before.any (fun b => b.checked && eOp b.entry == opLoad)
  match eOp e with
  | 0x01 => s.fab.start.isNone && (before.any (fun b => eOp b.entry != opQuery) || s.recs.any (fun r => !(r.waiters ++ r.escalated).isEmpty))
  | 0x10 => s.fab.start.isSome
  | 0x11 => loading
  | 0x12 => loading
  | 0x20 => (loading && !eRead e) || (s.runState == 2 && !s.sharedMem e)
  | 0x50 => s.fab.start.isNone && before.any (fun b => b.checked && (eOp b.entry == opLoad || eOp b.entry == opMem || eOp b.entry == opOpen))
  | _ => false

/-! OPEN_SESSION (R545 to R548). -/

def State.runOpen (s : State) (c : WaitCmd) : State :=
  if s.fab.start.isSome then s.finishCmd c 0x30 0
  else
    let x := s.openMessage (eAddr c.entry) (eLen32 c.entry)
    x.1.finishCmd c x.2.1 x.2.2

/-! LOAD_PLAN (R205, R331, R334 to R336, R522). -/

/-- The verdict on an image: check 1, then checks 2 to 15. -/
def State.verdict (s : State) (m : Img) (module : Nat) : Option Refused :=
  let min := match s.sec.session with
    | some x => x.minPlanSvn
    | none => 0
  if !m.signed s.sec.opened min then some m.signRefused else m.refusal s.dev module s.envelope

/-- ORB_PLAN_VERIFY and the detail bytes of an outcome. -/
def State.noteVerify (s : State) (r : Refused) : State :=
  { s with hst := { s.hst with check := r.check, verStatus := r.status, section_ := r.sect, die := r.die, item := r.item } }

def verifyDetail (r : Refused) (digest : Nat) : Nat :=
  dtl 32 32 r.check + dtl 33 33 r.sect + dtl 34 34 (r.die % 4) + dtl 36 39 (r.item % 2 ^ 24) + dtl 40 47 digest

def State.runLoad (s : State) (c : WaitCmd) : State :=
  let m := s.image (eAddr c.entry) (eLen64 c.entry)
  match s.verdict m (eModule c.entry) with
  | some r =>
    let s := if r.check = 1 then { s with sec := { s.sec with sigFails := satAdd 0xFF s.sec.sigFails 1 } } else s
    (s.noteVerify r).finishCmd c r.status.toNat (verifyDetail r 0)
  | none =>
    let ok : Refused := ⟨0, 0x00, 0, 0, 0⟩
    (((s.install m (eModule c.entry)).noteVerify ok).judgeCap).finishCmd c 0x00 (verifyDetail ok (m.digest.toNat % 2 ^ 64))

/-! START_ORBITS (R415, R523). -/

/-- The status that refuses a START_ORBITS. -/
def State.startRefused (s : State) (slot : Nat) : Option Nat :=
  let links := s.usedLinks 0 ++ s.usedLinks 1
  if !s.dev.plan.installed then some 0x13
  else if s.fab.start.isSome then some 0x23
  else if slot * s.orbitTicks * tickT < s.dev.time + 100 * usT then some 0x23
  else if s.fab.tb.state ≠ 2 then some 0x23
  else if links.any (fun l => (s.link l).state != 2 || (s.link l).keys.isNone) then some 0x23
  else if links.any (fun l => !s.peerOk l) then some 0x13
  else s.barred

def State.runStart (s : State) (c : WaitCmd) : State :=
  match s.startRefused (eSlot c.entry) with
  | some st => s.finishCmd c st (startDetail 0)
  | none =>
    { s with fab := { s.fab with start := some ⟨c.port, c.queue, c.handle, eSlot c.entry, eCount c.entry, 0, 0, false⟩ } }

/-! WRITE_STEP_SIZE (R525). -/

/-- NEXT_SLOT: the first start slot later than the present. -/
def State.nextSlot (s : State) : Nat := s.dev.time / (s.orbitTicks * tickT) + 1

def State.runStep (s : State) (c : WaitCmd) : State :=
  let v := eValue c.entry
  if !finite32 v then s.finishCmd c 0x11 0
  else if !s.dev.plan.installed then s.finishCmd c 0x13 0
  else
    let s := { s with
      hst := { s.hst with gen := s.hst.gen + 1 }
      dev := { s.dev with stepWrites := s.dev.stepWrites ++ [(s.dev.time, v)] } }
    s.finishCmd c 0x00 (dtl 32 35 v.toNat + dtl 36 43 s.nextSlot + dtl 44 45 s.hst.gen.toNat)

/-! MEM_TRANSFER (R227, R235, R526, R527). -/

/-- A segment's elements from index 0 on, in the native layout. -/
def plainView (seg fmt : Nat) : View :=
  { seg := seg, offset := 0, fmt := fmt, layout := 0, rank := 1, swz := 0, stoch := false, zeroPad := true, wr := true, trec := 0x7FF, dims := [] }

/-- Runs of segment bytes that a transfer moves: segment, first byte, length. -/
def memRuns (e : Entry64) : List (Nat × Int × Nat) :=
  if eConvert e then
    let v := plainView (eSegment e) (eFormat e)
    let a := (elemSpan v (eOffset e)).1
    let b := (elemSpan v (eOffset e + eLength e - 1)).2
    [(eSegment e, (a : Nat), b + 1 - a), (eScaleSeg e, ((eScaleOff e : Nat) : Int), eLength e / 32)]
  else [(eSegment e, ((eOffset e : Nat) : Int), eLength e)]

/-- Bytes moved. -/
def memBytes (e : Entry64) : Nat := if eConvert e then recordSize (eFormat e) * (eLength e / 32) else eLength e

/-- Module addresses that a transfer touches. -/
def memAddrs (d : Dev) (e : Entry64) : List Nat :=
  if eConvert e then
    ((List.range (eLength e)).flatMap (fun i => elemAddrs d 0 (plainView (eSegment e) (eFormat e)) (eOffset e + i)))
      ++ (List.range (eLength e / 32)).map (fun j => segAddr d 0 0 (eScaleSeg e) (eScaleOff e + j))
  else (List.range (eLength e)).map (fun i => segAddr d 0 0 (eSegment e) (eOffset e + i))

/-- Element i of record j in host memory, and the record's bytes from its elements and scale (Table 2-2). -/
def recordElem (mem : Mem) (a w i : Nat) : Nat := memRead mem (a + 1) (4 * w) / 2 ^ (w * i) % 2 ^ w
def recordBytes (w : Nat) (scale : Byte) (elems : List Nat) : List Byte :=
  scale :: leBytes (4 * w) (elems.foldr (fun x acc => x % 2 ^ w + 2 ^ w * acc) 0)

/-- What a write stores. -/
def memItems (d : Dev) (e : Entry64) : List WItem :=
  let h := hostBase + eAddr e
  let m := d.ms.mem
  if eConvert e then
    let v := plainView (eSegment e) (eFormat e)
    let w := fmtBits (eFormat e)
    let rs := recordSize (eFormat e)
    ((List.range (eLength e)).flatMap (fun i => storeElem d 0 v (eOffset e + i) (recordElem m (h + rs * (i / 32)) w (i % 32))))
      ++ (List.range (eLength e / 32)).map (fun j => ⟨segAddr d 0 0 (eScaleSeg e) (eScaleOff e + j), 0xFF, memGet m (h + rs * j)⟩)
  else (List.range (eLength e)).map (fun i => ⟨segAddr d 0 0 (eSegment e) (eOffset e + i), 0xFF, memGet m (h + i)⟩)

/-- What a read returns. -/
def memReply (d : Dev) (e : Entry64) : List Byte :=
  if eConvert e then
    let v := plainView (eSegment e) (eFormat e)
    (List.range (eLength e / 32)).flatMap (fun j =>
      recordBytes (fmtBits (eFormat e)) (memGet d.ms.mem (segAddr d 0 0 (eScaleSeg e) (eScaleOff e + j)))
        ((List.range 32).map (fun i => loadElem d 0 v (eOffset e + 32 * j + i))))
  else (memAddrs d e).map (memGet d.ms.mem)

/-- Marked granules among those that a list of addresses touches. -/
def MemSys.markedCount (ms : MemSys) (addrs : List Nat) : Nat := ((granulesOf addrs).eraseDups.filter (fun g => ms.poison.get g)).length

/-- The checks of Table 9-11 on every byte. -/
def State.memFault (s : State) (c : WaitCmd) : Option (Nat × Nat × Int) :=
  checkRuns s.dev (.host c.port) (eRead c.entry) (!eRead c.entry) (memRuns c.entry)

/-- A write: while orbits run, the next orbit sees it first. -/
def State.runMemWrite (s : State) (c : WaitCmd) : State :=
  let items := memItems s.dev c.entry
  let s := if s.runState = 2 then { s with hst := { s.hst with deferred := s.hst.deferred ++ items } } else s.mapDev (·.write items false)
  s.finishCmd c 0x00 (dtl 32 39 (memBytes c.entry))

/-- A read sees every write that has completed, and counts the marked granules it touches. -/
def State.runMemRead (s : State) (c : WaitCmd) : State :=
  let addrs := memAddrs s.dev c.entry
  let d := (s.dev.touch addrs).1
  let ms := d.ms.write s.hst.deferred false
  let reply := memReply { d with ms := ms } c.entry
  ({ s with dev := d }.hostWrite (eAddr c.entry) reply).finishCmd c 0x00
    (dtl 32 39 (memBytes c.entry) + dtl 40 43 (min 0xFFFFFFFF (ms.markedCount addrs)))

def State.runMem (s : State) (c : WaitCmd) : State :=
  match s.memFault c with
  | some f => (s.mapDev (·.segFault (.host c.port) f.1 f.2.1 f.2.2)).finishCmd c 0x16 (dtl 44 44 f.2.1 + dtl 48 55 (f.2.2 % 2 ^ 64).toNat)
  | none => if eRead c.entry then s.runMemRead c else s.runMemWrite c

/-! QUERY (R528, Table 17-2). -/

/-- A START_ORBITS would be refused by a restriction of R523. -/
def State.restricted (s : State) : Bool := s.barred.isSome || s.fab.tb.state == 4

/-- The STATE item, 128 B; the armed start slot is open where none is armed. -/
def State.stateReply (s : State) : List Byte :=
  let armed := match s.fab.start with
    | some c => if c.begun = 0 then c.slot else Config.freeNat s.dev.free
    | none => Config.freeNat s.dev.free
  leBytes 8 s.dev.time ++ leBytes 8 s.fab.orbit ++ bytes384 s.dev.plan.digest
    ++ [BitVec.ofNat 8 (flag 0 s.pwr.ready + flag 1 s.dev.plan.installed + flag 2 s.sec.session.isSome + flag 3 s.pwr.umbra
          + flag 4 s.separated + flag 5 s.restricted),
        BitVec.ofNat 8 (s.runState + 4 * s.fab.tb.state)]
    ++ leBytes 2 s.dev.retiredCount ++ leBytes 4 s.orbitTicks ++ leBytes 8 armed ++ List.replicate 48 0

/-- Health record of a unit, 32 B with its CRC (Table 15-4). -/
def HealthRec.bytes (h : HealthRec) (u : Nat) : List Byte :=
  let b := leBytes 2 u ++ [BitVec.ofNat 8 (16 * h.state + h.level), BitVec.ofNat 8 h.windowCount] ++ leBytes 4 h.windowStart ++ leBytes 4 h.transients
    ++ leBytes 4 h.persistents ++ leBytes 4 h.lastEvent ++ leBytes 4 h.lastChange ++ leBytes 2 h.memCount ++ leBytes 2 0
  b ++ leBytes 4 (crc32 b).toNat

/-- Error record, 64 B with its CRC (Table 15-8). -/
def ErrRec.bytes (r : ErrRec) : List Byte :=
  let b := leBytes 1 r.type ++ leBytes 1 r.status ++ leBytes 2 r.unit ++ leBytes 1 (16 * r.kind + 4 * (r.state % 4) + r.level % 4) ++ leBytes 3 0
    ++ leBytes 8 r.jobTime ++ leBytes 4 r.orbit ++ leBytes 4 r.sequence ++ leBytes 4 r.where_ ++ leBytes 4 r.residue ++ leBytes 4 r.poweredMin
    ++ leBytes 2 r.dropped ++ leBytes 22 0
  b ++ leBytes 4 (crc32 b).toNat

/-- Error records in flash from the first of a SEQUENCE on. -/
def State.errorsFrom (s : State) (seq : Nat) : List Byte := (s.moon.errors.dropWhile (fun r => r.sequence != seq)).flatMap ErrRec.bytes

/-- The reply to a QUERY, whole, and the state after it. -/
def State.reply (s : State) (e : Entry64) : List Byte × State :=
  match eItem e with
  | 0x00 => let x := s.drawNonce; (x.1.sec.identity s.primaryIo x.2, x.1)
  | 0x01 => s.spdm (memReadList s.dev.ms.mem (hostBase + eReply e) (eReplyLen e))
  | 0x10 => (s.stateReply, s)
  | 0x11 => ((List.range (eReplyLen e / 4)).flatMap (fun i => leBytes 4 (s.readWindow (eIndex e + 4 * i))), s)
  | 0x12 => ((s.dev.health.get (eIndex e)).bytes (eIndex e), s)
  | _ => (s.errorsFrom (eIndex e), s)

def State.runQuery (s : State) (c : WaitCmd) : State :=
  let x := s.reply c.entry
  let b := x.1.take (eReplyLen c.entry)
  (x.2.hostWrite (eReply c.entry) b).finishCmd c 0x00 (dtl 32 35 b.length)

/-! RESET_DOMAIN (R509, R529). -/

/-- Kind 5: the adapter holds the handle, and no record comes from the module. -/
def State.runReset (s : State) (c : WaitCmd) : State :=
  s.recover (eKind c.entry) (eDomain c.entry) 1 0xFFFF stReset (if eKind c.entry = 5 then [] else [(c.key, c.handle)]) []

/-! Umbra (R530, R577, R578). -/

def State.runEnter (s : State) (c : WaitCmd) : State :=
  if s.fab.start.isSome then s.finishCmd c 0x30 0 else s.enterUmbra.finishCmd c 0x00 0

def State.runLeave (s : State) (c : WaitCmd) : State := s.wake.finishCmd c 0x00 0

/-! Running and releasing. -/

/-- A command whose checks have passed and that waits for nothing. -/
def State.runCmd (s : State) (c : WaitCmd) : State :=
  match eOp c.entry with
  | 0x01 => s.runOpen c
  | 0x10 => s.runLoad c
  | 0x11 => s.runStart c
  | 0x12 => s.runStep c
  | 0x20 => s.runMem c
  | 0x30 => s.runQuery c
  | 0x40 => s.runReset c
  | 0x50 => s.runEnter c
  | _ => s.runLeave c

/-- A fetched command: it completes or starts running, or it is given back because it waits. -/
def State.attempt (s : State) (before : List WaitCmd) (c : WaitCmd) : State × Option WaitCmd :=
  if s.blocked before c then (s, some c)
  else
    let x := s.gateCheck c
    match x.2 with
    | some st => (x.1.finishCmd c st 0, none)
    | none =>
      let c := { c with checked := true }
      if x.1.mustWait before c then (x.1, some c) else (x.1.runCmd c, none)

/-- One pass over the waiting commands in the order they were fetched. -/
def releasePass : List WaitCmd → List WaitCmd → State → State × List WaitCmd
  | before, [], s => (s, before)
  | before, c :: r, s =>
    let x := s.attempt before c
    match x.2 with
    | some c => releasePass (before ++ [c]) r x.1
    | none => releasePass before r x.1

/-- Passes until nothing more can run. -/
def releaseLoop : Nat → State → State
  | 0, s => s
  | n + 1, s =>
    let x := releasePass [] s.hst.waiting s
    releaseLoop n { x.1 with hst := { x.1.hst with waiting := x.2 } }

/-- Commands whose reason to wait is over run. -/
def State.releaseWaiting (s : State) : State := releaseLoop (s.hst.waiting.length + 1) s

/-- The handle of a command: its port, its queue and its number (R517). -/
def cmdHandle (port queue : Nat) (handle : W32) : W32 := BitVec.ofNat 32 (2 ^ 31 * port + 2 ^ 30 * queue + handle.toNat % 2 ^ 30)

/-- A host command arrives over a port that is UP. -/
def doHostCmd (s : State) (port queue : Nat) (handle : W32) (e : Entry64) : State :=
  if (s.port port).state ≠ 2 then s
  else
    let c : WaitCmd := ⟨port, queue, cmdHandle port queue handle, e, false⟩
    let s := s.carried c
    { s with hst := { s.hst with waiting := s.hst.waiting ++ [c] } }.releaseWaiting

end Sys2Proof.Machine
end

