-- ==== Sys2Proof/Machine/ExecFabric.lean ====
section
/-! DEFINITION. The meanings of the orbits' events, of the fabric, the time base and the gradient reduction (chapters 7, 12, 13, 14 and 15 of the
spec). -/
namespace Sys2Proof.Machine

/-- CHECK_REPEAT (R469). -/
def execCheckRepeat (unit : BitVec 16) (obs : CheckObs) (s : State) : Host.Outcome State Fault Refusal :=
  devRow s (fun d => doCheckRepeat d unit.toNat obs)

/-- NORM_DEADLINE (R378). -/
def execNormDeadline (s : State) : Host.Outcome State Fault Refusal :=
  modRow s (fun s => doNormDeadlineAt s)

/-- ORBIT_START (R594). -/
def execOrbitStart (s : State) : Host.Outcome State Fault Refusal :=
  modRow s (fun s => (doOrbitStart s).releaseWaiting)

/-- ORBIT_END (R423). -/
def execOrbitEnd (s : State) : Host.Outcome State Fault Refusal :=
  modRow s (fun s => doOrbitEnd s)

/-- ORBIT_COMPLETION (R234). -/
def execOrbitCompletion (s : State) : Host.Outcome State Fault Refusal :=
  modRow s (fun s => (doOrbitCompletion s).releaseWaiting)

/-- LINK_TICK (R405). -/
def execLinkTick (link : Fin 48) (s : State) : Host.Outcome State Fault Refusal :=
  modRow s (fun s => doLinkTick s link)

/-- SEND_START (R420). -/
def execSendStart (io : Fin 2) (entry : Nat) (s : State) : Host.Outcome State Fault Refusal :=
  modRow s (fun s => doSendStart s io entry)

/-- DATA_FRAME (R409). -/
def execDataFrame (link : Fin 48) (hdr : FrameHeader) (obs : FrameObs) (s : State) : Host.Outcome State Fault Refusal :=
  modRow s (fun s => doDataFrame s link hdr obs)

/-- TRAILER_FRAME (R407). -/
def execTrailerFrame (link : Fin 48) (hdr : FrameHeader) (obs : FrameObs) (s : State) : Host.Outcome State Fault Refusal :=
  modRow s (fun s => doTrailerFrame s link hdr obs)

/-- RETRY_FRAME (R409). -/
def execRetryFrame (link : Fin 48) (hdr : FrameHeader) (obs : FrameObs) (s : State) : Host.Outcome State Fault Refusal :=
  modRow s (fun s => doRetryFrame s link hdr obs)

/-- BE_DATA_FRAME (R425). -/
def execBeDataFrame (link : Fin 48) (hdr : FrameHeader) (obs : FrameObs) (s : State) : Host.Outcome State Fault Refusal :=
  modRow s (fun s => doBeDataFrame s link hdr obs)

/-- BE_TRAILER_FRAME (R424). -/
def execBeTrailerFrame (link : Fin 48) (hdr : FrameHeader) (obs : FrameObs) (s : State) : Host.Outcome State Fault Refusal :=
  modRow s (fun s => doBeTrailerFrame s link hdr obs)

/-- TRANSFER_MISSED (R421). -/
def execTransferMissed (io : Fin 2) (entry : Nat) (s : State) : Host.Outcome State Fault Refusal :=
  modRow s (fun s => doTransferMissed s io entry)

/-- REGION_RELEASE (R421). -/
def execRegionRelease (io : Fin 2) (entry : Nat) (s : State) : Host.Outcome State Fault Refusal :=
  modRow s (fun s => doRegionRelease s io entry)

/-- CONTROL_SLOT (R426). -/
def execControlSlot (s : State) : Host.Outcome State Fault Refusal :=
  modRow s (fun s => doControlSlot s)

/-- TIME_MARKER (R411). -/
def execTimeMarker (link : Fin 48) (m : MarkerIn) (s : State) : Host.Outcome State Fault Refusal :=
  modRow s (fun s => doTimeMarker s link m)

/-- TIME_HOLDOVER (R412). -/
def execTimeHoldover (s : State) : Host.Outcome State Fault Refusal :=
  modRow s (fun s => doTimeHoldover s)

/-- TIME_LOST (R413). -/
def execTimeLost (s : State) : Host.Outcome State Fault Refusal :=
  modRow s (fun s => doTimeLost s)

/-- LINK_UP (R404). -/
def execLinkUp (link : Fin 48) (rttTicks : BitVec 8) (s : State) : Host.Outcome State Fault Refusal :=
  modRow s (fun s => doLinkUp s link rttTicks)

/-- LINK_TRAINING_FAIL (R404). -/
def execLinkTrainingFail (link : Fin 48) (s : State) : Host.Outcome State Fault Refusal :=
  modRow s (fun s => doLinkTrainingFail s link)

/-- LINK_DOWN (R404). -/
def execLinkDown (link : Fin 48) (s : State) : Host.Outcome State Fault Refusal :=
  modRow s (fun s => doLinkDown s link)

/-- KEYX (R555). -/
def execKeyx (link : Fin 48) (k : KeyxIn) (s : State) : Host.Outcome State Fault Refusal :=
  modRow s (fun s => doKeyx s link k)

/-- VOTE (R459). -/
def execVote (link : Fin 48) (m : CtlMsg) (s : State) : Host.Outcome State Fault Refusal :=
  modRow s (fun s => doVote s link m)

/-- VOID (R486). -/
def execVoid (link : Fin 48) (m : CtlMsg) (s : State) : Host.Outcome State Fault Refusal :=
  modRow s (fun s => doVoid s link m)

/-- RETRACT (R456). -/
def execRetract (link : Fin 48) (m : CtlMsg) (s : State) : Host.Outcome State Fault Refusal :=
  modRow s (fun s => doRetract s link m)

/-- COMMIT (R451). -/
def execCommit (link : Fin 48) (m : CtlMsg) (s : State) : Host.Outcome State Fault Refusal :=
  modRow s (fun s => doCommit s link m)

/-- BUCKET_STAGE (R441). -/
def execBucketStage (bucket : Nat) (s : State) : Host.Outcome State Fault Refusal :=
  modRow s (fun s => doBucketStage s bucket)

/-- ENCODE_COMPARE (R483). -/
def execEncodeCompare (bucket : Nat) (block : Nat) (mismatch : Bool) (again : Bool) (s : State) : Host.Outcome State Fault Refusal :=
  modRow s (fun s => doEncodeCompare s bucket block mismatch again)

/-- CONTRIB_RECEIVE (R447). -/
def execContribReceive (io : Fin 2) (entry : Nat) (s : State) : Host.Outcome State Fault Refusal :=
  modRow s (fun s => doContribReceive s io entry)

/-- CORRECT_RECEIVE (R457). -/
def execCorrectReceive (io : Fin 2) (entry : Nat) (s : State) : Host.Outcome State Fault Refusal :=
  modRow s (fun s => doCorrectReceive s io entry)

/-- REDUCED_RECEIVE (R449). -/
def execReducedReceive (io : Fin 2) (entry : Nat) (s : State) : Host.Outcome State Fault Refusal :=
  modRow s (fun s => doReducedReceive s io entry)

/-- NORM_RECORD_RECEIVE (R439). -/
def execNormRecordReceive (io : Fin 2) (entry : Nat) (s : State) : Host.Outcome State Fault Refusal :=
  modRow s (fun s => doNormRecordReceive s io entry)

/-- BUCKET_FINALISE (R453). -/
def execBucketFinalise (bucket : Nat) (mismatch : Option Nat) (s : State) : Host.Outcome State Fault Refusal :=
  modRow s (fun s => doBucketFinalise s bucket mismatch)

/-- VOTE_TICK (R460). -/
def execVoteTick (s : State) : Host.Outcome State Fault Refusal :=
  modRow s (fun s => doVoteTick s)

/-- VOTE_CLOSE (R461). -/
def execVoteClose (s : State) : Host.Outcome State Fault Refusal :=
  modRow s (fun s => doVoteClose s)

/-- IDLE_FRAME (R405). -/
def execIdleFrame (link : Fin 48) (hdr : FrameHeader) (s : State) : Host.Outcome State Fault Refusal :=
  modRow s (fun s => doIdleFrame s link hdr)

end Sys2Proof.Machine
end

