-- ==== Sys2Proof/Machine/ExecHealth.lean ====
section
/-! DEFINITION. The meanings of the watchdogs, of recovery and of unit health (chapters 11, 15 and 16 of the spec). -/
namespace Sys2Proof.Machine

/-- CORE_WATCHDOG (R493). -/
def execCoreWatchdog (core : Fin 128) (s : State) : Host.Outcome State Fault Refusal :=
  modRow s (fun s => doCoreWatchdog s core)

/-- COMA_WATCHDOG (R493). -/
def execComaWatchdog (engine : Fin 32) (waiting : Bool) (s : State) : Host.Outcome State Fault Refusal :=
  modRow s (fun s => doComaWatchdog s engine waiting)

/-- MSU_WATCHDOG (R493). -/
def execMsuWatchdog (msu : Fin 16) (waiting : Bool) (s : State) : Host.Outcome State Fault Refusal :=
  modRow s (fun s => doMsuWatchdog s msu waiting)

/-- CP_WATCHDOG (R493). -/
def execCpWatchdog (half : Fin 2) (s : State) : Host.Outcome State Fault Refusal :=
  modRow s (fun s => (doCpWatchdog s half).releaseWaiting)

/-- CP_HEARTBEAT (R493). -/
def execCpHeartbeat (half : Fin 2) (s : State) : Host.Outcome State Fault Refusal :=
  modRow s (fun s => doCpHeartbeat s half)

/-- HALF_HEARTBEAT (R493). -/
def execHalfHeartbeat (half : Fin 2) (s : State) : Host.Outcome State Fault Refusal :=
  modRow s (fun s => doHalfHeartbeat s half)

/-- SEPARATION (R506). -/
def execSeparation (s : State) : Host.Outcome State Fault Refusal :=
  modRow s (fun s => (doSeparation s).releaseWaiting)

/-- DOMAIN_DRAIN_END (R498). -/
def execDomainDrainEnd (forced : Bool) (drainUs : Nat) (s : State) : Host.Outcome State Fault Refusal :=
  modRow s (fun s => (doDomainDrainEnd s forced drainUs).releaseWaiting)

/-- DOMAIN_RESET_COMPLETE (R497). -/
def execDomainResetComplete (resetUs : Nat) (s : State) : Host.Outcome State Fault Refusal :=
  modRow s (fun s => (doDomainResetComplete s resetUs).releaseWaiting)

/-- ESCALATION (R502). -/
def execEscalation (s : State) : Host.Outcome State Fault Refusal :=
  modRow s (fun s => (doEscalation s).releaseWaiting)

/-- HOT_WINDOW (R357). -/
def execHotWindow (msu : Fin 16) (s : State) : Host.Outcome State Fault Refusal :=
  modRow s (fun s => doHotWindow s msu)

/-- HEALTH_WINDOW_EXPIRY (R475). -/
def execHealthWindowExpiry (unit : BitVec 16) (s : State) : Host.Outcome State Fault Refusal :=
  devRow s (fun d => doHealthWindowExpiry d unit.toNat)

/-- HEALTH_FLUSH (R476). -/
def execHealthFlush (s : State) : Host.Outcome State Fault Refusal :=
  devRow s (fun d => doHealthFlush d)

/-- ERROR_RECORD_DELIVERY (R490). -/
def execErrorRecordDelivery (io : Fin 2) (s : State) : Host.Outcome State Fault Refusal :=
  modRow s (fun s => doErrorRecordDelivery s io)

end Sys2Proof.Machine
end

