-- ==== Sys2Proof/Machine/ExecHost.lean ====
section
/-! DEFINITION. The meanings of sessions and host commands, of the adapter and of the Efmus ports (chapters 17 and 18 of the spec). -/
namespace Sys2Proof.Machine

/-- An entry is the row's: its OPCODE, or one that no row has, which R521 refuses. -/
def rowEntry (op : Nat) (e : Entry64) : Bool := eOp e == op || !hostOps.contains (eOp e)

/-- A QUERY entry is the row's: its ITEM, or one that Table 17-2 does not list. -/
def rowItem (item : Nat) (e : Entry64) : Bool :=
  (eOp e == opQuery && (eItem e == item || !([0x00, 0x01, 0x10, 0x11, 0x12, 0x13].contains (eItem e)))) || !hostOps.contains (eOp e)

/-- Which row an OPEN_SESSION belongs to, by its message in host memory: 1 OPEN_KEY and every KIND that is not accepted,
2 OPEN_SECRET, 3 CLAIM, 4 CLOSE, 5 ROTATE, 6 RELEASE (Tables 18-4 and 18-5). -/
def openRow (s : State) (e : Entry64) : Nat :=
  let m := s.image (eAddr e) (eLen32 e)
  if m.kind = 4 then (if m.release then 6 else 4)
  else if m.kind = 3 then 3
  else if (m.kind = 1 ∨ m.kind = 2) ∧ m.rotate then 5
  else if m.kind = 2 then 2
  else 1

/-- An OPEN_SESSION entry is the row's. -/
def rowOpen (row : Nat) (s : State) (e : Entry64) : Bool := (eOp e == opOpen && openRow s e == row) || !hostOps.contains (eOp e)

/-- A host command: the entry must be one of the row. -/
def hostRow (ok : Bool) (port queue : Fin 2) (handle : W32) (e : Entry64) (s : State) : Host.Outcome State Fault Refusal :=
  if ok then modRow s (fun s => doHostCmd s port queue handle e) else .fault .notThisCommand

/-- OPEN_KEY (R545). -/
def execOpenKey (port : Fin 2) (queue : Fin 2) (handle : W32) (e : Entry64) (s : State) : Host.Outcome State Fault Refusal :=
  hostRow (rowOpen 1 s e) port queue handle e s

/-- OPEN_SECRET (R545). -/
def execOpenSecret (port : Fin 2) (queue : Fin 2) (handle : W32) (e : Entry64) (s : State) : Host.Outcome State Fault Refusal :=
  hostRow (rowOpen 2 s e) port queue handle e s

/-- CLAIM (R548). -/
def execClaim (port : Fin 2) (queue : Fin 2) (handle : W32) (e : Entry64) (s : State) : Host.Outcome State Fault Refusal :=
  hostRow (rowOpen 3 s e) port queue handle e s

/-- CLOSE (R549). -/
def execClose (port : Fin 2) (queue : Fin 2) (handle : W32) (e : Entry64) (s : State) : Host.Outcome State Fault Refusal :=
  hostRow (rowOpen 4 s e) port queue handle e s

/-- ROTATE (R548). -/
def execRotate (port : Fin 2) (queue : Fin 2) (handle : W32) (e : Entry64) (s : State) : Host.Outcome State Fault Refusal :=
  hostRow (rowOpen 5 s e) port queue handle e s

/-- RELEASE (R548). -/
def execRelease (port : Fin 2) (queue : Fin 2) (handle : W32) (e : Entry64) (s : State) : Host.Outcome State Fault Refusal :=
  hostRow (rowOpen 6 s e) port queue handle e s

/-- LOAD_PLAN (R522). -/
def execLoadPlan (port : Fin 2) (queue : Fin 2) (handle : W32) (e : Entry64) (s : State) : Host.Outcome State Fault Refusal :=
  hostRow (rowEntry opLoad e) port queue handle e s

/-- START_ORBITS (R523). -/
def execStartOrbits (port : Fin 2) (queue : Fin 2) (handle : W32) (e : Entry64) (s : State) : Host.Outcome State Fault Refusal :=
  hostRow (rowEntry opStart e) port queue handle e s

/-- WRITE_STEP_SIZE (R525). -/
def execWriteStepSize (port : Fin 2) (queue : Fin 2) (handle : W32) (e : Entry64) (s : State) : Host.Outcome State Fault Refusal :=
  hostRow (rowEntry opStep e) port queue handle e s

/-- MEM_TRANSFER_WRITE (R526). -/
def execMemTransferWrite (port : Fin 2) (queue : Fin 2) (handle : W32) (e : Entry64) (s : State) : Host.Outcome State Fault Refusal :=
  hostRow (rowEntry opMem e && !eRead e) port queue handle e s

/-- MEM_TRANSFER_READ (R526). -/
def execMemTransferRead (port : Fin 2) (queue : Fin 2) (handle : W32) (e : Entry64) (s : State) : Host.Outcome State Fault Refusal :=
  hostRow (rowEntry opMem e && eRead e) port queue handle e s

/-- QUERY_IDENTITY (R540). -/
def execQueryIdentity (port : Fin 2) (queue : Fin 2) (handle : W32) (e : Entry64) (s : State) : Host.Outcome State Fault Refusal :=
  hostRow (rowItem 0x00 e) port queue handle e s

/-- QUERY_SPDM (R541). -/
def execQuerySpdm (port : Fin 2) (queue : Fin 2) (handle : W32) (e : Entry64) (s : State) : Host.Outcome State Fault Refusal :=
  hostRow (rowItem 0x01 e) port queue handle e s

/-- QUERY_STATE (R528). -/
def execQueryState (port : Fin 2) (queue : Fin 2) (handle : W32) (e : Entry64) (s : State) : Host.Outcome State Fault Refusal :=
  hostRow (rowItem 0x10 e) port queue handle e s

/-- QUERY_REGISTERS (R536). -/
def execQueryRegisters (port : Fin 2) (queue : Fin 2) (handle : W32) (e : Entry64) (s : State) : Host.Outcome State Fault Refusal :=
  hostRow (rowItem 0x11 e) port queue handle e s

/-- QUERY_HEALTH (R528). -/
def execQueryHealth (port : Fin 2) (queue : Fin 2) (handle : W32) (e : Entry64) (s : State) : Host.Outcome State Fault Refusal :=
  hostRow (rowItem 0x12 e) port queue handle e s

/-- QUERY_ERRORS (R528). -/
def execQueryErrors (port : Fin 2) (queue : Fin 2) (handle : W32) (e : Entry64) (s : State) : Host.Outcome State Fault Refusal :=
  hostRow (rowItem 0x13 e) port queue handle e s

/-- RESET_DOMAIN (R509). -/
def execResetDomain (port : Fin 2) (queue : Fin 2) (handle : W32) (e : Entry64) (s : State) : Host.Outcome State Fault Refusal :=
  hostRow (rowEntry opReset e) port queue handle e s

/-- ENTER_UMBRA (R577). -/
def execEnterUmbra (port : Fin 2) (queue : Fin 2) (handle : W32) (e : Entry64) (s : State) : Host.Outcome State Fault Refusal :=
  hostRow (rowEntry opEnter e) port queue handle e s

/-- LEAVE_UMBRA (R578). -/
def execLeaveUmbra (port : Fin 2) (queue : Fin 2) (handle : W32) (e : Entry64) (s : State) : Host.Outcome State Fault Refusal :=
  hostRow (rowEntry opLeave e) port queue handle e s

/-- SQ_DOORBELL (R517). -/
def execSqDoorbell (port : Fin 2) (queue : Fin 2) (tail : BitVec 32) (ringFails : Bool) (s : State) : Host.Outcome State Fault Refusal :=
  modRow s (fun s => doSqDoorbell s port queue tail ringFails)

/-- CQ_HEAD_WRITE (R519). -/
def execCqHeadWrite (port : Fin 2) (queue : Fin 2) (head : BitVec 32) (s : State) : Host.Outcome State Fault Refusal :=
  modRow s (fun s => doCqHeadWrite s port queue head)

/-- QUEUE_ENABLE (R519). -/
def execQueueEnable (port : Fin 2) (queue : Fin 2) (value : W64) (ack : W64) (cq : W64) (s : State) : Host.Outcome State Fault Refusal :=
  modRow s (fun s => doQueueEnable s port queue value ack cq)

/-- COMPLETION_RECORD (R533). -/
def execCompletionRecord (port : Fin 2) (s : State) : Host.Outcome State Fault Refusal :=
  modRow s (fun s => doCompletionRecord s port)

/-- EFMUS_PORT_UP (R556). -/
def execEfmusPortUp (port : Fin 2) (s : State) : Host.Outcome State Fault Refusal :=
  modRow s (fun s => doEfmusPortUp s port)

/-- EFMUS_PORT_DOWN (R514). -/
def execEfmusPortDown (port : Fin 2) (s : State) : Host.Outcome State Fault Refusal :=
  modRow s (fun s => doEfmusPortDown s port)

/-- PORT_LINK_LOST (R515). -/
def execPortLinkLost (port : Fin 2) (s : State) : Host.Outcome State Fault Refusal :=
  modRow s (fun s => doPortLinkLost s port)

/-- RESET_HOLD_TIMEOUT (R529). -/
def execResetHoldTimeout (port : Fin 2) (s : State) : Host.Outcome State Fault Refusal :=
  modRow s (fun s => doResetHoldTimeout s port)

end Sys2Proof.Machine
end

