-- ==== Sys2Proof/Machine/ManagementOps.lean ====
section
/-! DEFINITION. Management commands through Moonlet (R475, R481, R490, R494, R500, R503, R541, R543, R557, R581, R583 to R585,
Table 19-10). -/
namespace Sys2Proof.Machine

/-- Moonlet answers a command: accepted, or ERROR_INVALID_DATA. -/
def State.answer (s : State) (ok : Bool) : State := { s with moon := { s.moon with lastOk := ok } }

/-! Settings (R494, Tables 15-3 and 16-3). -/

def inRange (lo hi x : Nat) : Bool := decide (lo ≤ x) && decide (x ≤ hi)

/-- The settings as commanded so far. -/
def State.settings (s : State) : Settings := s.moon.next.getD s.dev.settings

/-- A command with any value outside its range is refused whole; a change takes effect at the next start slot. -/
def State.setSettings (s : State) (ok : Bool) (n : Settings) : State :=
  if ok && s.pwr.moonletUp then { s with moon := { s.moon with next := some n, lastOk := true } } else s.answer false

/-- SET_HEALTH. -/
def doSetHealth (s : State) (histLimit histWindow memLimit : Nat) : State :=
  s.setSettings (inRange 2 255 histLimit && inRange 1 8760 histWindow && inRange 1 65535 memLimit)
    { s.settings with histLimit := histLimit, histWindow := histWindow, memLimit := memLimit }

/-- SET_WATCHDOG. -/
def doSetWatchdog (s : State) (coreMs ceMs msuMs cpMs : Nat) : State :=
  s.setSettings (inRange 1 20000 coreMs && inRange 1 1000 ceMs && inRange 1 1000 msuMs && inRange 2 100 cpMs)
    { s.settings with coreMs := coreMs, ceMs := ceMs, msuMs := msuMs, cpMs := cpMs }

/-! Units (R481). -/

/-- A unit that is margined may return to a lower LEVEL, a retired one to service. -/
def HealthRec.mayReturn (h : HealthRec) (level : Nat) : Bool := (h.state == 1 && decide (level < h.level)) || (h.state == 2 && decide (level ≤ h.level))

/-- UNIT_RETURN: at the next module reset. -/
def doUnitReturn (s : State) (unit level : Nat) : State :=
  if unitExists unit && (s.dev.health.get unit).mayReturn level then
    (s.mapDev (·.updHealth unit (fun h => { h with returnTo := some level }))).answer true
  else s.answer false

/-! Module reset (R503). -/

/-- MODULE_RESET, CAUSE MANAGEMENT. -/
def doModuleReset (s : State) : State :=
  match s.pwr.state with
  | .running => (s.recover 5 0 5 0xFFFF stReset [] []).answer true
  | .powering => s.startCycle.answer true
  | _ => s.answer false

/-! Flash (R490, R500, R557). -/

/-- Bytes of a crash record header (Table 16-5). -/
def CrashRec.bytes (r : CrashRec) : List Byte :=
  let b := leBytes 4 (fld 31 28 r.kind + fld 27 16 r.index + fld 15 12 r.cause + fld 7 0 r.status) ++ leBytes 4 r.sequence ++ leBytes 8 r.jobTime
    ++ leBytes 4 r.orbit ++ leBytes 4 (flag 31 r.forced + fld 30 0 r.drainUs) ++ leBytes 4 r.resetUs ++ leBytes 2 r.unit
    ++ leBytes 2 (flag 15 r.truncated + fld 7 0 r.cores) ++ leBytes 8 r.digest ++ leBytes 4 r.poweredMin ++ leBytes 208 0
  b ++ leBytes 4 (crc32 b).toNat

/-- Byte i of the flag bitmap. -/
def CoreSection.flagByte (c : CoreSection) (i : Nat) : Byte :=
  BitVec.ofNat 8 (((List.range 8).map (fun j => flag j (c.flags.get (8 * i + j)))).foldl (· + ·) 0)

/-- Bytes of a core section (Table 16-6). -/
def CoreSection.bytes (c : CoreSection) : List Byte :=
  leBytes 2 c.core ++ leBytes 2 0 ++ leBytes 4 c.seqStatus.toNat ++ leBytes 4 c.seqPc.toNat ++ leBytes 4 c.arrayStatus.toNat
    ++ leBytes 4 c.wdogStatus.toNat ++ leBytes 236 0 ++ (List.range 256).map c.flagByte ++ c.samples.getList 0 262144

/-- A stored record as Moonlet returns it: header, sealed core sections, trailer. -/
def CrashStored.bytes (c : CrashStored) : List Byte :=
  let h := c.hdr.bytes
  match c.sections, c.sealedBy with
  | _ :: _, some k =>
    let iv := beBytes 12 c.iv
    let ct := gcmCrypt (bytes256 k.key) iv (c.sections.flatMap CoreSection.bytes)
    h ++ ct ++ leBytes 8 k.session.toNat ++ leBytes 8 0 ++ gcmTag (bytes256 k.key) iv h ct
  | _, _ => h

/-- READ_CRASH. -/
def doReadCrash (s : State) (seq : W32) : State :=
  match s.moon.crashes.find? (fun c => c.hdr.sequence == seq.toNat) with
  | some c => { s with moon := { s.moon with reply := c.bytes } }.answer true
  | none => s.answer false

/-- READ_ERRORS. -/
def doReadErrors (s : State) (seq : W32) : State := { s with moon := { s.moon with reply := s.errorsFrom seq.toNat } }.answer true

/-- EVENT_ACKNOWLEDGE: ALERT_N is released high. -/
def doEventAcknowledge (s : State) : State := { s with moon := { s.moon with events := 0 } }

/-! Clears (R70, R315, R357). -/

/-- SAT_COUNT_CLEAR. -/
def doSatCountClear (s : State) (n : Nat) : State := (s.mapDev (·.updCore n (fun c => { c with satCount := 0 }))).answer true

/-- HOT_CLEAR. -/
def doHotClear (s : State) (u : Nat) : State := (s.mapDev (·.updMsu u (fun m => { m with hotStatus := setBits m.hotStatus 0 0 0 }))).answer true

/-- SEG_FAULT_CLEAR: FAULT is cleared, which arms the next record. -/
def doSegFaultClear (s : State) (k : Nat) : State :=
  (s.mapDev (fun d => { d with segFaults := d.segFaults.upd k (fun f => { f with fault := false }) })).answer true

/-! REG_WRITE (R8, R9, R585). -/

/-- An RW or RWS field after a masked write. -/
def regSet (old hi lo : Nat) (v m : W64) : Nat := bitsOf ((BitVec.ofNat 64 (old * 2 ^ lo) &&& ~~~m) ||| (v &&& m)) hi lo

/-- An RW1C bit after a masked write. -/
def regClr (old : Bool) (i : Nat) (v m : W64) : Bool := old && !(bitOf v i && bitOf m i)

/-- RW1C bits of a register that the model keeps whole. -/
def regClr32 (old : W32) (bits : List Nat) (v m : W64) : W32 := bits.foldl (fun x i => if bitOf v i && bitOf m i then setBits x i i 0 else x) old

def writeCore (c : Core) (off : Nat) (v m : W64) : Core :=
  match off with
  | 0x0000 => { c with poisonCtrl := regClr c.poisonCtrl 10 v m, fault := regClr c.fault 0 v m }
  | 0x0110 => { c with chkStatus := regClr32 c.chkStatus [2, 1, 0] v m }
  | 0x0140 => { c with
      satCount := if bitOf v 4 && bitOf m 4 then 0 else c.satCount
      fp32Ovf := regClr c.fp32Ovf 3 v m, infSeen := regClr c.infSeen 2 v m, nanSeen := regClr c.nanSeen 1 v m
      stickySeen := regClr c.stickySeen 0 v m }
  | 0x0150 => { c with tableErr := regClr c.tableErr 3 v m, markerSeen := regClr c.markerSeen 2 v m }
  | 0x0180 => { c with wdog := regClr32 (setBits c.wdog 15 8 (regSet (bitsOf c.wdog 15 8) 15 8 v m)) [2, 0] v m }
  | _ => c

def writeComa (e : Coma) (off : Nat) (v m : W64) : Coma :=
  match off with
  | 0x0100 => { e with parityErr := regClr e.parityErr 2 v m, cmdError := regClr e.cmdError 1 v m }
  | _ => e

def writeMsu (u : Msu) (off : Nat) (v m : W64) : Msu :=
  match off with
  | 0x0000 => { u with fallback := regClr u.fallback 3 v m, cmdError := regClr u.cmdError 1 v m }
  | 0x0400 => { u with hotConfig := BitVec.ofNat 32 (regSet u.hotConfig.toNat 31 0 v m) }
  | 0x0404 => { u with hotStatus := regClr32 u.hotStatus [0] v m }
  | _ => u

def writeOrb (g : OrbRegs) (off : Nat) (v m : W64) : OrbRegs :=
  match off with
  | 0x0000 => { g with timeAlert := regClr g.timeAlert 1 v m, slackAlert := regClr g.slackAlert 0 v m }
  | 0x0020 => { g with alertTicks := regSet g.alertTicks 63 48 v m }
  | 0x0300 => { g with corrected := regClr g.corrected 2 v m, lateFail := regClr g.lateFail 1 v m }
  | 0x0400 => { g with
      recoveries := regSet g.recoveries 63 32 v m, lastStatus := regSet g.lastStatus 31 24 v m, lastCause := regSet g.lastCause 23 20 v m
      lastKind := regSet g.lastKind 19 16 v m, lastIndex := regSet g.lastIndex 15 4 v m }
  | 0x0408 => { g with
      noPrimary := regSet (boolNat g.noPrimary) 10 10 v m == 1, dualPrimary := regSet (boolNat g.dualPrimary) 9 9 v m == 1 }
  | _ => g

def writeSeg (f : SegFault) (off : Nat) (v m : W64) : SegFault :=
  match off with
  | 0x0000 => { f with more := regClr f.more 1 v m, fault := regClr f.fault 0 v m }
  | _ => f

def writePwr (p : HalfPwr) (off : Nat) (v m : W64) : HalfPwr :=
  match off with
  | 0x0000 => { p with kitChanged := regClr p.kitChanged 5 v m }
  | 0x0020 => { p with
      limitEntries := regSet p.limitEntries 31 16 v m, umbraEntries := regSet p.umbraEntries 15 8 v m, kitChanges := regSet p.kitChanges 7 0 v m }
  | _ => p

/-- A write of PWR_CAP: CAP_W, clamped, and EMERGENCY. -/
def State.writeCap (s : State) (v m : W64) : State :=
  let w := regSet s.capSet 19 8 v m
  if bitOf v 1 && bitOf m 1 then doEmergencyCap s w
  else if bitsOf m 19 8 = 0 then s else doSetCap s w

/-- The masked write of a register at an offset of a block. -/
def State.writeBlock (s : State) (off : Nat) (v m : W64) : Block → State
  | .core n => s.mapDev (·.updCore n (fun c => writeCore c off v m))
  | .coma n => s.mapDev (·.updComa n (fun e => writeComa e off v m))
  | .msu u => s.mapDev (·.updMsu u (fun x => writeMsu x off v m))
  | .orb io => s.updRegs io (fun g => writeOrb g off v m)
  | .link _ => s
  | .seg k => s.mapDev (fun d => { d with segFaults := d.segFaults.upd k (fun f => writeSeg f off v m) })
  | .efmus _ => s
  | .pwr h => if off = 0x0008 then s.writeCap v m else s.updHalf h (fun p => writePwr p off v m)
  | .sec _ => s

/-- A REG_WRITE that is refused: no block, the SEC_ block, or ORB_PLAN_VERIFY. -/
def State.regRefused (s : State) (a : Nat) : Bool :=
  match blockOf a with
  | none => true
  | some (.sec _) => true
  | some (.orb io) => a % 0x10000 / 8 == 0x0200 / 8 && io == s.primaryIo
  | some _ => false

/-- REG_WRITE: the register at a window address, a value and a mask. -/
def doRegWrite (s : State) (addr : W32) (v m : W64) : State :=
  let a := addr.toNat
  if s.regRefused a || !s.pwr.railsOk then s.answer false
  else match blockOf a with
    | some b => (s.writeBlock (a % 0x10000) v m b).answer true
    | none => s.answer false

/-! SPDM and firmware (R541, R543). -/

/-- SPDM_REQUEST, relayed by Moonlet. -/
def doSpdmRequest (s : State) (request : List Byte) : State :=
  if s.pwr.state ≠ .running then s.answer false
  else
    let x := s.spdm request
    { x.2 with moon := { x.2.moon with reply := x.1 } }.answer true

/-- FIRMWARE_UPDATE: the image goes to the bank not in use. -/
def doFirmwareUpdate (s : State) (io : Nat) (isCp : Bool) (image : List Byte) : State :=
  let k := 2 * io + boolNat isCp
  { s with sec := { s.sec with fw := s.sec.fw.upd k (fun b => if b.usedB then { b with bankA := image } else { b with bankB := image }) } }.answer true

end Sys2Proof.Machine
end

