-- ==== Sys2Proof/Machine/ExecPower.lean ====
section
/-! DEFINITION. The meanings of the management commands, of power, reset and the pins (chapter 19 of the spec). -/
namespace Sys2Proof.Machine

/-- SET_CAP (R571). -/
def execSetCap (capW : Nat) (s : State) : Host.Outcome State Fault Refusal :=
  modRow s (fun s => doSetCap s capW)

/-- EMERGENCY_CAP (R574). -/
def execEmergencyCap (capW : Nat) (s : State) : Host.Outcome State Fault Refusal :=
  modRow s (fun s => doEmergencyCap s capW)

/-- SET_HEALTH (R494). -/
def execSetHealth (histLimit : Nat) (histWindow : Nat) (memLimit : Nat) (s : State) : Host.Outcome State Fault Refusal :=
  modRow s (fun s => doSetHealth s histLimit histWindow memLimit)

/-- SET_WATCHDOG (R494). -/
def execSetWatchdog (coreMs : Nat) (ceMs : Nat) (msuMs : Nat) (cpMs : Nat) (s : State) : Host.Outcome State Fault Refusal :=
  modRow s (fun s => doSetWatchdog s coreMs ceMs msuMs cpMs)

/-- UNIT_RETURN (R481). -/
def execUnitReturn (unit : BitVec 16) (level : BitVec 2) (s : State) : Host.Outcome State Fault Refusal :=
  modRow s (fun s => doUnitReturn s unit.toNat level.toNat)

/-- DEBUG_TOKEN (R558). -/
def execDebugToken (token : BitVec 2560) (s : State) : Host.Outcome State Fault Refusal :=
  modRow s (fun s => (doDebugToken s token).releaseWaiting)

/-- DEBUG_EXPIRY (R559). -/
def execDebugExpiry (s : State) : Host.Outcome State Fault Refusal :=
  modRow s (fun s => doDebugExpiry s)

/-- WAKE (R578). -/
def execWake (s : State) : Host.Outcome State Fault Refusal :=
  modRow s (fun s => (doWake s).releaseWaiting)

/-- MODULE_RESET (R503). -/
def execModuleReset (s : State) : Host.Outcome State Fault Refusal :=
  modRow s (fun s => (doModuleReset s).releaseWaiting)

/-- READ_CRASH (R583). -/
def execReadCrash (sequence : W32) (s : State) : Host.Outcome State Fault Refusal :=
  modRow s (fun s => doReadCrash s sequence)

/-- READ_ERRORS (R583). -/
def execReadErrors (sequence : W32) (s : State) : Host.Outcome State Fault Refusal :=
  modRow s (fun s => doReadErrors s sequence)

/-- REG_WRITE (R585). -/
def execRegWrite (addr : W32) (value : W64) (mask : W64) (s : State) : Host.Outcome State Fault Refusal :=
  modRow s (fun s => doRegWrite s addr value mask)

/-- SAT_COUNT_CLEAR (R70). -/
def execSatCountClear (core : Fin 128) (s : State) : Host.Outcome State Fault Refusal :=
  modRow s (fun s => doSatCountClear s core)

/-- HOT_CLEAR (R357). -/
def execHotClear (msu : Fin 16) (s : State) : Host.Outcome State Fault Refusal :=
  modRow s (fun s => doHotClear s msu)

/-- SEG_FAULT_CLEAR (R315). -/
def execSegFaultClear (unit : Fin 6) (s : State) : Host.Outcome State Fault Refusal :=
  modRow s (fun s => doSegFaultClear s unit)

/-- SPDM_REQUEST (R541). -/
def execSpdmRequest (request : List Byte) (s : State) : Host.Outcome State Fault Refusal :=
  modRow s (fun s => doSpdmRequest s request)

/-- FIRMWARE_UPDATE (R543). -/
def execFirmwareUpdate (io : Fin 2) (isCp : Bool) (image : List Byte) (s : State) : Host.Outcome State Fault Refusal :=
  modRow s (fun s => doFirmwareUpdate s io isCp image)

/-- INPUT_ON (R563). -/
def execInputOn (s : State) : Host.Outcome State Fault Refusal :=
  modRow s (fun s => doInputOn s)

/-- RAIL_RELEASE (R563). -/
def execRailRelease (s : State) : Host.Outcome State Fault Refusal :=
  modRow s (fun s => doRailRelease s)

/-- PRIMARY_CLAIM (R504). -/
def execPrimaryClaim (selA : Bool) (selB : Bool) (s : State) : Host.Outcome State Fault Refusal :=
  modRow s (fun s => doPrimaryClaim s selA selB)

/-- SECURE_BOOT (R542). -/
def execSecureBoot (s : State) : Host.Outcome State Fault Refusal :=
  modRow s (fun s => doSecureBoot s)

/-- POWER_UP_READY (R563). -/
def execPowerUpReady (s : State) : Host.Outcome State Fault Refusal :=
  modRow s (fun s => doPowerUpReady s)

/-- PWR_EN_RISE (R563). -/
def execPwrEnRise (s : State) : Host.Outcome State Fault Refusal :=
  modRow s (fun s => doPwrEnRise s)

/-- POWER_DOWN (R567). -/
def execPowerDown (s : State) : Host.Outcome State Fault Refusal :=
  modRow s (fun s => doPowerDown s)

/-- BROWN_OUT (R568). -/
def execBrownOut (s : State) : Host.Outcome State Fault Refusal :=
  modRow s (fun s => doBrownOut s)

/-- OVERVOLTAGE (R568). -/
def execOvervoltage (s : State) : Host.Outcome State Fault Refusal :=
  modRow s (fun s => doOvervoltage s)

/-- RESET_IN_N (R503). -/
def execResetInN (s : State) : Host.Outcome State Fault Refusal :=
  modRow s (fun s => (doResetInN s).releaseWaiting)

/-- RAIL_CYCLE_DONE (R564). -/
def execRailCycleDone (s : State) : Host.Outcome State Fault Refusal :=
  modRow s (fun s => doRailCycleDone s)

/-- POWER_CONTROL_TICK (R573). -/
def execPowerControlTick (half : Fin 2) (drawW : Nat) (temps : Temps) (meter : MeterIn) (s : State) : Host.Outcome State Fault Refusal :=
  modRow s (fun s => doPowerControlTick s half drawW temps meter)

/-- BUDGET_DIVIDE (R571). -/
def execBudgetDivide (drawN : Nat) (drawS : Nat) (s : State) : Host.Outcome State Fault Refusal :=
  modRow s (fun s => doBudgetDivide s drawN drawS)

/-- THERMAL_TRIP (R576). -/
def execThermalTrip (s : State) : Host.Outcome State Fault Refusal :=
  modRow s (fun s => doThermalTrip s)

/-- COOLING_ID_CHANGE (R570). -/
def execCoolingIdChange (code : BitVec 3) (s : State) : Host.Outcome State Fault Refusal :=
  modRow s (fun s => doCoolingIdChange s code)

/-- RESET_IN_N_RISE (R503). -/
def execResetInNRise (s : State) : Host.Outcome State Fault Refusal :=
  modRow s (fun s => doResetInNRise s)

/-- EVENT_ACKNOWLEDGE (R581). -/
def execEventAcknowledge (s : State) : Host.Outcome State Fault Refusal :=
  modRow s (fun s => doEventAcknowledge s)

end Sys2Proof.Machine
end

