-- ==== Sys2Proof/Machine/ExecUnits.lean ====
section
/-! DEFINITION. The meanings of the Coma commands and of the memory-side units' commands (chapters 5, 4 and 12 of the spec). -/
namespace Sys2Proof.Machine

/-- GATHER_ROWS (R150). -/
def execGatherRows (engine : Fin 32) (mismatch : Bool) (s : State) : Host.Outcome State Fault Refusal :=
  devRow s (fun d => doGatherRows d engine mismatch)

/-- GATHER_SEQ (R157). -/
def execGatherSeq (engine : Fin 32) (mismatch : Bool) (s : State) : Host.Outcome State Fault Refusal :=
  devRow s (fun d => doGatherSeq d engine mismatch)

/-- GATHER_COLS (R165). -/
def execGatherCols (engine : Fin 32) (mismatch : Bool) (s : State) : Host.Outcome State Fault Refusal :=
  devRow s (fun d => doGatherCols d engine mismatch)

/-- ROUTE (R160). -/
def execRoute (engine : Fin 32) (mismatch : Bool) (s : State) : Host.Outcome State Fault Refusal :=
  devRow s (fun d => doRoute d engine mismatch)

/-- SEQLOAD (R156). -/
def execSeqload (engine : Fin 32) (mismatch : Bool) (s : State) : Host.Outcome State Fault Refusal :=
  devRow s (fun d => doSeqload d engine mismatch)

/-- SCATTER_ROWS (R162). -/
def execScatterRows (engine : Fin 32) (mismatch : Bool) (s : State) : Host.Outcome State Fault Refusal :=
  devRow s (fun d => doScatterRows d engine mismatch)

/-- SCATTER_SLOT (R163). -/
def execScatterSlot (engine : Fin 32) (mismatch : Bool) (s : State) : Host.Outcome State Fault Refusal :=
  devRow s (fun d => doScatterSlot d engine mismatch)

/-- SCATTER_COLS (R166). -/
def execScatterCols (engine : Fin 32) (mismatch : Bool) (s : State) : Host.Outcome State Fault Refusal :=
  devRow s (fun d => doScatterCols d engine mismatch)

/-- MERGE_BIND (R167). -/
def execMergeBind (engine : Fin 32) (mismatch : Bool) (s : State) : Host.Outcome State Fault Refusal :=
  devRow s (fun d => doMergeBind d engine mismatch)

/-- MERGE_UNBIND (R167). -/
def execMergeUnbind (engine : Fin 32) (mismatch : Bool) (s : State) : Host.Outcome State Fault Refusal :=
  devRow s (fun d => doMergeUnbind d engine mismatch)

/-- SLOTSUM (R164). -/
def execSlotsum (engine : Fin 32) (mismatch : Bool) (s : State) : Host.Outcome State Fault Refusal :=
  devRow s (fun d => doSlotsum d engine mismatch)

/-- AUDIT (R171). -/
def execAudit (engine : Fin 32) (mismatch : Bool) (s : State) : Host.Outcome State Fault Refusal :=
  devRow s (fun d => doAudit d engine mismatch)

/-- AUDIT_CLOSE (R173). -/
def execAuditClose (engine : Fin 32) (mismatch : Bool) (s : State) : Host.Outcome State Fault Refusal :=
  devRow s (fun d => doAuditClose d engine mismatch)

/-- MSU_LIST_START (R366). -/
def execMsuListStart (msu : Fin 16) (sem : Fin 16) (s : State) : Host.Outcome State Fault Refusal :=
  devRow s (fun d => doMsuListStart d msu sem)

/-- UPDATE (R373). -/
def execUpdate (msu : Fin 16) (mismatch : Bool) (s : State) : Host.Outcome State Fault Refusal :=
  devRow s (fun d => doUpdate d msu mismatch)

/-- UPDATE_VEC (R370). -/
def execUpdateVec (msu : Fin 16) (mismatch : Bool) (s : State) : Host.Outcome State Fault Refusal :=
  devRow s (fun d => doUpdateVec d msu mismatch)

/-- SMUL (R395). -/
def execSmul (msu : Fin 16) (mismatch : Bool) (s : State) : Host.Outcome State Fault Refusal :=
  devRow s (fun d => doSmul d msu mismatch)

/-- UPDATE_PASS2 (R373). -/
def execUpdatePass2 (msu : Fin 16) (mismatch : Bool) (s : State) : Host.Outcome State Fault Refusal :=
  devRow s (fun d => doUpdatePass2 d msu mismatch)

end Sys2Proof.Machine
end

