-- ==== Sys2Proof/Machine/Dispatch.lean ====
section
/-! DEFINITION. Which meaning each command has: one arm per constructor of Instr. -/
namespace Sys2Proof.Machine

def exec (i : Instr) (s : State) : Host.Outcome State Fault Refusal :=
  match i with
  | .wload core w => Sys2Proof.Machine.execWload core w s
  | .shadowSetValid core => Sys2Proof.Machine.execShadowSetValid core s
  | .wswap core w => Sys2Proof.Machine.execWswap core w s
  | .weightSetExchange core => Sys2Proof.Machine.execWeightSetExchange core s
  | .stream core w => Sys2Proof.Machine.execStream core w s
  | .arrayStep core => Sys2Proof.Machine.execArrayStep core s
  | .mergeDelivery core => Sys2Proof.Machine.execMergeDelivery core s
  | .windowDrain core obs => Sys2Proof.Machine.execWindowDrain core obs s
  | .checkRepeat unit obs => Sys2Proof.Machine.execCheckRepeat unit obs s
  | .streamComplete core => Sys2Proof.Machine.execStreamComplete core s
  | .drain core w => Sys2Proof.Machine.execDrain core w s
  | .vopVector core w failGroup => Sys2Proof.Machine.execVopVector core w failGroup s
  | .vopScalar core w => Sys2Proof.Machine.execVopScalar core w s
  | .move core w => Sys2Proof.Machine.execMove core w s
  | .moveToSreg core w => Sys2Proof.Machine.execMoveToSreg core w s
  | .mcast core w => Sys2Proof.Machine.execMcast core w s
  | .mcastMemberDelivery core member => Sys2Proof.Machine.execMcastMemberDelivery core member s
  | .dmake core w => Sys2Proof.Machine.execDmake core w s
  | .gather core w => Sys2Proof.Machine.execGather core w s
  | .scatter core w => Sys2Proof.Machine.execScatter core w s
  | .merge core w => Sys2Proof.Machine.execMerge core w s
  | .take core w => Sys2Proof.Machine.execTake core w s
  | .takeResult core => Sys2Proof.Machine.execTakeResult core s
  | .signal core w => Sys2Proof.Machine.execSignal core w s
  | .signalArrival nth => Sys2Proof.Machine.execSignalArrival nth s
  | .wait core w => Sys2Proof.Machine.execWait core w s
  | .fence core w => Sys2Proof.Machine.execFence core w s
  | .checkArray core w => Sys2Proof.Machine.execCheckArray core w s
  | .checkRegion core w => Sys2Proof.Machine.execCheckRegion core w s
  | .checkImem core w => Sys2Proof.Machine.execCheckImem core w s
  | .ctxsaveYield core w => Sys2Proof.Machine.execCtxsaveYield core w s
  | .ctxsaveArea core w => Sys2Proof.Machine.execCtxsaveArea core w s
  | .ctxrestore core w => Sys2Proof.Machine.execCtxrestore core w s
  | .halt core w => Sys2Proof.Machine.execHalt core w s
  | .counterBankReload die parity => Sys2Proof.Machine.execCounterBankReload die parity s
  | .gatherRows engine mismatch => Sys2Proof.Machine.execGatherRows engine mismatch s
  | .gatherSeq engine mismatch => Sys2Proof.Machine.execGatherSeq engine mismatch s
  | .gatherCols engine mismatch => Sys2Proof.Machine.execGatherCols engine mismatch s
  | .route engine mismatch => Sys2Proof.Machine.execRoute engine mismatch s
  | .seqload engine mismatch => Sys2Proof.Machine.execSeqload engine mismatch s
  | .scatterRows engine mismatch => Sys2Proof.Machine.execScatterRows engine mismatch s
  | .scatterSlot engine mismatch => Sys2Proof.Machine.execScatterSlot engine mismatch s
  | .scatterCols engine mismatch => Sys2Proof.Machine.execScatterCols engine mismatch s
  | .mergeBind engine mismatch => Sys2Proof.Machine.execMergeBind engine mismatch s
  | .mergeUnbind engine mismatch => Sys2Proof.Machine.execMergeUnbind engine mismatch s
  | .slotsum engine mismatch => Sys2Proof.Machine.execSlotsum engine mismatch s
  | .audit engine mismatch => Sys2Proof.Machine.execAudit engine mismatch s
  | .auditClose engine mismatch => Sys2Proof.Machine.execAuditClose engine mismatch s
  | .msuListStart msu sem => Sys2Proof.Machine.execMsuListStart msu sem s
  | .update msu mismatch => Sys2Proof.Machine.execUpdate msu mismatch s
  | .updateVec msu mismatch => Sys2Proof.Machine.execUpdateVec msu mismatch s
  | .smul msu mismatch => Sys2Proof.Machine.execSmul msu mismatch s
  | .updatePass2 msu mismatch => Sys2Proof.Machine.execUpdatePass2 msu mismatch s
  | .normDeadline => Sys2Proof.Machine.execNormDeadline s
  | .orbitStart => Sys2Proof.Machine.execOrbitStart s
  | .orbitEnd => Sys2Proof.Machine.execOrbitEnd s
  | .orbitCompletion => Sys2Proof.Machine.execOrbitCompletion s
  | .linkTick link => Sys2Proof.Machine.execLinkTick link s
  | .sendStart io entry => Sys2Proof.Machine.execSendStart io entry s
  | .dataFrame link hdr obs => Sys2Proof.Machine.execDataFrame link hdr obs s
  | .trailerFrame link hdr obs => Sys2Proof.Machine.execTrailerFrame link hdr obs s
  | .retryFrame link hdr obs => Sys2Proof.Machine.execRetryFrame link hdr obs s
  | .beDataFrame link hdr obs => Sys2Proof.Machine.execBeDataFrame link hdr obs s
  | .beTrailerFrame link hdr obs => Sys2Proof.Machine.execBeTrailerFrame link hdr obs s
  | .transferMissed io entry => Sys2Proof.Machine.execTransferMissed io entry s
  | .regionRelease io entry => Sys2Proof.Machine.execRegionRelease io entry s
  | .controlSlot => Sys2Proof.Machine.execControlSlot s
  | .timeMarker link m => Sys2Proof.Machine.execTimeMarker link m s
  | .timeHoldover => Sys2Proof.Machine.execTimeHoldover s
  | .timeLost => Sys2Proof.Machine.execTimeLost s
  | .linkUp link rttTicks => Sys2Proof.Machine.execLinkUp link rttTicks s
  | .linkTrainingFail link => Sys2Proof.Machine.execLinkTrainingFail link s
  | .linkDown link => Sys2Proof.Machine.execLinkDown link s
  | .keyx link k => Sys2Proof.Machine.execKeyx link k s
  | .vote link m => Sys2Proof.Machine.execVote link m s
  | .void link m => Sys2Proof.Machine.execVoid link m s
  | .retract link m => Sys2Proof.Machine.execRetract link m s
  | .commit link m => Sys2Proof.Machine.execCommit link m s
  | .bucketStage bucket => Sys2Proof.Machine.execBucketStage bucket s
  | .encodeCompare bucket block mismatch again => Sys2Proof.Machine.execEncodeCompare bucket block mismatch again s
  | .contribReceive io entry => Sys2Proof.Machine.execContribReceive io entry s
  | .correctReceive io entry => Sys2Proof.Machine.execCorrectReceive io entry s
  | .reducedReceive io entry => Sys2Proof.Machine.execReducedReceive io entry s
  | .normRecordReceive io entry => Sys2Proof.Machine.execNormRecordReceive io entry s
  | .bucketFinalise bucket mismatch => Sys2Proof.Machine.execBucketFinalise bucket mismatch s
  | .voteTick => Sys2Proof.Machine.execVoteTick s
  | .voteClose => Sys2Proof.Machine.execVoteClose s
  | .coreWatchdog core => Sys2Proof.Machine.execCoreWatchdog core s
  | .comaWatchdog engine waiting => Sys2Proof.Machine.execComaWatchdog engine waiting s
  | .msuWatchdog msu waiting => Sys2Proof.Machine.execMsuWatchdog msu waiting s
  | .cpWatchdog half => Sys2Proof.Machine.execCpWatchdog half s
  | .cpHeartbeat half => Sys2Proof.Machine.execCpHeartbeat half s
  | .halfHeartbeat half => Sys2Proof.Machine.execHalfHeartbeat half s
  | .separation => Sys2Proof.Machine.execSeparation s
  | .domainDrainEnd forced drainUs => Sys2Proof.Machine.execDomainDrainEnd forced drainUs s
  | .domainResetComplete resetUs => Sys2Proof.Machine.execDomainResetComplete resetUs s
  | .escalation => Sys2Proof.Machine.execEscalation s
  | .hotWindow msu => Sys2Proof.Machine.execHotWindow msu s
  | .healthWindowExpiry unit => Sys2Proof.Machine.execHealthWindowExpiry unit s
  | .healthFlush => Sys2Proof.Machine.execHealthFlush s
  | .errorRecordDelivery io => Sys2Proof.Machine.execErrorRecordDelivery io s
  | .openKey port queue handle e => Sys2Proof.Machine.execOpenKey port queue handle e s
  | .openSecret port queue handle e => Sys2Proof.Machine.execOpenSecret port queue handle e s
  | .claim port queue handle e => Sys2Proof.Machine.execClaim port queue handle e s
  | .close port queue handle e => Sys2Proof.Machine.execClose port queue handle e s
  | .rotate port queue handle e => Sys2Proof.Machine.execRotate port queue handle e s
  | .release port queue handle e => Sys2Proof.Machine.execRelease port queue handle e s
  | .loadPlan port queue handle e => Sys2Proof.Machine.execLoadPlan port queue handle e s
  | .startOrbits port queue handle e => Sys2Proof.Machine.execStartOrbits port queue handle e s
  | .writeStepSize port queue handle e => Sys2Proof.Machine.execWriteStepSize port queue handle e s
  | .memTransferWrite port queue handle e => Sys2Proof.Machine.execMemTransferWrite port queue handle e s
  | .memTransferRead port queue handle e => Sys2Proof.Machine.execMemTransferRead port queue handle e s
  | .queryIdentity port queue handle e => Sys2Proof.Machine.execQueryIdentity port queue handle e s
  | .querySpdm port queue handle e => Sys2Proof.Machine.execQuerySpdm port queue handle e s
  | .queryState port queue handle e => Sys2Proof.Machine.execQueryState port queue handle e s
  | .queryRegisters port queue handle e => Sys2Proof.Machine.execQueryRegisters port queue handle e s
  | .queryHealth port queue handle e => Sys2Proof.Machine.execQueryHealth port queue handle e s
  | .queryErrors port queue handle e => Sys2Proof.Machine.execQueryErrors port queue handle e s
  | .resetDomain port queue handle e => Sys2Proof.Machine.execResetDomain port queue handle e s
  | .enterUmbra port queue handle e => Sys2Proof.Machine.execEnterUmbra port queue handle e s
  | .leaveUmbra port queue handle e => Sys2Proof.Machine.execLeaveUmbra port queue handle e s
  | .sqDoorbell port queue tail ringFails => Sys2Proof.Machine.execSqDoorbell port queue tail ringFails s
  | .cqHeadWrite port queue head => Sys2Proof.Machine.execCqHeadWrite port queue head s
  | .queueEnable port queue value ack cq => Sys2Proof.Machine.execQueueEnable port queue value ack cq s
  | .completionRecord port => Sys2Proof.Machine.execCompletionRecord port s
  | .efmusPortUp port => Sys2Proof.Machine.execEfmusPortUp port s
  | .efmusPortDown port => Sys2Proof.Machine.execEfmusPortDown port s
  | .portLinkLost port => Sys2Proof.Machine.execPortLinkLost port s
  | .resetHoldTimeout port => Sys2Proof.Machine.execResetHoldTimeout port s
  | .setCap capW => Sys2Proof.Machine.execSetCap capW s
  | .emergencyCap capW => Sys2Proof.Machine.execEmergencyCap capW s
  | .setHealth histLimit histWindow memLimit => Sys2Proof.Machine.execSetHealth histLimit histWindow memLimit s
  | .setWatchdog coreMs ceMs msuMs cpMs => Sys2Proof.Machine.execSetWatchdog coreMs ceMs msuMs cpMs s
  | .unitReturn unit level => Sys2Proof.Machine.execUnitReturn unit level s
  | .debugToken token => Sys2Proof.Machine.execDebugToken token s
  | .debugExpiry => Sys2Proof.Machine.execDebugExpiry s
  | .wake => Sys2Proof.Machine.execWake s
  | .moduleReset => Sys2Proof.Machine.execModuleReset s
  | .readCrash sequence => Sys2Proof.Machine.execReadCrash sequence s
  | .readErrors sequence => Sys2Proof.Machine.execReadErrors sequence s
  | .regWrite addr value mask => Sys2Proof.Machine.execRegWrite addr value mask s
  | .satCountClear core => Sys2Proof.Machine.execSatCountClear core s
  | .hotClear msu => Sys2Proof.Machine.execHotClear msu s
  | .segFaultClear unit => Sys2Proof.Machine.execSegFaultClear unit s
  | .spdmRequest request => Sys2Proof.Machine.execSpdmRequest request s
  | .firmwareUpdate io isCp image => Sys2Proof.Machine.execFirmwareUpdate io isCp image s
  | .inputOn => Sys2Proof.Machine.execInputOn s
  | .railRelease => Sys2Proof.Machine.execRailRelease s
  | .primaryClaim selA selB => Sys2Proof.Machine.execPrimaryClaim selA selB s
  | .secureBoot => Sys2Proof.Machine.execSecureBoot s
  | .powerUpReady => Sys2Proof.Machine.execPowerUpReady s
  | .pwrEnRise => Sys2Proof.Machine.execPwrEnRise s
  | .powerDown => Sys2Proof.Machine.execPowerDown s
  | .brownOut => Sys2Proof.Machine.execBrownOut s
  | .overvoltage => Sys2Proof.Machine.execOvervoltage s
  | .resetInN => Sys2Proof.Machine.execResetInN s
  | .railCycleDone => Sys2Proof.Machine.execRailCycleDone s
  | .powerControlTick half drawW temps meter => Sys2Proof.Machine.execPowerControlTick half drawW temps meter s
  | .budgetDivide drawN drawS => Sys2Proof.Machine.execBudgetDivide drawN drawS s
  | .thermalTrip => Sys2Proof.Machine.execThermalTrip s
  | .coolingIdChange code => Sys2Proof.Machine.execCoolingIdChange code s
  | .moveCompletion core => Sys2Proof.Machine.execMoveCompletion core s
  | .vopCompletion core => Sys2Proof.Machine.execVopCompletion core s
  | .idleFrame link hdr => Sys2Proof.Machine.execIdleFrame link hdr s
  | .resetInNRise => Sys2Proof.Machine.execResetInNRise s
  | .eventAcknowledge => Sys2Proof.Machine.execEventAcknowledge s

end Sys2Proof.Machine
end

