-- ==== Sys2Proof/Machine/Step.lean ====
section
/-! DEFINITION. One step of the block: the command at the front of the queue, or one tick of time. -/
namespace Sys2Proof.Machine

/-- The block with no command waiting: job time moves on by one tick of 5 ns (R401; DESIGN CHOICE, log 4). -/
def State.idleTick (s : State) : State := s.mapDev (fun d => { d with time := d.time + tickT })

/-- Take the command at the front of the queue and run it with the queue's rest; with no command waiting, a tick passes. -/
def step (s : State) : Host.Outcome State Fault Refusal :=
  match s.pending with
  | [] => .next s.idleTick
  | c :: rest => exec c { s with pending := rest }

/-- The state with the command that a table word spells put at the front of its queue. -/
def State.withFetchWord (s : State) (nbits w : Nat) : State :=
  match decodeTableWord nbits w with
  | some c => { s with pending := c :: s.pending }
  | none => s

end Sys2Proof.Machine
end

