-- ==== Sys2Proof/Safety.lean ====
section
/-! DEFINITION. What every run of the block keeps: legal clock levels and a READY that only a running module drives (R562,
R563, R573, R577), and legal fuses, owner generation, owner tag and firmware counters (R309, R542, R543, R544, R550). -/
namespace Sys2Proof.Machine

/-- A clock level of R573: 1,000 MHz down to 400 MHz in steps of 25 MHz, then, at 400 MHz, a duty of 100 % down to 25 % in
steps of 5 %. -/
def HalfPwr.Legal (p : HalfPwr) : Prop :=
  400 ≤ p.clock ∧ p.clock ≤ 1000 ∧ p.clock % 25 = 0 ∧ 25 ≤ p.duty ∧ p.duty ≤ 100 ∧ p.duty % 5 = 0 ∧ (p.duty = 100 ∨ p.clock = 400)

/-- Both halves run at a legal level; READY is high only in RUNNING outside Umbra; and Umbra is a state of a running module,
or of one whose rails have not fallen yet in a module reset. -/
def Pwr.Legal (p : Pwr) : Prop :=
  (∀ h, (p.halves.get h).Legal) ∧ (p.ready = true → p.state = .running ∧ p.umbra = false)
    ∧ (p.umbra = true → p.state = .running ∨ (p.state = .inReset ∧ p.cycling = false))

/-- At most 64 owner generations and 64 counter fuses are burnt, the owner record is of a generation that has been burnt, and
the open session's owner tag is neither 0 nor 0xFF; the firmware banks are in canonical form. -/
def Sec.Legal (c : Sec) : Prop :=
  c.ownerGen ≤ 64 ∧ (∀ o, c.owner = some o → o.gen ≤ c.ownerGen) ∧ (∀ x, c.session = some x → x.tag ≠ 0 ∧ x.tag ≠ 0xFF)
    ∧ c.lastTag ≠ 0xFF ∧ c.fw.wf = true ∧ ∀ k, (c.fw.get k).svn ≤ 64

/-- The invariant of the block. -/
def State.Inv (s : State) : Prop := s.pwr.Legal ∧ s.sec.Legal

/-! When a core instruction issues (R215, R216, R226, R243). -/

/-- Logical core `n` runs on a core and nothing holds back an instruction that reads or writes the s registers `regs` and
reads those of `ctl` as control values: no TAKE or load of s registers on its way concerns it (R216, R240), the word at the
program counter carries no flipped bit (R243), and no control value or flow register is poisoned (R226). -/
structure Dev.CanIssue (d : Dev) (core n : Nat) (w : IWord) (regs ctl : List Nat) : Prop where
  runner : d.runner core = some n
  free : (d.core core).interlocked (regs ++ flowRegs w) = false
  once : d.ms.flip1.get (imemFlip core (d.lc n).pc) = false
  word : d.ms.flip2.get (imemFlip core (d.lc n).pc) = false
  clean : ∀ r ∈ ctl ++ (flowRegs w).filter (fun r => !(wDsts w).contains r), (d.lc n).sPoison.get r = false

/-- The logical core with one more instruction issued. -/
def LCore.counted (l : LCore) : LCore := { l with seq := l.seq + 1 }

/-- The device with one more instruction of a logical core issued: the checks of an instruction see this state. -/
def Dev.counting (d : Dev) (n : Nat) : Dev := d.setLc n (d.lc n).counted

/-- The device with an instruction of a logical core issued and its program counter moved by the flow field (R239). -/
def Dev.stepping (d : Dev) (n : Nat) (w : IWord) : Dev := d.setLc n ((d.lc n).counted.flow w)

/-- The instruction that a logical core issues next, as its queue entries name it. -/
def LCore.issuer (l : LCore) (n : Nat) : Issuer := ⟨n, l.orbit, l.seq, l.pc⟩

/-- The command at the head of an engine's queue is `c`, of an OP, and nothing holds it back: the engine runs, no command of its
die stands before it in the order of R156, and no failed or repeated check is open (R144, R149, R156, R471, R497). -/
structure Dev.ComaReady (d : Dev) (g op : Nat) (c : ComaCmd) : Prop where
  head : ∃ rest, (d.coma g).queue = c :: rest
  op : hOp c.hdr = op
  on : (d.coma g).fenced = false ∧ (d.coma g).retired = false
  turn : d.seqWait g c = false
  sound : (d.health.get (unitComa g)).failedOrbit = false
  fresh : (d.coma g).pendingRepeat = false

/-! When a host command runs at once (R505, R518, R521, R530, R550). -/

/-- A host command as it waits: fetched, and not checked yet. -/
def hostCmd (p q : Fin 2) (h : W32) (e : Entry64) : WaitCmd := ⟨p, q, cmdHandle p q h, e, false⟩

/-- The same once its checks have passed. -/
def hostRun (p q : Fin 2) (h : W32) (e : Entry64) : WaitCmd := { hostCmd p q h e with checked := true }

/-- A command is fetched over a port that is UP, no other command waits, and it passes every check: the half is not fenced, the
command is exempt where no session is open and carries its MAC where one is, its form is right, and the module is awake or
takes the command in Umbra. -/
structure State.Fetches (s : State) (p q : Fin 2) (h : W32) (e : Entry64) : Prop where
  up : (s.port p).state = 2
  alone : s.hst.waiting = []
  free : s.resetPending (qKey p q) = false
  fence : s.hostFenced e = false
  form : eReservedZero e = true ∧ eInRange e = true
  session : match s.sec.session with
    | none => eExempt e = true
    | some x => x.mac (qKey p q) (x.cmdNumber.get (qKey p q)) e = macOf e
  awake : s.pwr.umbra = true → eAlways e = true

/-- The state in which a fetched command runs: the adapter holds its handle, and its queue's CMD_NUMBER has counted it. -/
def State.taken (s : State) (p q : Fin 2) (h : W32) (e : Entry64) : State :=
  { s with
    hst := { (s.carried (hostCmd p q h e)).hst with waiting := [hostCmd p q h e] }
    sec := { s.sec with session := s.sec.session.map (fun x => { x with
      cmdNumber := x.cmdNumber.set (qKey p q) (x.cmdNumber.get (qKey p q) + 1) }) } }

/-- The state with no command waiting. -/
def State.noneWaiting (s : State) : State := { s with hst := { s.hst with waiting := [] } }

/-! What a command can reach. -/

/-- The parts of the block that a command can change. -/
inductive Touch where
  /-- The dies, their memories and what they report. -/
  | dies
  /-- Everything but power, security and the queue. -/
  | services
  /-- Everything but the queue. -/
  | module
deriving DecidableEq, Repr

/-- What each command can reach. -/
def touches (i : Instr) : Touch :=
  match i with
  | .wload _ _ => .dies
  | .shadowSetValid _ => .dies
  | .wswap _ _ => .dies
  | .weightSetExchange _ => .dies
  | .stream _ _ => .dies
  | .arrayStep _ => .dies
  | .mergeDelivery _ => .dies
  | .windowDrain _ _ => .dies
  | .checkRepeat _ _ => .dies
  | .streamComplete _ => .dies
  | .drain _ _ => .dies
  | .vopVector _ _ _ => .dies
  | .vopScalar _ _ => .dies
  | .move _ _ => .dies
  | .moveToSreg _ _ => .dies
  | .mcast _ _ => .dies
  | .mcastMemberDelivery _ _ => .dies
  | .dmake _ _ => .dies
  | .gather _ _ => .dies
  | .scatter _ _ => .dies
  | .merge _ _ => .dies
  | .take _ _ => .dies
  | .takeResult _ => .dies
  | .signal _ _ => .dies
  | .signalArrival _ => .dies
  | .wait _ _ => .dies
  | .fence _ _ => .dies
  | .checkArray _ _ => .dies
  | .checkRegion _ _ => .dies
  | .checkImem _ _ => .dies
  | .ctxsaveYield _ _ => .dies
  | .ctxsaveArea _ _ => .dies
  | .ctxrestore _ _ => .dies
  | .halt _ _ => .dies
  | .counterBankReload _ _ => .dies
  | .gatherRows _ _ => .dies
  | .gatherSeq _ _ => .dies
  | .gatherCols _ _ => .dies
  | .route _ _ => .dies
  | .seqload _ _ => .dies
  | .scatterRows _ _ => .dies
  | .scatterSlot _ _ => .dies
  | .scatterCols _ _ => .dies
  | .mergeBind _ _ => .dies
  | .mergeUnbind _ _ => .dies
  | .slotsum _ _ => .dies
  | .audit _ _ => .dies
  | .auditClose _ _ => .dies
  | .msuListStart _ _ => .dies
  | .update _ _ => .dies
  | .updateVec _ _ => .dies
  | .smul _ _ => .dies
  | .updatePass2 _ _ => .dies
  | .normDeadline => .services
  | .orbitStart => .module
  | .orbitEnd => .services
  | .orbitCompletion => .module
  | .linkTick _ => .services
  | .sendStart _ _ => .services
  | .dataFrame _ _ _ => .services
  | .trailerFrame _ _ _ => .services
  | .retryFrame _ _ _ => .services
  | .beDataFrame _ _ _ => .services
  | .beTrailerFrame _ _ _ => .services
  | .transferMissed _ _ => .services
  | .regionRelease _ _ => .services
  | .controlSlot => .module
  | .timeMarker _ _ => .services
  | .timeHoldover => .services
  | .timeLost => .services
  | .linkUp _ _ => .services
  | .linkTrainingFail _ => .services
  | .linkDown _ => .services
  | .keyx _ _ => .services
  | .vote _ _ => .services
  | .void _ _ => .services
  | .retract _ _ => .services
  | .commit _ _ => .services
  | .bucketStage _ => .services
  | .encodeCompare _ _ _ _ => .services
  | .contribReceive _ _ => .services
  | .correctReceive _ _ => .services
  | .reducedReceive _ _ => .services
  | .normRecordReceive _ _ => .services
  | .bucketFinalise _ _ => .services
  | .voteTick => .services
  | .voteClose => .services
  | .coreWatchdog _ => .module
  | .comaWatchdog _ _ => .module
  | .msuWatchdog _ _ => .module
  | .cpWatchdog _ => .module
  | .cpHeartbeat _ => .services
  | .halfHeartbeat _ => .services
  | .separation => .module
  | .domainDrainEnd _ _ => .module
  | .domainResetComplete _ => .module
  | .escalation => .module
  | .hotWindow _ => .services
  | .healthWindowExpiry _ => .dies
  | .healthFlush => .dies
  | .errorRecordDelivery _ => .services
  | .openKey _ _ _ _ => .module
  | .openSecret _ _ _ _ => .module
  | .claim _ _ _ _ => .module
  | .close _ _ _ _ => .module
  | .rotate _ _ _ _ => .module
  | .release _ _ _ _ => .module
  | .loadPlan _ _ _ _ => .module
  | .startOrbits _ _ _ _ => .module
  | .writeStepSize _ _ _ _ => .module
  | .memTransferWrite _ _ _ _ => .module
  | .memTransferRead _ _ _ _ => .module
  | .queryIdentity _ _ _ _ => .module
  | .querySpdm _ _ _ _ => .module
  | .queryState _ _ _ _ => .module
  | .queryRegisters _ _ _ _ => .module
  | .queryHealth _ _ _ _ => .module
  | .queryErrors _ _ _ _ => .module
  | .resetDomain _ _ _ _ => .module
  | .enterUmbra _ _ _ _ => .module
  | .leaveUmbra _ _ _ _ => .module
  | .sqDoorbell _ _ _ _ => .services
  | .cqHeadWrite _ _ _ => .services
  | .queueEnable _ _ _ _ _ => .services
  | .completionRecord _ => .services
  | .efmusPortUp _ => .services
  | .efmusPortDown _ => .services
  | .portLinkLost _ => .services
  | .resetHoldTimeout _ => .services
  | .setCap _ => .module
  | .emergencyCap _ => .module
  | .setHealth _ _ _ => .services
  | .setWatchdog _ _ _ _ => .services
  | .unitReturn _ _ => .services
  | .debugToken _ => .module
  | .debugExpiry => .module
  | .wake => .module
  | .moduleReset => .module
  | .readCrash _ => .services
  | .readErrors _ => .services
  | .regWrite _ _ _ => .module
  | .satCountClear _ => .services
  | .hotClear _ => .services
  | .segFaultClear _ => .services
  | .spdmRequest _ => .module
  | .firmwareUpdate _ _ _ => .module
  | .inputOn => .module
  | .railRelease => .module
  | .primaryClaim _ _ => .services
  | .secureBoot => .module
  | .powerUpReady => .module
  | .pwrEnRise => .module
  | .powerDown => .module
  | .brownOut => .module
  | .overvoltage => .module
  | .resetInN => .module
  | .railCycleDone => .module
  | .powerControlTick _ _ _ _ => .module
  | .budgetDivide _ _ => .module
  | .thermalTrip => .module
  | .coolingIdChange _ => .module
  | .moveCompletion _ => .dies
  | .vopCompletion _ => .dies
  | .idleFrame _ _ => .services
  | .resetInNRise => .module
  | .eventAcknowledge => .services

end Sys2Proof.Machine
end

