-- ==== Sys2Proof/Certificates/Slice0/Obligations.lean ====
section
/-! DEFINITION. The statements for the provers. -/
open Sys2Proof Sys2Proof.Machine

/-! ### Core instructions -/

/-- WLOAD, WSWAP, STREAM, DRAIN and CHECK of the array complete their issue (R244, R247, R248, R254, R282): with room in the
array queue and the issue checks passed, the entry with its operands read goes to the end of the queue, the instruction is
counted, the flow field moves the program counter (R239), and the array queue advances. -/
def Obligations.ArrayInstructionsIssue : Prop :=
  ∀ (s : State) (core : Fin 128) (n : Nat) (w : IWord), (s.dev.core core).arrayQ.length < 8 →
    let d := s.dev
    let l := d.lc n
    let who := l.issuer n
    let ok (checks : List (Bool × Byte)) (regions : List (View × Bool)) : Prop :=
      firstFail checks = none ∧ issueFault (d.counting n) (.core core) regions = none
    let queued (e : ArrayEntry) : State := s.mapDev (fun d => ((d.stepping n w).enqueue core e).after core)
    (wOpcode w = opWload → d.CanIssue core n w [wlTsreg w] [] →
      ok (wloadChecks (d.counting n) core l.counted w) [(l.view (wlWdesc w), false)] →
      exec (.wload core w) s = .next (queued (mkEntry who w (l.reg (wlTsreg w)) 0 (l.sPoison.get (wlTsreg w)) (l.desc (wlWdesc w))
        (if wlRdescEn w then l.desc (wlRdesc w) else 0) 0)))
    ∧ (wOpcode w = opWswap → d.CanIssue core n w [] [] →
      exec (.wswap core w) s = .next (queued (mkEntry who w 0 0 false 0 0 0)))
    ∧ (wOpcode w = opStream → d.CanIssue core n w [stTsreg w, stShapeReg w] [stShapeReg w] →
      ok (streamChecks (d.counting n) core l.counted w) (streamRegions l.counted w) →
      exec (.stream core w) s = .next (queued (mkEntry who w (l.reg (stTsreg w)) (l.reg (stShapeReg w)) (l.sPoison.get (stTsreg w))
        (l.desc (stAdesc w)) (if stAcc w = 3 then 0 else l.desc (stPdesc w))
        (if stAcc w ≥ 2 && !stHandoff w then l.desc (stOdesc w) else 0))))
    ∧ (wOpcode w = opDrain → d.CanIssue core n w (if drReadsPreg w then [drPreg w] else []) [] →
      firstFail (drainChecks (d.counting n) core l.counted w) = none → drainFault (d.counting n) core l.counted w = none →
      exec (.drain core w) s = .next (queued (mkEntry who w (if drReadsPreg w then l.reg (drPreg w) else 0) 0
        (drReadsPreg w && l.sPoison.get (drPreg w)) (if drBiasEn w then l.desc (drBdesc w) else 0)
        (if drSave w = 0 then 0 else l.desc (drSdesc w)) (if drTableEn w then l.desc (drTdesc w) else 0))))
    ∧ (wOpcode w = opCheck → ckUnit w = 0 → d.CanIssue core n w [] [] →
      exec (.checkArray core w) s = .next (queued (mkEntry who w 0 0 false 0 0 0)))

/-- VOP, MOVE and MCAST over tensors, and a MOVE into s registers, complete their issue (R257, R265, R267, R269): with room in
their queue and the issue checks passed, the entry with its operands read goes to the end of the queue, and the queue
advances. A load of s registers with a flow condition has its flow tested when the registers are there (R214, R240). -/
def Obligations.MoveAndVectorInstructionsIssue : Prop :=
  ∀ (s : State) (core : Fin 128) (n : Nat) (w : IWord),
    let d := s.dev
    let l := d.lc n
    let who := l.issuer n
    let ok (checks : List (Bool × Byte)) (regions : List (View × Bool)) : Prop :=
      firstFail checks = none ∧ issueFault (d.counting n) (.core core) regions = none
    (∀ fail : Option Nat, wOpcode w = opVop → vpScalar w = false → (d.core core).vecQ.length < 8 →
      d.CanIssue core n w (if usesS (vpFunc w) then [vpSreg w] else []) [] →
      ok (vopChecks (d.counting n) l.counted w) (vopRegions l.counted w) →
      exec (.vopVector core w fail) s = .next (s.mapDev (fun d => (((d.stepping n w).updCore core (fun c => { c with vecQ := c.vecQ ++ [
        { who := who, word := w, sval := l.reg (vpSreg w), sPoison := usesS (vpFunc w) && l.sPoison.get (vpSreg w)
          dd := l.desc (vpDst w), da := if vpHandoff w then 0 else l.desc (vpA w)
          db := if usesB (vpFunc w) then l.desc (vpB w) else 0, dc := if usesC (vpFunc w) then l.desc (vpC w) else 0
          failGroup := fail, rows := 0, done := false, held := false, status := stDone }] })).vpump core).after core)))
    ∧ (wOpcode w = opMove → mvToSreg w = false → (d.core core).moveQ.length < 8 → d.CanIssue core n w [] [] →
      ok (moveChecks (d.counting n) l.counted w) [(l.view (mvDsrc w), false), (l.view (mvDdst w), true)] →
      exec (.move core w) s = .next (s.mapDev (fun d => (((d.stepping n w).pushMove core
        (mkMove who w (l.desc (mvDsrc w)) (l.desc (mvDdst w)) [])).mpump core).after core)))
    ∧ (wOpcode w = opMove → mvToSreg w = true → (d.core core).moveQ.length < 8 → d.CanIssue core n w (mvRegs w) [] →
      (∀ r ∈ flowRegs w, l.sPoison.get r = false) → firstFail (sregChecks l.counted w) = none →
      segCheck (d.counting n) (.core core) (l.view (mvDsrc w)).seg true false ((l.view (mvDsrc w)).firstByte (d.counting n))
        (8 * (mvNwords w + 1)) = none →
      exec (.moveToSreg core w) s = .next (s.mapDev (fun d => (((if wCond w = 0 then d.stepping n w else d.counting n).pushMove core
        (mkMove who w (l.desc (mvDsrc w)) 0 [])).mpump core).after core)))
    ∧ (wOpcode w = opMcast → (d.core core).moveQ.length < 8 → d.CanIssue core n w [] [] →
      ok (mcastChecks (d.counting n) l.counted w) [(l.view (mcDsrc w), false), (l.view (mcDdst w), true)] →
      exec (.mcast core w) s = .next (s.mapDev (fun d => (((d.stepping n w).pushMove core
        (mkMove who w (l.desc (mcDsrc w)) (l.desc (mcDdst w)) (groupMembers d (core / 32) (mcGroup w)))).mpump core).after core)))

/-- GATHER, SCATTER and MERGE submit their command (R274): with room in the queue of the engine that the header names under
the current binding (R144, R211), the command goes to the end of that queue with its operands read, and the submitting
logical core goes on. Nothing else changes. -/
def Obligations.ComaInstructionsSubmit : Prop :=
  ∀ (s : State) (core : Fin 128) (n : Nat) (w : IWord),
    let d := s.dev
    let l := d.lc n
    let g := d.engineOf (core / 32) (hEngine (l.desc (cmHdr w)))
    let c : ComaCmd :=
      { who := l.issuer n, ord := d.comaOrd, hdr := l.desc (cmHdr w), opa := cmOperand l w 0 (cmOpa w)
        opb := cmOperand l w 1 (cmOpb w), opc := cmOperand l w 2 (cmOpc w) }
    let sent : State := s.mapDev (fun d =>
      { d.stepping n w with comaOrd := d.comaOrd + 1 }.updComa g (fun e => { e with queue := e.queue ++ [c] }))
    d.CanIssue core n w [] [] → (d.coma g).queue.length < 16 → (d.coma g).retired = false → (d.coma g).fenced = false →
      (wOpcode w = opGather → firstFail (comaChecks l.counted w 1) = none → exec (.gather core w) s = .next sent)
      ∧ (wOpcode w = opScatter → firstFail (comaChecks l.counted w 2) = none → exec (.scatter core w) s = .next sent)
      ∧ (wOpcode w = opMerge → firstFail (comaChecks l.counted w 3) = none → exec (.merge core w) s = .next sent)

/-- A scalar VOP writes its result and the poison of its sources to its s register (R225, R263), DMAKE writes the descriptor
or header that it makes to its d register (R272), and each then moves the program counter by the flow field, which sees the
result (R214, R239). Nothing else changes. -/
def Obligations.RegisterInstructions : Prop :=
  ∀ (s : State) (core : Fin 128) (n : Nat) (w : IWord),
    let d := s.dev
    let l := d.lc n
    (∀ (v : W64) (q : Bool), wOpcode w = opVop → vpScalar w = true → d.CanIssue core n w (scDst w :: scSources w) [] →
      scalarResult l w = some (v, q) → (q = true → scDst w ∉ flowRegs w) →
      exec (.vopScalar core w) s = .next (s.mapDev (fun d => d.setLc n ((l.counted.setReg (scDst w) v q).flow w))))
    ∧ (∀ r : DReg, wOpcode w = opDmake → d.CanIssue core n w (dmRegs w) (dmRegs w) →
      dmakeResult (d.counting n) core l.counted w = .ok r →
      exec (.dmake core w) s = .next (s.mapDev (fun d => d.setLc n (({ l.counted with d := l.d.set (dmDdst w) r } : LCore).flow w))))

/-- TAKE adds INC to the counter's bank of the orbit and sends the value before to the register (R276, R277); SIGNAL with an
increment sends it on its way to its target (R279), and with a zero from a register sends nothing; WAIT whose count is there
takes it and goes on (R280), and FENCE with nothing of its logical core outstanding goes on (R281). Nothing else changes. -/
def Obligations.SynchronisationInstructions : Prop :=
  ∀ (s : State) (core : Fin 128) (n : Nat) (w : IWord),
    let d := s.dev
    let l := d.lc n
    let c := (d.die (core / 32)).counters.get (tkCounter w)
    let more : Counter := c.put l.orbit (BitVec.ofNat 32 ((c.value l.orbit).toNat + tkInc w))
    let sem := l.sem l.orbit (wtSem w)
    (wOpcode w = opTake → d.CanIssue core n w [tkDst w] [] → (∀ r ∈ flowRegs w, l.sPoison.get r = false) →
      (c.value l.orbit).toNat + tkInc w ≤ 0xFFFFFFFF →
      exec (.take core w) s = .next (s.mapDev (fun d => ((if wCond w = 0 then d.stepping n w else d.counting n).updDie (core / 32)
        (fun k => { k with counters := k.counters.set (tkCounter w) more })).updCore core
        (fun k => { k with takes := k.takes ++ [⟨l.issuer n, tkDst w, c.value l.orbit, w⟩] }))))
    ∧ (wOpcode w = opSignal → d.CanIssue core n w (if sgIncReg w then [sgIncreg w] else []) (if sgIncReg w then [sgIncreg w] else []) →
      sgInRange w = true →
      exec (.signal core w) s = .next (s.mapDev (fun d => if sgAmount l w = 0 then d.stepping n w
        else (d.stepping n w).sendSignal ⟨some (l.issuer n), l.orbit, sgTkind w, sgTnum w, sgSem w, sgAmount l w, 0⟩)))
    ∧ (wOpcode w = opWait → d.CanIssue core n w (if wtCntReg w then [wtCntreg w] else []) (if wtCntReg w then [wtCntreg w] else []) →
      wtAmount l w ≤ sem → wtAmount l w ≠ 0 →
      exec (.wait core w) s = .next (s.mapDev (fun d => d.setLc n ((l.counted.flow w).setSem l.orbit (wtSem w) (sem - wtAmount l w)))))
    ∧ (wOpcode w = opFence → d.CanIssue core n w [] [] → (d.core core).allDone n l.seq = true →
      exec (.fence core w) s = .next (s.mapDev (fun d => d.stepping n w)))

/-- CHECK of a region corrects every word of it that holds one flipped bit and changes no byte of memory (R282, R343); CHECK of
the instruction memory, where no word is uncorrectable, corrects and counts every flipped bit (R243, R282). Each then goes on. -/
def Obligations.CheckInstructions : Prop :=
  ∀ (s : State) (core : Fin 128) (n : Nat) (w : IWord),
    let d := s.dev
    let l := d.lc n
    let v := l.view (ckDreg w)
    let scan := imemScan d.ms.flip1 d.ms.flip2 core 16384
    (wOpcode w = opCheck → ckUnit w = 1 → d.CanIssue core n w [] [] → l.tensorOk (ckDreg w) = true → d.inPad v = true →
      issueFault (d.counting n) (.core core) [(v, false)] = none →
      ∃ t, exec (.checkRegion core w) s = .next t ∧ t.dev.ms.mem = d.ms.mem ∧ t.dev.lc n = l.counted.flow w
        ∧ ∀ a ∈ regionWords (d.counting n) core v, d.ms.flip2.get a = false → t.dev.ms.flip1.get a = false)
    ∧ (wOpcode w = opCheck → ckUnit w = 2 → d.CanIssue core n w [] [] → scan.2 = none →
      exec (.checkImem core w) s = .next (s.mapDev (fun d =>
        { d.stepping n w with ms := { d.ms with flip1 := d.ms.flip1.clear (imemFlip core 0) (imemFlip (core + 1) 0) } }.updCore core
          (fun c => { c with imemCorr := satAdd 0xFFFF c.imemCorr scan.1 }))))

/-- CTXSAVE as a yield goes on at once where no other logical core of its core is ready, and otherwise, once the core is quiet,
saves the logical core and switches (R230, R231); CTXSAVE of an area writes the image there and goes on (R283); CTXRESTORE
gives the core the state of the image (R284); HALT ends the logical core's orbit and gives its core to the next (R285). -/
def Obligations.ContextInstructions : Prop :=
  ∀ (s : State) (core : Fin 128) (n : Nat) (w : IWord), s.dev.CanIssue core n w [] [] →
    let d := s.dev
    let l := d.lc n
    let v := l.view (cxDreg w)
    let a := (ctxAreaOf (d.counting n) v).getD 0
    let yielded := d.setLc n { l.counted.flow w with phase := .yielded }
    let t := (d.counting n).touchRange a (a + ctxSize)
    let loaded : Dev := { t.1 with ms := loadPad t.1.ms a core }
    let saved := saveImage d.ms a core n l.orbit d.plan.digest (24 ≤ core.val % 32) l.counted (d.core core)
    (wOpcode w = opCtxsave → cxAreaEn w = false → (yielded.nextReady core n = none ∨ yielded.nextReady core n = some n) →
      exec (.ctxsaveYield core w) s = .next (s.mapDev (fun d => d.stepping n w)))
    ∧ (∀ m, wOpcode w = opCtxsave → cxAreaEn w = false → yielded.nextReady core n = some m → m ≠ n → (d.core core).quiet = true →
      exec (.ctxsaveYield core w) s = .next (s.mapDev (fun _ => (yielded.saveLc core).schedule core)))
    ∧ (wOpcode w = opCtxsave → cxAreaEn w = true → (d.core core).quiet = true → l.tensorOk (cxDreg w) = true →
      (ctxAreaOf (d.counting n) v).isSome = true → v.wr = true → issueFault (d.counting n) (.core core) [(v, true)] = none →
      exec (.ctxsaveArea core w) s = .next (s.mapDev (fun d => { d.stepping n w with ms := { saved with
        tagged := tagLines saved.tagged (if t2Base ≤ a then (List.range (ctxSize / 128)).map (fun i => a + 128 * i) else []) } })))
    ∧ (wOpcode w = opCtxrestore → (d.core core).allDone n l.seq = true → l.tensorOk (cxDreg w) = true →
      (ctxAreaOf (d.counting n) v).isSome = true → (d.counting n).imageOk a core = true →
      issueFault (d.counting n) (.core core) [(v, false)] = none → t.2 = false →
      exec (.ctxrestore core w) s = .next (s.mapDev (fun _ => ((loaded.updCore core (fun c =>
        (loadCore loaded.ms.mem a c).ownedBy (l.issuer n))).setLc n (l.counted.flow w)).after core)))
    ∧ (wOpcode w = opHalt → (d.core core).allDone n l.seq = true →
      exec (.halt core w) s = .next (s.mapDev (fun d => ((d.setLc n (l.counted.endOrbit .halted)).updCore core
        (fun c => { c with occupied := false })).schedule core)))

/-! ### Events of a core -/

/-- The weight sets: the load in progress ends with the shadow set valid (R79, R81), and the exchange of WSWAP swaps the active
and the shadow set and takes WSWAP from the queue (R77, R78, R247); the array queue then advances. -/
def Obligations.WeightSetEvents : Prop :=
  ∀ (s : State) (core : Fin 128),
    (∀ j, (s.dev.core core).load = some j →
      ∃ d : Dev, exec (.shadowSetValid core) s = .next (s.mapDev (fun _ => d.after core))
        ∧ (d.core core).shadow = j.set ∧ (d.core core).load = none ∧ (d.core core).active = (s.dev.core core).active
        ∧ d.ms.mem = applyWrites s.dev.ms.mem (residueItems core j.set.resArea j.set.resSwizzle j.residue 0))
    ∧ ((s.dev.core core).canExchange = true →
      ∃ d : Dev, exec (.weightSetExchange core) s = .next (s.mapDev (fun _ => d.after core))
        ∧ (d.core core).active = (s.dev.core core).shadow ∧ (d.core core).shadow = (s.dev.core core).active
        ∧ (d.core core).arrayQ = (s.dev.core core).arrayQ.drop 1 ∧ d.ms = s.dev.ms ∧ d.lcs = s.dev.lcs)
    ∧ (∀ t : State, (t.dev.core core).active = (s.dev.core core).shadow → (t.dev.core core).shadow = (s.dev.core core).active →
      (t.dev.core core).canExchange = true →
      ∃ d : Dev, exec (.weightSetExchange core) t = .next (t.mapDev (fun _ => d.after core))
        ∧ (d.core core).active = (s.dev.core core).active ∧ (d.core core).shadow = (s.dev.core core).shadow)

/-- The steps of a STREAM: the array starts the next step (R73), the bound engine delivers the residue of the earliest open one
(R169), the first step whose windows have closed is drained once its check passes (R91), a failing check holds the STREAM and
notes the scope to repeat (R106, R469), and a STREAM whose last step has been written completes (R253). -/
def Obligations.StreamEvents : Prop :=
  ∀ (s : State) (core : Fin 128),
    let d := s.dev
    let c := d.core core
    let p := d.pump core
    let on (r : OpenStep → OpenStep) : Dev := d.setCore core { c with steps := deliverFirst r c.steps }
    (∀ r, p.holding core = false → (p.core core).fenced = false → (p.core core).retired = false → (p.core core).canStep = true →
      nextStarter (p.core core).streams = some r →
      (stFeed r.entry.word = true → exec (.arrayStep core) s = .next (s.mapDev (fun _ => (feedStep p core r).after core)))
      ∧ (stFeed r.entry.word = false →
        exec (.arrayStep core) s = .next (s.mapDev (fun _ => (pushStep (if (actOf p core r r.next).2 = 0 then p
          else p.updCore core (fun c => { c with tsbInexact := satAdd 0xFFFFFFFF c.tsbInexact (actOf p core r r.next).2 }))
          core r r.next (actOf p core r r.next).1 false).after core))))
    ∧ (∀ g, d.boundEngine core = some g → (d.coma g).fenced = false → (d.coma g).retired = false →
      exec (.mergeDelivery core) s = .next (s.mapDev (fun _ => (on (fun x => match findStream x.stream c.streams with
        | some r => deliverAll c.active (viewOf r.entry.da).fmt r.k x (d.mergeEntries core)
        | none => x)).after core)))
    ∧ (∀ x rest r, c.steps = x :: rest → findStream x.stream c.streams = some r → x.isOpen = false → r.held = false →
      c.pendingRepeat = none → c.fenced = false → c.retired = false → (stHandoff r.entry.word = true → c.handoff.length < 8) →
      exec (.windowDrain core .pass) s = .next (s.mapDev (fun d => (drainOut d core r x).after core))
      ∧ ∀ k q, exec (.windowDrain core (.fail k q)) s = .next (s.mapDev (fun d => (d.setCore core (noteFailure c x k q)).settle core)))
    ∧ (∀ r, finishedStream c.streams = some r →
      exec (.streamComplete core) s = .next (s.mapDev (fun d =>
        let d := d.updCore core (fun c => { c with streams := c.streams.drop 1 })
        (if stopsLc r.status then d.complete r.who r.status (unitCore core)
         else d.sigOwn (stSigEn r.entry.word) r.who (stSigSem r.entry.word)).after core)))

/-- The completion of what stands in the other queues: a vector VOP all of whose groups are written (R262), a MOVE that has
copied (R268), the member of an MCAST that receives its copy (R270), and the result of a TAKE, which reaches its register
before its flow is tested (R240, R278). -/
def Obligations.QueueCompletions : Prop :=
  ∀ (s : State) (core : Fin 128),
    let d := s.dev
    let v := d.vpump core
    let m := d.mpump core
    (∀ r rest, (v.core core).vecQ = r :: rest → r.done = true →
      exec (.vopCompletion core) s = .next (s.mapDev (fun _ => (((v.updCore core (fun c => { c with vecQ := c.vecQ.drop 1 })).sigOwn
        (vpSigEn r.word) r.who (vpSigSem r.word)).vpump core).after core)))
    ∧ (∀ r rest, (m.core core).moveQ = r :: rest → r.started = true → isMcast r.word = false →
      exec (.moveCompletion core) s = .next (s.mapDev (fun _ => (((m.popMove core).sigOwn (mvSigEn r.word) r.who
        (mvSigSem r.word)).mpump core).after core)))
    ∧ (∀ (member : Fin 128) r rest, (m.core core).moveQ = r :: rest → isMcast r.word = true → r.started = true →
      let lc := 128 * (core.val / 32) + member.val
      let got (r : MoveRun) : MoveRun := { r with members := r.members.filter (· != lc) }
      let served (d : Dev) : Dev := ((d.updCore core (fun c => { c with moveQ := updMove got c.moveQ })).mpump core).after core
      r.members.contains lc = true →
      (m.runs? lc = true → exec (.mcastMemberDelivery core member) s = .next (s.mapDev (fun _ =>
        served ((m.write (shiftItems (spBase core) (spBase (m.lc lc).phys) r.items) r.poison).arrive
          ⟨some r.who, r.who.orbit, 0, lc, mcMsem r.word, 1, 0⟩))))
      ∧ (m.runs? lc = false → imgHeld m.ms.mem (ctxArea lc) < 16 →
        exec (.mcastMemberDelivery core member) s = .next (s.mapDev (fun _ => served (m.holdDelivery core lc r)))))
    ∧ (∀ t rest, (d.core core).takes = t :: rest →
      exec (.takeResult core) s = .next (s.mapDev (fun d =>
        let d := (d.updCore core (fun c => { c with takes := rest })).updLc t.who.lc (fun l =>
          l.setReg t.dst (t.value.zeroExtend 64) false)
        (if wCond t.word = 0 then d else d.testFlow t.who.lc t.word).settle core)))

/-- A semaphore increment whose release condition holds leaves the increments on their way and reaches its bank (R218, R220),
and the dispatch counters of a die return to INIT in the bank of a parity whose orbit is over on every logical core (R321). -/
def Obligations.SignalAndCounterEvents : Prop :=
  ∀ s : State,
    (∀ (nth : Nat) (g : SigFlight), s.dev.signals[nth]? = some g → s.dev.released g = true →
      exec (.signalArrival nth) s = .next (s.mapDev (fun d => { d with signals := dropNth nth d.signals }.arrive g)))
    ∧ (∀ (die : Fin 4) (parity : Bool) (n : Nat), lastOfParity (boolNat parity) s.dev.runs = some n →
      (∀ i ∈ s.dev.dieCores die, (s.dev.lc i).overWith n = true) →
      exec (.counterBankReload die parity) s = .next (s.mapDev (fun d => d.updDie die (fun k =>
        { k with counters := reloadCells (boolNat parity) k k.counters.cells }))))

/-- CHECK_REPEAT of a core whose failed step passes drains that step and counts a transient (R469, R470); of a group of a vector
VOP, the VOP goes on; of the array, the CHECK completes. -/
def Obligations.CheckRepeatPasses : Prop :=
  ∀ (s : State) (core : Fin 128), (s.dev.core core).fenced = false → (s.dev.core core).retired = false →
    let d := s.dev
    let c := d.core core
    let unit : BitVec 16 := BitVec.ofNat 16 core
    (∀ stream idx r x, c.pendingRepeat = some (.step stream idx) → findStream stream c.streams = some r →
      findStep stream idx c.steps = some x →
      exec (.checkRepeat unit .pass) s = .next (s.mapDev (fun d => (drainOut (d.repeatPassed core idx) core r x).after core)))
    ∧ (∀ g, c.pendingRepeat = some (.group g) →
      exec (.checkRepeat unit .pass) s = .next (s.mapDev (fun d => ((((d.repeatPassed core g).updCore core (fun c =>
        { c with vecQ := updHead (fun r => { r with failGroup := none, held := false }) c.vecQ })).vpump core).after core))))
    ∧ (c.pendingRepeat = some .array →
      exec (.checkRepeat unit .pass) s = .next (s.mapDev (fun d => (((d.repeatPassed core 0).popArray core).pump core).after core)))

/-! ### Coma commands -/

/-- GATHER_ROWS and GATHER_SEQ whose list is in range and whose rows lie in their segments copy the listed rows in list order,
a sentinel as a zero row, with the positions of a sequence beside them, and complete DONE with COUNT the rows (R150, R157); a
FEED command that a STREAM has taken forms its entries and hands them to its core's STREAM (R151, R153). -/
def Obligations.GatherCommands : Prop :=
  ∀ (s : State) (g : Fin 32) (c : ComaCmd),
    let d := s.dev
    let q : Req := .coma g (d.padOf c)
    let ob : Option View := if hOp c.hdr = 0x02 then c.opb.map viewOf else none
    (∀ l : List (Nat × Nat), hFeed c.hdr = false → hCount c.hdr ≠ 0 → c.aligned = true → rowsOk c.a c.c = true → (∀ o ∈ ob, o.wr = true) →
      gatherIndices d q (g / 8) c = .ok l →
      (∀ e ∈ l, e.1 = sentinel ∨ (e.1 < c.a.comaRows ∧ rowFault d q c.a false e.1 = none)) →
      (∀ i < l.length, rowFault d q c.c true i = none ∧ ∀ o ∈ ob, regionFault d q o true (4 * i) 4 = none) →
      let x := d.touch (gatherAddrs d g c l)
      let row (d : Dev) (e : (Nat × Nat) × Nat) : Dev :=
        d.write (copyRow d q.pad c.a c.c (if e.1.1 = sentinel then none else some e.1.1) e.2
          ++ (match ob with
            | some o => regionItems d q.pad o (4 * e.2) 4 e.1.2
            | none => [])) x.2
      let done : State := s.mapDev (fun _ => (l.zipIdx.foldl row x.1).comaDone g c stDone none l.length)
      (d.ComaReady g 0x01 c → exec (.gatherRows g false) s = .next done)
      ∧ (d.ComaReady g 0x02 c → exec (.gatherSeq g false) s = .next done))
    ∧ (∀ f, hFeed c.hdr = true → (d.coma g).feed = some f → f.formed = false →
      let core := 32 * (g.val / 8) + 24 + g.val % 8
      let fed : State := s.mapDev (fun d => (feedOut (feedIn (d.updComa g (fun e => { e with feed := some { f with formed := true } }))
        core) core).after core)
      (d.ComaReady g 0x01 c → exec (.gatherRows g false) s = .next fed)
      ∧ (d.ComaReady g 0x02 c → exec (.gatherSeq g false) s = .next fed))

/-- SCATTER_ROWS writes each source row to the listed destination row (R162), SCATTER_SLOT each source row times its gate into
the slot of its token (R163), and SLOTSUM the sums of the slots, which it clears (R164); with a sound list and rows inside their
segments each completes DONE with COUNT the rows. -/
def Obligations.ScatterCommands : Prop :=
  ∀ (s : State) (g : Fin 32) (c : ComaCmd), hCount c.hdr ≠ 0 → c.aligned = true →
    let d := s.dev
    let h := c.hdr
    let q : Req := .coma g (d.padOf c)
    let done (d : Dev) (n : Nat) : State := s.mapDev (fun _ => d.comaDone g c stDone none n)
    (∀ l : List (Nat × Nat), d.ComaReady g 0x11 c → rowsOk c.a c.c = true → readList d q c.b h = .ok l →
      offending [] (l.map (fun e => (e.1, decide (c.c.comaRows ≤ e.1)))) = none →
      (∀ i < l.length, rowFault d q c.a false i = none) → (∀ e ∈ l, e.1 ≠ sentinel → rowFault d q c.c true e.1 = none) →
      let x := d.touch (listAddrs d q.pad c.b h ++ rowsAddrs d q.pad c.a l.length)
      let row (d : Dev) (e : (Nat × Nat) × Nat) : Dev :=
        if e.1.1 = sentinel then d else d.write (copyRow d q.pad c.a c.c (some e.2) e.1.1) x.2
      exec (.scatterRows g false) s = .next (done (l.zipIdx.foldl row x.1) l.length))
    ∧ (∀ l : List (Nat × Nat), d.ComaReady g 0x12 c → c.a.fmt = 0 → c.a.layout = 0 → slotBuf c.c (hSlots h) = true →
      c.a.comaLen = c.c.inner → readList d q c.b h = .ok l →
      offending [] (l.map (fun e => (8 * e.1 + e.2 / 2 ^ 29 % 8, decide (hSlots h ≤ e.2 / 2 ^ 29 % 8) || decide (c.c.comaRows ≤ e.1)))) = none →
      (∀ i < l.length, rowFault d q c.a false i = none) → (∀ e ∈ l, rowFault d q c.c true e.1 = none) →
      let x := d.touch (listAddrs d q.pad c.b h ++ rowsAddrs d q.pad c.a l.length)
      let gate (e : Nat) : W32 := BitVec.ofNat 32 (e / 2 ^ 32)
      let row (d : Dev) (e : (Nat × Nat) × Nat) : Dev := d.write (storeVals d q.pad c.c (realVals c.c ((List.range c.a.comaLen).map (fun k =>
        (slotPos k (e.1.2 / 2 ^ 29 % 8) e.1.1, f32 (mulF32 (gate e.1.2) (BitVec.ofNat 32 (readPos d q.pad c.a (c.a.comaPos e.2 k)).1))))))).1 x.2
      exec (.scatterSlot g false) s = .next (done (l.zipIdx.foldl row x.1) l.length))
    ∧ (d.ComaReady g 0x23 c → slotBuf c.a (hSlots h) = true → c.c.layout = 0 → c.c.wr = true → c.c.comaLen = c.a.inner →
      hCount h ≤ c.a.comaRows → (∀ i < hCount h, rowFault d q c.a true i = none ∧ rowFault d q c.c true i = none) →
      let x := d.touch (rowsAddrs d q.pad c.a (hCount h))
      let put (d : Dev) (v : View) (l : List (List Nat × FVal)) : Dev := d.write (storeVals d q.pad v (realVals v l)).1 x.2
      let row (d : Dev) (i : Nat) : Dev :=
        let d' := put d c.c ((List.range c.c.comaLen).map (fun k => (c.c.comaPos i k, f32 (slotSumAt d q.pad c.a (hSlots h) i k))))
        put d' c.a ((List.range (hSlots h)).map (fun j => (List.range c.a.inner).map (fun k => (slotPos k j i, FVal.fin false 0 0)))).flatten
      exec (.slotsum g false) s = .next (done ((List.range (hCount h)).foldl row x.1) (hCount h)))

/-- GATHER_COLS packs the selected columns, of a native source (the last tile filled with zero columns) or a compressed one
(R165), SCATTER_COLS spreads its columns over the selected ones and writes zeros in the others (R166), and ROUTE writes the route
lists of its experts, counting each claim that it drops (R160, R161). -/
def Obligations.ColumnAndRouteCommands : Prop :=
  ∀ (s : State) (g : Fin 32) (c : ComaCmd), hCount c.hdr ≠ 0 → c.aligned = true →
    let d := s.dev
    let h := c.hdr
    let q : Req := .coma g (d.padOf c)
    let sel := selection d q.pad c.b (hCount h)
    let done (d : Dev) (st : Byte) (n : Nat) : State := s.mapDev (fun _ => d.comaDone g c st none n)
    (d.ComaReady g 0x03 c → c.a.fmt = c.c.fmt → c.a.layout = c.c.layout → c.a.layout ≠ 1 → c.a.rank = 2 → c.c.rank = 2 → c.c.wr = true →
      hCount h ≤ (c.a.dims.getD 1 ⟨1, 0, 0, 0⟩).view → c.a.inner = c.c.inner → regionFault d q c.b false 0 ((hCount h + 7) / 8) = none →
      viewFault d q c.a false = none → viewFault d q c.c true = none →
      (c.a.layout ≠ 2 →
        let x := d.touch (selAddrs d q.pad c.b (hCount h) ++ (sel.map (fun n =>
          ((List.range c.a.comaLen).map (fun j => readAddrs d q.pad c.a (c.a.comaPos n j))).flatten)).flatten)
        let items := ((List.range ((sel.length + 511) / 512 * 512)).map (fun j => copyRow x.1 q.pad c.a c.c sel[j]? j)).flatten
        exec (.gatherCols g false) s = .next (done (x.1.write items x.2) stDone sel.length))
      ∧ (c.a.layout = 2 → packSound d q.pad c.a sel = true →
        let x := d.touch (selAddrs d q.pad c.b (hCount h) ++ (sel.map (fun n => tileColAddrs d q.pad c.a n c.a.inner)).flatten)
        let p := packTiles x.1 q.pad c.a c.c sel
        p.1 = true → exec (.gatherCols g false) s = .next (done (x.1.write p.2 x.2) stDone sel.length)))
    ∧ (d.ComaReady g 0x13 c → c.a.fmt = 0 → c.a.layout = 0 → c.c.layout = 0 → c.c.wr = true → c.a.rows = c.c.rows → hCount h ≤ c.c.inner →
      regionFault d q c.b false 0 ((hCount h + 7) / 8) = none → viewFault d q c.a false = none → viewFault d q c.c true = none →
      let x := d.touch (selAddrs d q.pad c.b (hCount h) ++ ((List.range c.a.rows).map (fun m =>
        ((List.range sel.length).map (fun j => readAddrs d q.pad c.a (c.a.posOf m j))).flatten)).flatten)
      let vals := ((List.range c.c.rows).map (fun m => (List.range (hCount h)).map (fun n =>
        (c.c.posOf m n, if selected x.1 q.pad c.b n then
          f32 (BitVec.ofNat 32 (readPos x.1 q.pad c.a (c.a.posOf m (sel.filter (· < n)).length)).1) else FVal.fin false 0 0)))).flatten
      exec (.scatterCols g false) s = .next (done (x.1.write (storeVals x.1 q.pad c.c (realVals c.c vals)).1 x.2) stDone sel.length))
    ∧ (d.ComaReady g 0x04 c → 1 ≤ hExperts h → hExperts h ≤ 256 → 1 ≤ hTopk h → hTopk h ≤ 8 → 1 ≤ hCapacity h → hTopk h ≤ hExperts h →
      c.a.fmt = 0 → c.a.layout = 0 → c.a.inner = hExperts h → hCount h ≤ c.a.rows → hExperts h * routeStride (hCapacity h) ≤ viewBytes d c.c →
      c.c.wr = true → viewFault d q c.a false = none → regionFault d q c.c true 0 (hExperts h * routeStride (hCapacity h)) = none →
      let x := d.touch (((List.range (hCount h)).map (fun i =>
        ((List.range (hExperts h)).map (fun e => readAddrs d q.pad c.a (c.a.posOf i e))).flatten)).flatten)
      let r := makeClaims (hCapacity h) (routeClaims x.1 q.pad c.a h) (Bank.const [], Bank.const 0)
      let drops := r.2.cells.foldl (fun a k => a + k.2) 0
      exec (.route g false) s = .next (done ((x.1.write (routeItems x.1 q.pad c.c (hCapacity h) r (hExperts h)) x.2).updComa g (fun e =>
        { e with routeDrops := satAdd 0xFFFFFFFF e.routeDrops drops })) (if drops = 0 then stDone else stSkips)
          (r.1.cells.foldl (fun a k => a + k.2.length) 0)))

/-- SEQLOAD loads the sequence table of its die with the 2,048 entries of its operand (R155, R156); MERGE_BIND binds a core to
its engine with its share of the store, and MERGE_UNBIND unbinds it once the core has no step in flight (R167). -/
def Obligations.TableCommands : Prop :=
  ∀ (s : State) (g : Fin 32) (c : ComaCmd),
    let d := s.dev
    let q : Req := .coma g (d.padOf c)
    let e := d.coma g
    let p := d.boundCore (g / 8) c.hdr
    let done (d : Dev) (n : Nat) : State := s.mapDev (fun _ => d.comaDone g c stDone none n)
    let x := d.touch (regionAddrs d q.pad c.a 0 32768)
    let l := (List.range 2048).map (fun i => BitVec.ofNat 128 (regionNum x.1 q.pad c.a (16 * i) 16))
    (d.ComaReady g 0x05 c → c.aligned = true → regionFault d q c.a false 0 32768 = none → seqBad l = false →
      exec (.seqload g false) s = .next (done (x.1.updDie (g / 8) (fun k => { k with seqTable := (Bank.const 0).putList 0 l })) 2048))
    ∧ (d.ComaReady g 0x21 c → e.bindings.length < 4 → storeUsed e.bindings + 2 * hShare c.hdr ≤ 131072 → hShare c.hdr ≤ 65536 →
      (∀ j < 8, ∀ b ∈ (d.coma (8 * (g / 8) + j)).bindings, b.core ≠ p) →
      exec (.mergeBind g false) s = .next (done (d.updComa g (fun e => { e with bindings := e.bindings ++ [⟨p, hShare c.hdr, none, none⟩] })) 0))
    ∧ (d.ComaReady g 0x22 c → (d.core p).steps = [] →
      exec (.mergeUnbind g false) s = .next (done (d.updComa g (fun e => { e with bindings := e.bindings.filter (fun b => b.core != p) })) 0))

/-- AUDIT samples its columns and adds the counts of the batch to its slot and to its engine's counters (R171, R172), and
AUDIT_CLOSE writes the audit record of the sums over the four dies and clears the slot on each (R173); with ENABLED clear
neither does anything. -/
def Obligations.AuditCommands : Prop :=
  ∀ (s : State) (g : Fin 32) (c : ComaCmd),
    let d := s.dev
    let h := c.hdr
    let q : Req := .coma g (d.padOf c)
    let a := hParam h
    let p := auditParams d a
    let w := c.a
    let x := c.c
    let last := hColFirst h + hColCount h
    let done (d : Dev) (n : Nat) : State := s.mapDev (fun _ => d.comaDone g c stDone none n)
    paramFault d q false a 64 = none → a % 64 = 0 → p.reserved = false → p.shift ≤ 16 →
    (d.ComaReady g 0x24 c →
      (p.enabled = false → exec (.audit g false) s = .next (done d 0))
      ∧ (p.enabled = true → c.aligned = true → (isScaled w.fmt = true ∧ isScaled x.fmt = true ∨ is16 w.fmt = true ∧ is16 x.fmt = true) →
        w.layout ≠ 1 → x.layout = 0 → last ≤ (w.dims.getD 1 ⟨1, 0, 0, 0⟩).view → p.passRows ≠ 3 → (w.layout = 2 ↔ p.passRows = 2) →
        p.chunkRows % p.rows = 0 → viewFault d q w false = none → viewFault d q x false = none →
        regionFault d q c.b false 0 ((last + 7) / 8) = none → (∀ r ∈ auditRuns p w.inner last, paramFault d q false r.1 r.2 = none) →
        let cols := (List.range (hColCount h)).map (hColFirst h + ·)
        let hit := cols.filter (fun n => !selected d q.pad c.b n && p.sampled n)
        let t := (d.touch (paramAddrs a 64 ++ selAddrs d q.pad c.b last ++ (hit.map (fun n =>
          ((List.range x.rows).map (fun m => dotAddrs d q.pad w x n m w.inner)).flatten)).flatten)).1
        let counts := cols.map (auditColumn t q.pad p c.b w x)
        exec (.audit g false) s = .next (done ((t.updDie (g / 8) (fun k => { k with
          slots := counts.foldl (fun b n => b.upd (hAuditSlot h) (·.add n)) k.slots })).updComa g (fun e => { e with
            auditPairs := satAdd 0xFFFFFFFF e.auditPairs ((counts.map (·.2.2.1)).foldl (· + ·) 0)
            auditHits := satAdd 0xFFFFFFFF e.auditHits ((counts.map (·.2.2.2.1)).foldl (· + ·) 0) })) hit.length)))
    ∧ (d.ComaReady g 0x25 c →
      (p.enabled = false → exec (.auditClose g false) s = .next (done d 0))
      ∧ (p.enabled = true → p.record % 32 = 0 → paramFault d q true p.record 32 = none →
        let t := d.touch (paramAddrs a 64)
        let d' := t.1.write (wBytes (t1Base + p.record) 32 (auditRecord p (slotTotal t.1 (hAuditSlot h)) c.who.orbit)) t.2
        exec (.auditClose g false) s = .next (done ((List.range 4).foldl (fun d k => d.updDie k (fun k =>
          { k with slots := k.slots.set (hAuditSlot h) AuditSlot.zero })) d') 1)))

/-! ### Memory-side units and orbits -/

/-- A command list starts once its semaphore holds THRESHOLD (R366); UPDATE and UPDATE_VEC run pass 1: they write the partial
norms of the gradient to the norm record and add the command to those that have ended pass 1, and a command with a write target
in a FROZEN segment counts its elements as skipped and writes partials of zero (R373, R374, R388); SMUL writes its products and
signals (R397). Each then moves its list on with status DONE. -/
def Obligations.MemorySideUnitCommands : Prop :=
  ∀ (s : State) (u sem : Fin 16) (q c : Nat), (s.dev.msu u).fenced = false → (s.dev.msu u).dead = false →
    let d := s.dev
    let m := d.msu u
    let req : Req := .msu u
    let e := d.ucmd c
    let l := d.msuList u sem
    (l.count ≠ 0 → m.ran.get sem = false → l.threshold ≤ (m.sems.get (msuSemKey m.orbit sem)).toNat →
      exec (.msuListStart u sem) s = .next (s.mapDev (fun d => d.updMsu u (fun m => { m with
        ran := m.ran.set sem true, phase := if m.phase = 0 then 1 else m.phase, runs := m.runs ++ [⟨sem, l.first, l.count⟩] }))))
    ∧ (m.pass2 = [] → m.repeatUpd = false →
      let o := d.updOps e
      let a := d.normAddr u c
      firstRunFault d req true o.targets = none → firstRunFault d req false [o.g] = none →
      (frozenFault d o.targets = none →
        let t := d.touch (d.pass1Addrs u c o (d.visited o))
        let d1 := if t.2 then (t.1.updMsu u (fun m => { m with voids := true })).voteVoid (t.1.msu u).orbit rsPoison (unitMsu u) 0 else t.1
        let x := d1.partials u c o (d.visited o)
        let a := d1.normAddr u c
        let d2 := (d1.write (wBytes (a + 16) 8 x.1.toNat ++ wBytes (a + 24) 8 x.2.1.toNat ++ wBytes (a + 32) 8 x.2.2.toNat
          ++ (if ueRule (d1.ucmd c) = 3 then d1.factorSums a o else [])) t.2).updMsu u (fun m => { m with
            parts := ((m.parts.set (3 * c) x.1).set (3 * c + 1) x.2.1).set (3 * c + 2) x.2.2, passed := m.passed ++ [c] })
        let done : State := s.mapDev (fun _ => (d2.msuDone u q c stDone).tryOwnRec)
        (d.headCmd opUpdate m.runs = some (q, c) → exec (.update u false) s = .next done)
        ∧ (d.headCmd opUpdateVec m.runs = some (q, c) → exec (.updateVec u false) s = .next done))
      ∧ ((frozenFault d o.targets).isSome = true → d.msuPlan.strict = false →
        let d2 := (d.write (wBytes (a + 16) 8 0 ++ wBytes (a + 24) 8 0 ++ wBytes (a + 32) 8 0) false).updMsu u (fun m => { m with
          parts := ((m.parts.set (3 * c) 0).set (3 * c + 1) 0).set (3 * c + 2) 0
          skips := satAdd 0xFFFFFFFF m.skips (d.visited o).length, skipped := m.skipped.set c true, passed := m.passed ++ [c] })
        let done : State := s.mapDev (fun _ => (d2.msuDone u q c stDone).tryOwnRec)
        (d.headCmd opUpdate m.runs = some (q, c) → exec (.update u false) s = .next done)
        ∧ (d.headCmd opUpdateVec m.runs = some (q, c) → exec (.updateVec u false) s = .next done)))
    ∧ (d.headCmd opSmul m.runs = some (q, c) → m.repeatMul = false →
      let w := d.listView (ueWDesc e)
      let x := d.listView (ueGDesc e)
      let y := d.listView (ueMaster e)
      let cnt := ueNCount e
      let kt := (w.inner + (if w.layout = 2 then 512 else 128) - 1) / (if w.layout = 2 then 512 else 128)
      smulBad w x y (ueNFirst e) cnt (ueAcc e) = false → firstRunFault d req false [w, x] = none → firstRunFault d req true [y] = none →
      frozenFault d [y] = none → (kt ≠ 0 → paramFault d req false (ueTscale e) (8 * kt * ((ueNFirst e + cnt + 511) / 512)) = none) →
      ¬ (w.inner = 0 ∧ ueAcc e = true) →
      let ns := (List.range cnt).map (ueNFirst e + ·)
      let t := d.touch (((List.range x.rows).map (fun v => (ns.map (fun n => dotAddrs d 0 w x n v w.inner
        ++ (if ueAcc e then readAddrs d 0 y (y.posOf v n) else []))).flatten)).flatten)
      let vals := ((List.range x.rows).map (fun v => ns.map (fun n => (y.posOf v n, smulValue t.1 w x y e n v)))).flatten
      exec (.smul u false) s = .next (s.mapDev (fun _ =>
        ((t.1.write (storeVals t.1 0 y (realVals y vals)).1 t.2).msuDone u q c stDone).sendCmdSig c m.orbit 0)))

/-- Pass 2 of a command runs patch by patch (R373, R392): a patch writes the master copy, the moments, the statistics, W and WT;
the last one also writes the state record, and ends the command's pass 2 with its signal. A command that pass 1 skipped ends
at once (R388). -/
def Obligations.UpdatePassTwo : Prop :=
  ∀ (s : State) (u : Fin 16) (c : Nat) (rest : List Nat) (r : OrbitRun), (s.dev.msu u).fenced = false → (s.dev.msu u).repeatUpd = false →
    (s.dev.msu u).pass2 = c :: rest → findRun (s.dev.msu u).p2Orbit s.dev.runs = some r →
    let d := s.dev
    let m := d.msu u
    let o := d.updOps (d.ucmd c)
    let k := d.updConst u c d.clip r.stepValue
    let x := d.patchOut u c m.patch o k
    let t := d.touch (d.patchAddrs u c o x.vals)
    let total := patchCount o (ueRule (d.ucmd c)) (rbBlock (d.msuPlan.rules.get (ueBlock (d.ucmd c))))
    let d1 := (t.1.patchWrites o x t.2).updMsu u (fun m => { m with
      patch := m.patch + 1, cmd := c, retries := satAdd 0xFFFF m.retries x.retries
      fallbacks := satAdd 0xFFFF m.fallbacks (if x.fallback then 1 else 0), fallback := m.fallback || x.fallback })
    let d2 := if x.fallback then { d1 with runs := updRun r.num (fun r => { r with fallbacks := r.fallbacks + 1 }) d1.runs } else d1
    (m.skipped.get c = true → exec (.updatePass2 u false) s = .next (s.mapDev (fun d => d.endPass2 u c)))
    ∧ (m.skipped.get c = false → m.patch + 1 < total → exec (.updatePass2 u false) s = .next (s.mapDev (fun _ => d2)))
    ∧ (m.skipped.get c = false → total ≤ m.patch + 1 →
      exec (.updatePass2 u false) s = .next (s.mapDev (fun _ => (d2.putState u c k).endPass2 u c)))

/-- A module that lacks a record at NORM_DEADLINE runs no pass 2, bars later orbits and says so (R378); an orbit ends at its last
tick, when the transfers that have not arrived are missed and its stream semaphores return to zero (R219, R423); its completion
record goes to the host once the four conditions of R234 hold; and an orbit starts at its slot, when nothing bars it (R594). -/
def Obligations.OrbitEvents : Prop :=
  ∀ s : State,
    (∀ r, s.dev.exchRun = some r → r.normClosed = false → r.closed = true → r.outcome = 0 → s.dev.plan.installed = true → s.dev.recordsIn = false →
      ∃ t r', exec .normDeadline s = .next t ∧ t.dev.restrict = some (s.dev.restrict.getD 0x23) ∧ t.dev.exchRun = some r'
        ∧ r'.num = r.num ∧ r'.normClosed = true ∧ r'.deadline = true ∧ r'.outcome = 4
        ∧ (∀ u < 16, (t.dev.msu u).orbit = r.num + 1 ∧ (t.dev.msu u).passed = [] ∧ (t.dev.msu u).runs = []
            ∧ (t.dev.msu u).pass2 = (s.dev.msu u).pass2)
        ∧ t.dev.ms = s.dev.ms ∧ t.moon.events = if s.dev.restrict = none then s.moon.events + 1 else s.moon.events)
    ∧ (∀ r, s.dev.curRun = some r →
      ∃ t r', exec .orbitEnd s = .next t ∧ t.dev.curRun = none ∧ t.dev.runs.getLast? = some r' ∧ r'.num = r.num ∧ r'.ended = true
        ∧ t.dev.time = max s.dev.time (r.start + tickT * (s.orbitTicks - 1))
        ∧ ∀ io < 2, ∀ j < 1024, t.dev.streamSems.get (streamKey io r.num j) = s.dev.streamSems.dflt)
    ∧ (∀ r c, s.dev.oldestRun = some r → s.fab.start = some c → s.orbitDone r = true →
      let closing := c.closing || endsStart r.status
      let final := c.begun == c.completed + 1 && (closing || c.completed + 1 == c.count)
      let sent := s.record c.port c.handle 0x11 r.status (r.flags final) r.num (r.detail (c.completed + 1) s.dev.retiredCount)
      let fab : Fab := { sent.fab with
        start := if final then none else some { c with completed := c.completed + 1, closing := closing }
        orbit := if r.voided then sent.fab.orbit else sent.fab.orbit + 1
        red := { sent.fab.red with probeDone := sent.fab.red.probeDone || (r.probe && !r.voided) } }
      let sentAll : State := { sent with dev := { sent.dev with runs := completeFirst sent.dev.runs }, fab := fab }
      exec .orbitCompletion s = .next sentAll.releaseWaiting)
    ∧ (∀ c d', s.fab.start = some c → c.closing = false → c.begun < c.count →
      let before := doOrbitEnd (doNormDeadlineAt s)
      before.dev.runs.any (fun r => !r.completed && r.ends) = false → before.barred = none →
      (before.atStartSlot c).dev.rebindAll = some d' →
      exec .orbitStart s = .next (({ before.atStartSlot c with dev := d' }.applyDeferred.beginOrbit c d'.moduleFault).releaseWaiting))

/-! ### Links, transfers, control messages and time -/

/-- A link whose training succeeds is UP with 512 credits, a third failure in a row makes it FAILED, and an UP link that loses
lock is DOWN, and stays so while orbits run (R404, R425); an idle frame's header returns credits, counts corrected symbols, and
reports a frame to be sent again (R405, R409). -/
def Obligations.LinkStateEvents : Prop :=
  ∀ (s : State) (link : Fin 48),
    let l := s.link link
    (∀ rtt, (l.state ≠ 2 ∧ l.state ≠ 3) → l.stuck = false → l.fenced = false → s.pwr.ready = true →
      exec (.linkUp link rtt) s = .next ((s.updLink link (fun l => { l with
        state := 2, trainFails := 0, rtt := rtt.toNat, credits := 512, owed := 0, nakOut := [], marked := true })).event))
    ∧ ((l.state ≠ 2 ∧ l.state ≠ 3) → l.stuck = false → l.fenced = false → s.pwr.ready = true →
      (l.trainFails < 2 → exec (.linkTrainingFail link) s = .next (s.updLink link (fun l => { l with trainFails := l.trainFails + 1, state := 1 })))
      ∧ (2 ≤ l.trainFails → exec (.linkTrainingFail link) s = .next
          ((s.updLink link (fun l => { l with trainFails := l.trainFails + 1, state := 3 })).event)))
    ∧ (l.state = 2 → ∃ t : State, exec (.linkDown link) s = .next t ∧ (t.link link).state = 0 ∧ (t.link link).marked = false
      ∧ (t.link link).stuck = s.dev.curRun.isSome ∧ (∀ k, k ≠ link.val → t.link k = s.link k) ∧ t.moon.events = s.moon.events + 1
      ∧ (s.fab.tb.parent = link.val → s.fab.tb.state = 1 → t.fab.tb.state = 0) ∧ t.dev = s.dev)
    ∧ (∀ h : FrameHeader, l.state = 2 → l.fenced = false →
      let noted := s.updLink link (fun l => { l with
        credits := min 512 (l.credits + h.credits), symbols := satAdd 0xFFFFFFFF l.symbols h.corrected
        codewords := if h.corrected = 0 then l.codewords else satAdd 0xFFFFFFFF l.codewords 1 })
      (h.nak = none → exec (.idleFrame link h) s = .next noted)
      ∧ (∀ k r x, h.nak = some k → s.dev.curRun = some r → noted.nakTarget link r = some x → x.idle = false → x.again.get k = false →
        x.naks.contains k = false → (k < x.next ∨ seLength (noted.entry x.io x.entry) ≤ k) →
        exec (.idleFrame link h) s = .next (noted.putXfer { x with naks := insNat k x.naks, stage := .running })))

/-- A SEND whose stream has been signalled, whose window still has room and whose link carries it starts, and takes one from
its stream's semaphore (R420, R424); in a tick an UP link sends one frame: an idle frame where no orbit runs, else the next
payload frame of the transfer that is served, encrypted, its trailer after the last one, and then each reported frame once more
(R405, R407, R409). -/
def Obligations.SendEvents : Prop :=
  ∀ (s : State),
    (∀ (io : Fin 2) (i : Nat) r, s.dev.curRun = some r →
      let e := s.entry io i
      let x := s.xfer io i r
      let s1 := s.advanceTo (r.start + tickT * seOffset e)
      let tick := (s1.dev.time - r.start) / tickT
      let k := streamKey io r.num (seStream e)
      let sem := (s1.dev.streamSems.get k).toNat
      let s2 := s1.mapDev (fun d => { d with streamSems := d.streamSems.set k (BitVec.ofNat 16 (sem - 1)) })
      let t := s2.dev.touch (addrRun (s2.dev.frameAddr e 0) (512 * seLength e))
      s.active io i = true → seRecv e = false → x.stage = .waiting → sem ≠ 0 →
      (seSched e = true → seLength e + 1 + s.rttMax io ≤ usableBefore (seEnd e) - usableBefore tick) →
      s1.mayUse (s1.linkOf io i) = true → s1.earlierWaits io i tick r = false → (s1.fab.regs.get io).fenced = false →
      (seEndpoint e = 0 → t.2 = false →
        exec (.sendStart io i) s = .next (({ s2 with dev := t.1 } : State).putXfer
          { x with stage := .running, idle := false, payload := [], ordinal := ({ s2 with dev := t.1 } : State).ordinal io i }))
      ∧ (seEndpoint e = 1 → exec (.sendStart io i) s = .next ((s2.prepareCorrect io i r).putXfer
          { x with stage := .running, idle := false, payload := (s2.prepareCorrect io i r).stagedPayload io i
                   ordinal := (s2.prepareCorrect io i r).ordinal io i }))
      ∧ (seEndpoint e = 2 → exec (.sendStart io i) s = .next (s2.putXfer
          { x with stage := .running, idle := false, payload := s2.stagedPayload io i, ordinal := s2.ordinal io i })))
    ∧ (∀ link : Fin 48, (s.link link).state = 2 → (s.link link).fenced = false → (s.link link).lastTick ≠ some (s.dev.time / tickT) →
      (s.dev.curRun = none → exec (.linkTick link) s = .next (s.putFrame link 0 0 0))
      ∧ (∀ r tick, s.dev.curRun = some r → r.tickAt s.dev.time 0 = some tick →
        (isUsable (s.dev.time / tickT) = false ∨ s.mayUse link = false ∨ s.sendNow link tick r = none) →
        exec (.linkTick link) s = .next (s.putFrame link 0 0 0))
      ∧ (∀ r tick x k, s.dev.curRun = some r → r.tickAt s.dev.time 0 = some tick → isUsable (s.dev.time / tickT) = true →
        s.mayUse link = true → (s.fab.regs.get (link / 24)).fenced = false → s.sendNow link tick r = some x → (s.link link).keys = some k →
        let e := s.entry x.io x.entry
        let iv := s.xferIv x.io x.entry r
        let cipher (i : Nat) : BitVec 4096 := s.plainFrame x i ^^^ frameStream k.1 iv i
        let tag := gcmTag (keyBytes k.1) iv (entryAad e) ((List.range (seLength e)).map (fun i => leBytes 512 (cipher i).toNat)).flatten
        let paid := if seSched e then s else s.updLink link (fun l => { l with credits := l.credits - 1 })
        (x.next < seLength e → exec (.linkTick link) s = .next ((paid.putFrame link (if seSched e then 1 else 4) x.next (cipher x.next)).putXfer
          { x with next := x.next + 1 }))
        ∧ (seLength e ≤ x.next → x.trailer = false →
          let out := paid.putFrame link (if seSched e then 2 else 5) (seLength e) (trailerPayload tag r.epoch e)
          exec (.linkTick link) s = .next (if x.naks.isEmpty then out.endSend { x with trailer := true } tick else out.putXfer { x with trailer := true }))
        ∧ (∀ n rest, seLength e ≤ x.next → x.trailer = true → x.naks = n :: rest →
          let out := (paid.putFrame link 3 n (if n < seLength e then cipher n else trailerPayload tag r.epoch e)).updLink link
            (fun l => { l with retries := satAdd 0xFFFF l.retries 1 })
          let x' : Xfer := { x with naks := rest, again := x.again.set n true }
          exec (.linkTick link) s = .next (if rest.isEmpty then out.endSend x' tick else out.putXfer x'))))

/-- A frame of a transfer that arrives on an UP and keyed link in its entry's window is stored where the transfer lacks it, a
trailer at index LENGTH, and one that the code could not correct is reported once (R405, R409, R421, R424, R425); a transfer that
has not passed by its tick is missed (R421), and an endpoint that has finished releases its region (R428). -/
def Obligations.ReceiveEvents : Prop :=
  ∀ (s : State) (link : Fin 48) (h : FrameHeader) (r : OrbitRun), s.dev.curRun = some r → (s.link link).state = 2 →
    (s.link link).fenced = false → (s.link link).keys.isSome = true → r.start ≤ s.dev.time →
    let io := link.val / 24
    let got (s1 : State) (i : Nat) : State × Xfer := s1.firstFrame (s1.xfer io i r)
    let open_ (s1 : State) (i idx : Nat) : Prop := (got s1 i).2.stage = .running ∧ idx ≤ seLength (s1.entry io i) ∧ (got s1 i).2.got.get idx = false
    let s1 := s.noteHeader link h
    (∀ (i : Nat) (p : BitVec 4096), s1.recvEntry link true r = some i →
      (open_ s1 i h.frame → exec (.dataFrame link h (.good p)) s = .next ((got s1 i).1.storeFrame link r (got s1 i).2 h.frame p)
        ∧ exec (.retryFrame link h (.good p)) s = .next ((got s1 i).1.storeFrame link r (got s1 i).2 h.frame p))
      ∧ (open_ s1 i (seLength (s1.entry io i)) →
        exec (.trailerFrame link h (.good p)) s = .next ((got s1 i).1.storeFrame link r (got s1 i).2 (seLength (s1.entry io i)) p)))
    ∧ (∀ (i : Nat) (p : BitVec 4096), s1.recvEntry link false r = some i →
      (open_ s1 i h.frame → exec (.beDataFrame link h (.good p)) s = .next ((got s1 i).1.storeFrame link r (got s1 i).2 h.frame p))
      ∧ (open_ s1 i (seLength (s1.entry io i)) →
        exec (.beTrailerFrame link h (.good p)) s = .next ((got s1 i).1.storeFrame link r (got s1 i).2 (seLength (s1.entry io i)) p)))
    ∧ (∀ i : Nat, s.recvEntry link true r = some i → open_ s i h.frame →
      exec (.dataFrame link h .uncorrectable) s = .next ((got s i).1.badFrame link (got s i).2 h.frame false)
      ∧ exec (.retryFrame link h .uncorrectable) s = .next ((got s i).1.badFrame link (got s i).2 h.frame true))

/-- A transfer of the running orbit that has not passed is missed at its tick (R409, R421, R425), and a region whose endpoint has
finished is released with its signal (R421, R428). -/
def Obligations.TransferEnds : Prop :=
  ∀ (s : State) (io : Fin 2) (i : Nat),
    (∀ r, s.dev.curRun = some r → s.active io i = true → ((s.xfer io i r).signalled = false ∨ seRecv (s.entry io i) = true) →
      (s.xfer io i r).stage ∈ [XStage.waiting, .running, .refused] →
      ∃ t : State, exec (.transferMissed io i) s = .next t ∧ (t.xfer io i r).stage = .missed ∧ (t.xfer io i r).held = false
        ∧ t.dev.time = max s.dev.time (r.start + tickT * s.missTick (s.entry io i))
        ∧ (seRecv (s.entry io i) = true → (t.fab.regs.get io).recvMissed = satAdd 0xFFFF (s.fab.regs.get io).recvMissed 1)
        ∧ (seRecv (s.entry io i) = false → (s.xfer io i r).idle = false →
            (t.fab.regs.get io).sendMissed = satAdd 0xFFFF (s.fab.regs.get io).sendMissed 1))
    ∧ (∀ x, s.fab.xfers.find? (fun x => x.io == io.val && x.entry == i && x.held && x.stage == .consumed) = some x →
      exec (.regionRelease io i) s = .next ((s.sendEntrySig x).putXfer { x with stage := .ended, held := false, signalled := true }))

/-- The control slot sends this module's vote and commits, queues its own messages, and gives every UP link its control frames
(R416, R426, R427); a marker gives job time, and its exchange corrects it (R411, R412), while a slot whose tag
fails is counted and recorded and gives nothing (R407, R490); 400 µs without an exchange is HOLDOVER and
4 ms of it LOST, which votes the running orbit void (R412, R413); and a key-exchange record that verifies is kept until the
reservation after it (R555). -/
def Obligations.ControlSlotAndTime : Prop :=
  ∀ (s : State),
    (∃ t : State, exec .controlSlot s = .next t ∧ t.fab.slot = max s.fab.slot ((s.dev.time + slotT - 1) / slotT) + 1
      ∧ t.dev.time = max s.dev.time (slotT * (t.fab.slot - 1)) ∧ t.dev.ownMsgs = []
      ∧ t.fab.tb.offset = slew s.fab.tb.offset)
    ∧ (∀ (link : Fin 48) (m : MarkerIn), (s.link link).state = 2 → (s.link link).fenced = false →
      let whole := (s.link link).outMarker.isSome && (m.echoSend != 0 || m.echoRecv != 0)
      let t1 := m.sendTime.toNat
      let t2 := m.recvTime.toNat
      let t3 := m.echoSend.toNat
      let t4 := m.echoRecv.toNat
      let s1 := (s.advanceTo t2).updLink link (fun l => { l with
        heard := true, peerModule := m.peerModule.toNat, peerLink := m.peerLink.toNat, peerDigest := m.digest
        echoSend := m.sendTime, echoRecv := m.recvTime, marked := l.marked || whole
        delay := if whole then exchDelay t1 t2 t3 t4 else l.delay })
      let good := m.tagBad = false ∨ (s.link link).keys = none
      (good → s1.takesTime link m = false → exec (.timeMarker link m) s = .next s1)
      ∧ (good → s1.takesTime link m = true → whole = true →
          exec (.timeMarker link m) s = .next (s1.correctTime link m (exchOffset t1 t2 t3 t4)))
      ∧ (m.tagBad = true → (s.link link).keys.isSome = true →
          exec (.timeMarker link m) s = .next (((s.advanceTo t2).updLink link (fun l => { l with
            tagFails := satAdd 0xFF l.tagFails 1 })).mapDev (·.pushErr 0x08 0x00 (unitLink link) 0 0 0))))
    ∧ (s.fab.tb.state = 2 → s.isRoot = false → s.dev.plan.installed = true →
      ∃ t : State, exec .timeHoldover s = .next t ∧ t.fab.tb.state = 3 ∧ t.fab.tb.good = 0
        ∧ t.dev.time = max s.dev.time (s.fab.tb.lastExch + markerWindow) ∧ t.fab.tb.holdSince = t.dev.time
        ∧ (∀ io < 2, (t.fab.regs.get io).timeAlert = true))
    ∧ (s.fab.tb.state = 3 →
      let lost := s.advanceTo (s.fab.tb.holdSince + holdoverSpan)
      let s1 : State := { lost with fab := { lost.fab with tb := { lost.fab.tb with state := 4 } } }
      (s.dev.curRun = none → exec .timeLost s = .next s1)
      ∧ (∀ r, s.dev.curRun = some r → exec .timeLost s = .next (s1.mapDev (·.voteVoid r.num rsTime (unitOrb 0) 0))))
    ∧ (∀ (link : Fin 48) (k : KeyxIn), s.keyxDue link = true →
      let t := s.topo s.me link
      let ids := keyxIds k.module.toNat k.link.toNat k.peerModule.toNat k.peerLink.toNat
      let pub := leBytes 97 k.ephPub.toNat
      k.reservedNonzero = false → tpValid t = true → k.module.toNat = tpModule t → k.link.toNat = tpLink t → k.peerModule.toNat = s.me →
      k.peerLink.toNat = link → (ecPoint pub).isSome = true → s.keyxMac ids pub = leBytes 48 k.hmac.toNat →
      exec (.keyx link k) s = .next (s.updLink link (fun l => { l with keyxPeer := some k.ephPub, keyxSlot := s.dev.time / slotT })))

/-- A control message of the running orbit that a keyed link brings for the first time is noted, queued for the other tree
neighbours, and takes effect: a VOTE is counted, a VOID fails a vote that is open and ends the orbit of one that has passed, a
RETRACT is passed on, and a COMMIT makes a contribution addable (R427, R451, R456, R459, R486, R487). -/
def Obligations.ControlMessages : Prop :=
  ∀ (s : State) (link : Fin 48) (m : CtlMsg) (r : OrbitRun), s.dev.curRun = some r → (s.link link).state = 2 →
    (s.link link).keys.isSome = true → (s.link link).fenced = false → m.orbit.toNat = r.num % 2 ^ 32 →
    let msg (type : Nat) : BitVec 256 := ctlMessage type m.origin.toNat m.orbit.toNat m.body
    let heard (type : Nat) : State := (s.treeLinks.filter (· != link.val)).foldl (fun s l => s.updLink l (fun k => { k with ctlQ := k.ctlQ ++ [msg type] }))
      { s with fab := { s.fab with seen := s.fab.seen ++ [msg type] } }
    (s.fab.seen.contains (msg 1) = false →
      (r.closed = false → exec (.vote link m) s = .next ((heard 1).mapDev (·.updLast (fun r =>
        { r with votes := r.votes.set m.origin.toNat (if bitOf m.body 0 then 2 else 1) }))))
      ∧ (r.closed = true → exec (.vote link m) s = .next (heard 1)))
    ∧ (s.fab.seen.contains (msg 2) = false →
      (r.closed = false → exec (.void link m) s = .next ((heard 2).mapDev (·.updLast (fun r => { r with voidSeen := true }))))
      ∧ (r.closed = true → r.passed = true → exec (.void link m) s = .next ((heard 2).mapDev (fun d =>
        let d := { d.updLast (fun r => { r with endStatus := some (r.endStatus.getD 0x21) }) with restrict := some (d.restrict.getD 0x21) }
        d.pushErr 0x07 0x21 (bitsOf m.body 15 0) 0 0 0)))
      ∧ (r.closed = true → r.passed = false → exec (.void link m) s = .next (heard 2)))
    ∧ (s.fab.seen.contains (msg 3) = false → exec (.retract link m) s = .next (heard 3))
    ∧ (s.fab.seen.contains (msg 4) = false → exec (.commit link m) s = .next ((heard 4).commit (bitsOf m.body 11 0) m.origin.toNat r))

/-! ### Gradient reduction -/

/-- A signalled bucket is staged once: its blocks are encoded into the bucket's area, and the contribution is sent on its stream,
or at the owner of an EXACT bucket added at once (R441, R443, R447); the comparison of a block's two encodings closes it, and a
block that differs before it has left is written again and counts a transient (R482, R483). -/
def Obligations.BucketStaging : Prop :=
  ∀ (s : State) (k : Nat) (r : OrbitRun), s.dev.curRun = some r → s.contributes k s.me = true →
    let b := s.bucket k
    let io := bkDie b
    let key := streamKey io r.num (bkStageSem b)
    let c := (s.dev.streamSems.get key).toNat
    let s1 := s.mapDev (fun d => { d with streamSems := d.streamSems.set key (BitVec.ofNat 16 (c - 1)) })
    let x := encodeAll r.probe k (bkBlocks b) 0 s1
    let image := contribPayload r.probe k s.me r.num x.2.1
    let s2 := (x.1.addSaturated io x.2.2).mapDev (fun d => d.write ((List.range image.length).map (fun i =>
      (⟨x.1.areaAddr k + i, 0xFF, byteAt image i⟩ : WItem))) false)
    let s3 := if x.2.1.any (·.poison) then s2.mapDev (·.voteVoid r.num rsPoison (unitColl io) 0) else s2
    let s4 := s3.updBk k (fun y => { y with staged := true })
    (k < s.fab.redPlan.count → c ≠ 0 → r.start ≤ s.dev.time → (s.fab.regs.get io).fenced = false → (s.run k).staged = false →
      (s4.owns k = true → (s4.mode = true ∨ (s4.run k).finalised = true) → exec (.bucketStage k) s = .next s4)
      ∧ (s4.owns k = true → s4.mode = false → (s4.run k).finalised = false →
        exec (.bucketStage k) s = .next (s4.addContribution r.probe k s4.me x.2.1))
      ∧ (s4.owns k = false →
        let sent := (s4.stage io (bkSend b) image).signalStream io (bkSend b) 1 r.num
        exec (.bucketStage k) s = .next (if sent.mode then sent else sent.signalStream io (bkCorr b) 1 r.num)))
    ∧ (∀ block again, (s.run k).staged = true → (s.run k).compared.get block = false → block < bkBlocks b →
      let closed := s.updBk k (fun y => { y with compared := y.compared.set block true })
      exec (.encodeCompare k block false again) s = .next closed
      ∧ (s.blockLeft k block r = false →
        exec (.encodeCompare k block true false) s = .next ((closed.rewriteBlock r.probe k block).mapDev (·.transient (unitColl io) 0 block 0))))

/-- A passed transfer of the running orbit is relayed, and then the owner adds a contribution whose scales agree, or of an arrival
bucket once its COMMIT has come (R438, R446, R447, R451), applies a member's correction records (R457), and every other module
takes the reduced bucket in place (R449); an exchange record of another module is held until the exchange's outcome is known
(R376, R439). -/
def Obligations.ReductionReceive : Prop :=
  ∀ (s : State) (io : Fin 2) (i : Nat) (x : Xfer) (p : List Byte) (r : OrbitRun), s.passedXfer io i = some (x, p) → s.dev.curRun = some r →
    x.slot = r.slot → x.orbit = r.num →
    let k := hdrBucket p
    let m := hdrOrigin p
    let l := (List.range (bkBlocks (s.bucket k))).map (contribBlock (bkBlocks (s.bucket k)) p)
    let s1 := s.relay io (seStream (s.entry io i)) p r
    (seEndpoint (s.entry io i) = 1 → hdrOrbit p = r.num % 2 ^ 32 →
      (hdrKind p = 1 → (s.run k).waiting.any (fun w => w.2 == i) = false → k < s.fab.redPlan.count →
        s.owns k = true → (s.run k).finalised = false → (s.run k).added.get m = false → s.contributes k m = true →
        (s.mode = false → hdrProbe p = r.probe → (r.probe = true ∨ s1.scalesAgree k l = true) →
          exec (.contribReceive io i) s = .next ((s1.addContribution r.probe k m l).finish x))
        ∧ (s.mode = false → hdrProbe p = r.probe → r.probe = false → s1.scalesAgree k l = false →
          exec (.contribReceive io i) s = .next ((s1.mapDev (·.voteVoid r.num rsScaleMismatch (unitColl io) 0)).finish x))
        ∧ (s.mode = true → (s.run k).commits.get m = true →
          exec (.contribReceive io i) s = .next ((s1.addContribution false k m l).finish x))
        ∧ (s.mode = true → (s.run k).commits.get m = false →
          exec (.contribReceive io i) s = .next (s1.updBk k (fun y => { y with waiting := y.waiting ++ [(m, i)] }))))
      ∧ (hdrKind p = 2 → k < s.fab.redPlan.count → s.owns k = true → (s.run k).finalised = false → (s.run k).corrected.get m = false →
        let noted := s1.updBk k (fun y => { y with corrected := y.corrected.set m true })
        exec (.correctReceive io i) s = .next
          ((if (s.run k).added.get m then noted.updBk k (applyRecords p (hdrRecords p) 0) else noted).finish x))
      ∧ (hdrKind p = 3 → k < s.fab.redPlan.count → s.owns k = false → (s.run k).inPlace = false →
        exec (.reducedReceive io i) s = .next ((s1.consume k p r).finish x))
      ∧ (hdrKind p = 4 → exec (.normRecordReceive io i) s = .next ((s1.mapDev (·.takeNorm (p.drop 64))).finish x)))
    ∧ (seEndpoint (s.entry io i) = 2 → exec (.normRecordReceive io i) s = .next ((s.mapDev (·.takeNorm p)).finish x))

/-- At its DEADLINE the owner forms the reduced bucket, takes it in place and sends it on its way (R435, R453, R454); a block that
fails its comparison is formed once more (R469, R483). At VOTE_TICK the buckets that have not arrived are poisoned, their module
votes to void, RED_SIG goes out, and the vote is due (R455, R460); at VOTE_CLOSE the module decides its vote and writes the
reduction record (R461, R464). -/
def Obligations.FinaliseAndVote : Prop :=
  ∀ (s : State) (r : OrbitRun),
    (∀ k, s.dev.curRun = some r → k < s.fab.redPlan.count → s.owns k = true → (s.run k).finalised = false →
      (s.fab.regs.get (bkDie (s.bucket k))).fenced = false →
      let at_ := s.advanceTo (r.start + tickT * bkDeadline (s.bucket k))
      ((s.run k).repeating = false → exec (.bucketFinalise k none) s = .next (at_.finalise k none r))
      ∧ ((s.run k).repeating = true →
        exec (.bucketFinalise k none) s = .next ((at_.mapDev (·.transient (unitColl (bkDie (s.bucket k))) 0 0 0)).finalise k none r)))
    ∧ (s.dev.exchRun = some r → r.voteDue = false → r.voteSent = false →
      ∃ t r', exec .voteTick s = .next t ∧ t.dev.exchRun = some r' ∧ r'.num = r.num ∧ r'.voteDue = true ∧ t.fab.red.redSent = true
        ∧ t.dev.time = max s.dev.time (r.start + tickT * s.redTick rhVoteTick) ∧ t.dev.ms.mem = s.dev.ms.mem)
    ∧ (s.dev.exchRun = some r → r.voteSent = true → r.closed = false →
      let m := s.dev.plan.modules
      let passed := votePasses m r
      let missing := voteMissing m r
      let s1 := (s.advanceTo (r.start + tickT * s.redTick rhVoteClose)).mapDev (fun d => { d.updLast (fun r =>
        { r with closed := true, passed := passed, deadline := r.deadline || missing }) with
          restrict := if missing then some (d.restrict.getD 0x23) else d.restrict })
      let code := if passed then 1 else if missing then 3 else 2
      let s2 := (s1.updRegs 0 (fun g => { g with vote := code })).updRegs 1 (fun g => { g with vote := code })
      let s3 := if s2.fab.redPlan.present then s2.mapDev (fun d => d.write (s2.redRecord r passed) false) else s2
      exec .voteClose s = .next (s3.mapDev (·.tryOutcome)))

/-! ### Watchdogs, recovery and health -/

/-- A watchdog that fires on work that has not moved recovers the unit's domain; a fire while the unit waited on another is not
charged to it (R493, R495, R497). -/
def Obligations.Watchdogs : Prop :=
  ∀ (s : State),
    (∀ n : Fin 128, s.runState = 2 → s.dev.unfinished n = true → s.fencedDom 0 n = false → (s.dev.core n).fenced = false →
      (s.dev.core n).retired = false →
      let c := s.dev.core n
      let charged := c.seqState (s.dev.lc c.lc) != 2
      let w := setBits (setBits (setBits (setBits c.wdog 31 16 (min 0xFFFF s.dev.settings.coreMs)) 15 8 (satAdd 0xFF (bitsOf c.wdog 15 8) 1)) 2 2
        (if charged then 1 else 0)) 0 0 1
      let noted := s.mapDev (·.updCore n (fun c => { c with wdog := w }))
      let s1 := if charged then noted.mapDev (·.transient (unitCore n) 0 0 0) else noted
      ∃ t r, exec (.coreWatchdog n) s = .next t ∧ t = s1.recover 0 n 0 (unitCore n) stReset [] [] ∧ t.recs = s.recs ++ [r]
        ∧ r.kind = 0 ∧ r.index = n.val ∧ r.cause = 0 ∧ r.stage = 1 ∧ r.fenceTime = s.dev.time)
    ∧ (∀ (g : Fin 32) (waiting : Bool), (s.dev.coma g).queue ≠ [] → s.fencedDom 1 g = false → (s.dev.coma g).fenced = false →
      (s.dev.coma g).retired = false →
      let s1 := if waiting then s else s.mapDev (·.transient (unitComa g) 0 0 0)
      ∃ t r, exec (.comaWatchdog g waiting) s = .next t ∧ t = s1.recover 1 g 0 (unitComa g) stReset [] [] ∧ t.recs = s.recs ++ [r]
        ∧ r.kind = 1 ∧ r.index = g.val ∧ r.cause = 0 ∧ r.stage = 1 ∧ r.fenceTime = s.dev.time)
    ∧ (∀ (u : Fin 16) (waiting : Bool), (s.dev.msuBusy u = true ∨ s.dev.smulBusy u = true) → s.fencedDom 2 u = false →
      (s.dev.msu u).fenced = false →
      let fired := s.mapDev (·.updMsu u (fun m => { m with fires := satAdd 0xFF m.fires 1 }))
      let s1 := if waiting then fired else fired.mapDev (·.transient (unitMsu u) 0 0 0)
      ∃ t r, exec (.msuWatchdog u waiting) s = .next t ∧ t = s1.recover 2 u 0 (unitMsu u) stReset [] [] ∧ t.recs = s.recs ++ [r]
        ∧ r.kind = 2 ∧ r.index = u.val ∧ r.cause = 0 ∧ r.stage = 1 ∧ r.fenceTime = s.dev.time)
    ∧ (∀ h : Fin 2, s.running = true → s.fencedDom 4 h = false →
      exec (.cpWatchdog h) s = .next
        (((s.advanceTo (s.moon.cpBeat.get h + msT * s.dev.settings.cpMs)).recover 4 h 0 (unitOrb h) stReset [] []).releaseWaiting))

/-- Heartbeats of control processors and halves move their last time, and a half's reaches the other (R493, R504); with none heard
for 1 ms the halves separate, both are recovered, and each budget is half of the module's (R506). -/
def Obligations.HeartbeatsAndSeparation : Prop :=
  ∀ (s : State), s.running = true →
    (∀ h : Fin 2, s.fencedDom 4 h = false →
      (∃ t, exec (.cpHeartbeat h) s = .next t ∧ t.dev.time = max s.dev.time (s.moon.cpBeat.get h + msT) ∧ t.moon.cpBeat.get h = t.dev.time
        ∧ t.fab = s.fab ∧ t.recs = s.recs)
      ∧ (∃ t, exec (.halfHeartbeat h) s = .next t ∧ t.dev.time = max s.dev.time (s.moon.halfBeat.get h + 100 * usT)
        ∧ t.moon.halfBeat.get h = t.dev.time ∧ (t.fab.regs.get (1 - h)).peerAlive = true ∧ t.recs = s.recs))
    ∧ ((s.fab.regs.get 0).separated = false →
      let told := s.recs.foldl (fun s r => (r.waiters ++ r.escalated).foldl (fun s w => s.finishReset 0x30 4 (domHalf r.kind r.index) 0 w) s) s
      let clear : State := { told with recs := [], moon := { told.moon with bufUsed := Bank.const 0 } }
      let both := (clear.recover 4 0 4 0xFFFF stReset [] []).recover 4 1 4 0xFFFF stReset [] []
      let sep (g : OrbRegs) : OrbRegs := { g with separated := true, peerAlive := false }
      let half (p : HalfPwr) : HalfPwr := { p with budget := min both.pwr.cap (envelopeOf (classOf both.pwr.coolingId)) / 2 }
      let apart := (both.updRegs 0 sep).updRegs 1 sep
      let cut : State := { apart with pwr := { apart.pwr with halves := (apart.pwr.halves.upd 0 half).upd 1 half } }
      exec .separation s = .next cut.releaseWaiting)

/-- The drain of a fence ends within 2 ms and the domain is sampled (R498, R500, R501); its reset ends within 10 ms with the crash
record, the units at reset and the waiting commands' records (R497, R509); a reset that does not end escalates to the enclosing
domain (R502). -/
def Obligations.RecoverySteps : Prop :=
  ∀ (s : State) (r : Recovery) (rest : List Recovery),
    (∀ (forced : Bool) (drainUs : Nat), takeStage 1 s.recs = some (r, rest) →
      let us := if forced then 2000 else min drainUs 2000
      let x := (s.advanceTo (r.fenceTime + usT * us)).sample
        { r with forced := forced, drainUs := us, resetTime := (s.advanceTo (r.fenceTime + usT * us)).dev.time }
      (r.kind = 5 → exec (.domainDrainEnd forced drainUs) s = .next (x.1.cycleRails x.2).releaseWaiting)
      ∧ (r.kind ≠ 5 → r.cause ≠ 4 →
        let sampled : State := { x.1 with recs := x.1.recs.map (fun y => if y = r then { x.2 with stage := 2 } else y) }
        exec (.domainDrainEnd forced drainUs) s = .next sampled.releaseWaiting)
      ∧ (r.kind ≠ 5 → r.cause = 4 →
        let us := x.1.dev.draw.1
        let s1 := ({ x.1 with dev := x.1.dev.draw.2 } : State).crash x.2 (us % 256) (us / 256 % 2 ^ 32)
        let held : State := { s1 with recs := s1.recs.map (fun y => if y = r then { x.2 with stage := 3, sample := [] } else y) }
        exec (.domainDrainEnd forced drainUs) s = .next held.releaseWaiting))
    ∧ (∀ resetUs : Nat, takeStage 2 s.recs = some (r, rest) → resetUs ≤ 10000 →
      let s1 : State := { s.advanceTo (r.resetTime + usT * resetUs) with recs := rest }
      exec (.domainResetComplete resetUs) s = .next
        ((((s1.crash r 0x31 resetUs).resetUnits r.kind r.index).finishWaiters r r.kind r.index).releaseWaiting))
    ∧ (takeStage 2 s.recs = some (r, rest) →
      let s1 := ({ s.advanceTo (r.resetTime + 10 * msT) with recs := rest } : State).crash r 0x32 10000
      let k := if r.kind = 4 then 5 else 4
      exec .escalation s = .next
        ((s1.recover k (if k = 5 then 0 else domHalf r.kind r.index) 3 r.unit stEscalated [] (r.waiters ++ r.escalated)).releaseWaiting))

/-- A window of the hot-channel watch ends: the counts of the unit's channels restart, an imbalanced window lengthens the run, and a
run of HOT_RUN windows reports once (R357). -/
def Obligations.HotChannelWindow : Prop :=
  ∀ (s : State) (u : Fin 16),
    let m := s.dev.msu u
    let n := msuChannels u
    let f (c : Nat) : Nat := s.dev.accesses.get (32 * u.val + c)
    let top := maxChannel f (n - 1)
    let total := ((List.range n).map f).foldl (· + ·) 0
    let imb := decide (hotMinKilo m.hotConfig * 1024 ≤ total ∧ hotRatio m.hotConfig * total < 16 * top.1 * n)
    let fire := imb = true ∧ hotRunLimit m.hotConfig ≤ m.hotRun + 1 ∧ hotSet m.hotStatus = false
    ∃ t, exec (.hotWindow u) s = .next t ∧ (top.1 = f top.2 ∧ top.2 < n ∧ (∀ c < n, f c ≤ f top.2) ∧ ∀ c < top.2, f c < f top.2)
      ∧ (∀ c < 32, t.dev.accesses.get (32 * u + c) = s.dev.accesses.dflt)
      ∧ bitOf (t.dev.msu u).hotStatus 1 = imb ∧ (t.dev.msu u).hotRun = (if imb then min 255 (m.hotRun + 1) else 0)
      ∧ (fire → hotSet (t.dev.msu u).hotStatus = true ∧ bitsOf (t.dev.msu u).hotStatus 12 8 = top.2
          ∧ bitsOf (t.dev.msu u).hotStatus 31 16 = satAdd 0xFFFF (bitsOf m.hotStatus 31 16) 1 ∧ t.moon.events = s.moon.events + 1)
      ∧ (¬ fire → hotSet (t.dev.msu u).hotStatus = hotSet m.hotStatus ∧ t.moon.events = s.moon.events)
      ∧ t.dev.ms = s.dev.ms

/-- A health window expires with its counts cleared (R475, R480), the flash copies of the health records follow the records (R476),
and the oldest error record of an IO die goes to the flash and the chassis with the number of those dropped (R490). -/
def Obligations.HealthEvents : Prop :=
  ∀ (s : State),
    (∀ unit : BitVec 16, (s.dev.health.get unit.toNat).windowOpen = true → unit.toNat / 4096 < 8 →
      let h := s.dev.health.get unit.toNat
      exec (.healthWindowExpiry unit) s = .next (s.mapDev (fun d => { d with
        poweredMin := max d.poweredMin (h.windowStart + windowMinutes d.settings unit.toNat)
        health := d.health.set unit.toNat { h with windowCount := 0, memCount := 0, windowOpen := false } })))
    ∧ (s.dev.health.wf = true → ∃ t : State, exec .healthFlush s = .next t ∧ ∀ unit : Nat,
      let h := s.dev.health.get unit
      t.dev.health.get unit = { h with flashState := h.state, flashLevel := h.level, flashCount := h.windowCount, flashBad := false })
    ∧ (∀ (io : Fin 2) r rest, s.dev.errQ.get io = r :: rest → s.pwr.moonletUp = true →
      exec (.errorRecordDelivery io) s = .next { s with
        dev := { s.dev with errQ := s.dev.errQ.set io rest, errDropped := s.dev.errDropped.set io 0 }
        moon := { s.moon with errors := lastN 4096 (s.moon.errors ++ [{ r with dropped := s.dev.errDropped.get io }])
                              events := s.moon.events + 1 } })

/-! ### Host commands -/

/-- A session message that is granted opens a session under a new owner tag with the nonce used up: OPEN_KEY and OPEN_SECRET under
the owner as it is, CLAIM and ROTATE under a new owner generation (R545 to R548); CLOSE ends the session, RELEASE also the
ownership (R548, R549); a message that is neither counts as a failed open and answers 0x41 (R547). -/
def Obligations.SessionCommands : Prop :=
  ∀ (s : State) (p q : Fin 2) (h : W32) (e : Entry64), s.Fetches p q h e → eOp e = opOpen → s.fab.start = none →
    (∀ r ∈ s.recs, r.waiters = [] ∧ r.escalated = []) →
    let s0 := s.taken p q h e
    let c := hostRun p q h e
    let m := s.image (eAddr e) (eLen32 e)
    let asked : State := { s0.drawn2 with sec := { (s0.sec.consume (of384 (m.field 8 55))) with
      genExhausted := s0.sec.genExhausted || s0.sec.exhausts m } }
    (∀ g, s0.sec.closable m = false → s0.sec.grant m s0.eph = some g →
      let t := (asked.hostWrite (eAddr e + eLen32 e) (asked.sessionReply m s0.eph s0.sigNonce g.keys.id)).begin_ m g
      let done := (t.finishCmd c 0x00 (dtl 32 39 (leNat g.keys.id) + dtl 40 40 t.sec.lastTag.toNat)).noneWaiting
      (m.kind = 1 → m.rotate = false → exec (.openKey p q h e) s = .next done)
      ∧ (m.kind = 2 → m.rotate = false → exec (.openSecret p q h e) s = .next done)
      ∧ (m.kind = 3 → exec (.claim p q h e) s = .next done)
      ∧ ((m.kind = 1 ∨ m.kind = 2) → m.rotate = true → exec (.rotate p q h e) s = .next done)
      ∧ done.sec.session = some (g.session m (nextTag s.sec.lastTag)) ∧ done.sec.lastTag = nextTag s.sec.lastTag ∧ done.sec.nonce = none
      ∧ done.dev.ownerTag = nextTag s.sec.lastTag
      ∧ done.sec.ownerGen = (if m.kind = 3 ∨ m.rotate = true then s.sec.ownerGen + 1 else s.sec.ownerGen))
    ∧ (s0.sec.closable m = true →
      let id := leBytes 8 (match s0.sec.session with
        | some y => y.id.toNat
        | none => 0)
      let t := (asked.hostWrite (eAddr e + eLen32 e) (asked.sessionReply m s0.eph s0.sigNonce id)).endSession
      (m.release = false → exec (.close p q h e) s = .next ((t.finishCmd c 0x00 0).noneWaiting))
      ∧ (m.release = true → exec (.release p q h e) s = .next (((t.burn none).finishCmd c 0x00 0).noneWaiting))
      ∧ t.sec.session = none)
    ∧ (s0.sec.closable m = false → s0.sec.grant m s0.eph = none →
      let failed := ((({ asked with sec := { asked.sec with openFails := satAdd 0xFF asked.sec.openFails 1 } } : State).finishCmd c 0x41 0).noneWaiting)
      (openRow s e = 1 → exec (.openKey p q h e) s = .next failed) ∧ (openRow s e = 2 → exec (.openSecret p q h e) s = .next failed)
      ∧ (openRow s e = 3 → exec (.claim p q h e) s = .next failed) ∧ (openRow s e = 4 → exec (.close p q h e) s = .next failed)
      ∧ (openRow s e = 5 → exec (.rotate p q h e) s = .next failed) ∧ (openRow s e = 6 → exec (.release p q h e) s = .next failed))

/-- LOAD_PLAN installs an image that passes every check and answers 0x00 with its digest (R331, R522), and leaves the plan as it is
where one fails, answering that check's status (R334, R336); START_ORBITS arms its orbits where no rule of R523 refuses it, and
answers with the refusal's status otherwise; WRITE_STEP_SIZE records the new step size under the next generation (R525). -/
def Obligations.PlanCommands : Prop :=
  ∀ (s : State) (p q : Fin 2) (h : W32) (e : Entry64), s.Fetches p q h e →
    let s0 := s.taken p q h e
    let c := hostRun p q h e
    let m := s.image (eAddr e) (eLen64 e)
    (eOp e = opLoad → s.fab.start = none →
      (s0.verdict m (eModule e) = none →
        let t := ((s0.install m (eModule e)).noteVerify ⟨0, 0x00, 0, 0, 0⟩).judgeCap
        exec (.loadPlan p q h e) s = .next ((t.finishCmd c 0x00 (verifyDetail ⟨0, 0x00, 0, 0, 0⟩ (m.digest.toNat % 2 ^ 64))).noneWaiting))
      ∧ ∀ r, s0.verdict m (eModule e) = some r →
        ∃ t : State, exec (.loadPlan p q h e) s = .next t ∧ t.dev = s.dev ∧ t.fab = s.fab ∧ t.hst.check = r.check
          ∧ t.hst.verStatus = r.status ∧ t.hst.section_ = r.sect ∧ t.hst.die = r.die ∧ t.hst.item = r.item)
    ∧ (eOp e = opStart → s0.startRefused (eSlot e) = none →
      exec (.startOrbits p q h e) s = .next ({ s0 with fab := { s0.fab with
        start := some ⟨p, q, cmdHandle p q h, eSlot e, eCount e, 0, 0, false⟩ } } : State).noneWaiting)
    ∧ (∀ st, eOp e = opStart → s0.startRefused (eSlot e) = some st →
      exec (.startOrbits p q h e) s = .next ((s0.finishCmd c st (startDetail 0)).noneWaiting))
    ∧ (eOp e = opStep → finite32 (eValue e) = true → s.dev.plan.installed = true →
      let t : State := { s0 with
        hst := { s0.hst with gen := s.hst.gen + 1 }
        dev := { s.dev with stepWrites := s.dev.stepWrites ++ [(s.dev.time, eValue e)] } }
      exec (.writeStepSize p q h e) s = .next
        ((t.finishCmd c 0x00 (dtl 32 35 (eValue e).toNat + dtl 36 43 t.nextSlot + dtl 44 45 (s.hst.gen + 1).toNat)).noneWaiting)
      ∧ ∀ u, exec (.writeStepSize p q h e) s = .next u → (s.port p).hold.length < 4096 →
        ((u.port p).hold.getLast?.map (·.jobTime)) = some s.dev.time ∧ u.dev.stepWrites.getLast? = some (s.dev.time, eValue e))
    ∧ (eOp e = opStep → finite32 (eValue e) = false →
      exec (.writeStepSize p q h e) s = .next ((s0.finishCmd c 0x11 0).noneWaiting))
    ∧ (eOp e = opStep → finite32 (eValue e) = true → s.dev.plan.installed = false →
      exec (.writeStepSize p q h e) s = .next ((s0.finishCmd c 0x13 0).noneWaiting))

/-- MEM_TRANSFER whose every byte passes the segment checks moves its bytes (R526, R527): a write stores them at once while no orbit
runs, and for the next orbit while one does (R235), and no other byte of memory changes; a read puts them into host memory at the
entry's address. One whose bytes do not pass moves nothing, and the fault is recorded with status 0x16 (R315). -/
def Obligations.MemoryTransfers : Prop :=
  ∀ (s : State) (p q : Fin 2) (h : W32) (e : Entry64), s.Fetches p q h e → eOp e = opMem → (s.runState ≠ 2 ∨ s.sharedMem e = true) →
    let s0 := s.taken p q h e
    let c := hostRun p q h e
    let items := memItems s.dev e
    (eRead e = false → s0.memFault c = none → s.runState ≠ 2 →
      ∃ t : State, exec (.memTransferWrite p q h e) s = .next t
        ∧ t = (((s0.mapDev (·.write items false)).finishCmd c 0x00 (dtl 32 39 (memBytes e))).noneWaiting)
        ∧ ∀ a : Nat, (∀ i ∈ items, i.addr ≠ a) → memGet t.dev.ms.mem a = memGet s.dev.ms.mem a)
    ∧ (eRead e = false → s0.memFault c = none → s.runState = 2 →
      ∃ t : State, exec (.memTransferWrite p q h e) s = .next t ∧ t.hst.deferred = s.hst.deferred ++ items ∧ t.dev = s.dev)
    ∧ (eRead e = true → s0.memFault c = none →
      let d := (s.dev.touch (memAddrs s.dev e)).1
      let ms := d.ms.write s.hst.deferred false
      exec (.memTransferRead p q h e) s = .next (((({ s0 with dev := d } : State).hostWrite (eAddr e) (memReply { d with ms := ms } e)).finishCmd c 0x00
        (dtl 32 39 (memBytes e) + dtl 40 43 (min 0xFFFFFFFF (ms.markedCount (memAddrs s.dev e))))).noneWaiting))
    ∧ (∀ f, s0.memFault c = some f →
      let t := (((s0.mapDev (·.segFault (.host p) f.1 f.2.1 f.2.2)).finishCmd c 0x16
        (dtl 44 44 f.2.1 + dtl 48 55 (f.2.2 % 2 ^ 64).toNat)).noneWaiting)
      (eRead e = false → exec (.memTransferWrite p q h e) s = .next t) ∧ (eRead e = true → exec (.memTransferRead p q h e) s = .next t))

/-- A QUERY writes the reply of its ITEM into host memory, cut to the length that the entry gives, and answers how many bytes it
wrote (R528): IDENTITY with a fresh nonce (R540), the answer to an SPDM request (R541), STATE, a run of registers, a unit's health
record, or the error records from one sequence number on. -/
def Obligations.Queries : Prop :=
  ∀ (s : State) (p q : Fin 2) (h : W32) (e : Entry64), s.Fetches p q h e → eOp e = opQuery →
    let s0 := s.taken p q h e
    let answered (t : State) (reply : List Byte) : Host.Outcome State Fault Refusal :=
      .next (((t.hostWrite (eReply e) (reply.take (eReplyLen e))).finishCmd (hostRun p q h e) 0x00
        (dtl 32 35 (reply.take (eReplyLen e)).length)).noneWaiting)
    let n := s0.drawNonce
    let a := s0.spdm (memReadList s.dev.ms.mem (hostBase + eReply e) (eReplyLen e))
    (eItem e = 0x00 → exec (.queryIdentity p q h e) s = answered n.1 (n.1.sec.identity s.primaryIo n.2))
    ∧ (eItem e = 0x01 → exec (.querySpdm p q h e) s = answered a.2 a.1)
    ∧ (eItem e = 0x10 → exec (.queryState p q h e) s = answered s0 s0.stateReply)
    ∧ (eItem e = 0x11 → exec (.queryRegisters p q h e) s = answered s0
      ((List.range (eReplyLen e / 4)).flatMap (fun i => leBytes 4 (s0.readWindow (eIndex e + 4 * i)))))
    ∧ (eItem e = 0x12 → exec (.queryHealth p q h e) s = answered s0 ((s.dev.health.get (eIndex e)).bytes (eIndex e)))
    ∧ (eItem e = 0x13 → exec (.queryErrors p q h e) s = answered s0 (s.errorsFrom (eIndex e)))

/-- RESET_DOMAIN starts the recovery of its domain with CAUSE 1 and waits for it, and the handle of a module reset stays with the
adapter (R509, R529); ENTER_UMBRA takes an idle module into Umbra (R577); LEAVE_UMBRA wakes it (R578). -/
def Obligations.ResetAndUmbra : Prop :=
  ∀ (s : State) (p q : Fin 2) (h : W32) (e : Entry64), s.Fetches p q h e →
    let s0 := s.taken p q h e
    let c := hostRun p q h e
    (eOp e = opReset → exec (.resetDomain p q h e) s = .next (s0.recover (eKind e) (eDomain e) 1 0xFFFF stReset
      (if eKind e = 5 then [] else [(qKey p q, cmdHandle p q h)]) []).noneWaiting)
    ∧ (eOp e = opEnter → s.fab.start = none → s.pwr.state = .running →
      ∃ t : State, exec (.enterUmbra p q h e) s = .next t ∧ t = ((s0.enterUmbra.finishCmd c 0x00 0).noneWaiting)
        ∧ t.pwr.umbra = true ∧ t.pwr.ready = false ∧ t.pwr.saved = true ∧ t.dev.ms.mem = memClear s.dev.ms.mem 0 (2 ^ 32)
        ∧ t.fab.tb = TimeBase.none)
    ∧ (eOp e = opLeave → exec (.leaveUmbra p q h e) s = .next ((s0.wake.finishCmd c 0x00 0).noneWaiting))

/-- A host command whose checks fail changes nothing but its count and completes with its status: 0x30 behind a fence or in Umbra, 0x40
where no session is open and it needs one, 0x41 on a false MAC, 0x11 on a bad form (R505, R521, R530, R550). Stated for the entries
of START_ORBITS, WRITE_STEP_SIZE and RESET_DOMAIN. -/
def Obligations.HostCommandRefusals : Prop :=
  ∀ (s : State) (p q : Fin 2) (h : W32) (e : Entry64), (s.port p).state = 2 → s.hst.waiting = [] → s.resetPending (qKey p q) = false →
    let c := hostCmd p q h e
    let out (t : State) (status : Nat) : Prop :=
      (eOp e = opStart → exec (.startOrbits p q h e) s = .next ((t.finishCmd c status 0).noneWaiting))
      ∧ (eOp e = opStep → exec (.writeStepSize p q h e) s = .next ((t.finishCmd c status 0).noneWaiting))
      ∧ (eOp e = opReset → exec (.resetDomain p q h e) s = .next ((t.finishCmd c status 0).noneWaiting))
    let held : State := { s with hst := { (s.carried c).hst with waiting := [c] } }
    (s.hostFenced e = true → out held 0x30)
    ∧ (s.hostFenced e = false → s.sec.session = none → (eOp e = opStart ∨ eOp e = opStep ∨ eOp e = opReset) → out held 0x40)
    ∧ (∀ x, s.hostFenced e = false → s.sec.session = some x →
      let good : Prop := x.mac (qKey p q) (x.cmdNumber.get (qKey p q)) e = macOf e
      (¬ good → out { s.taken p q h e with sec := { (s.taken p q h e).sec with macFails := satAdd 0xFFFF s.sec.macFails 1 } } 0x41)
      ∧ (good → (eReservedZero e && eInRange e) = false → out (s.taken p q h e) 0x11)
      ∧ (good → eReservedZero e = true → eInRange e = true → s.pwr.umbra = true → eAlways e = false → out (s.taken p q h e) 0x30))

/-! ### Adapter and Efmus ports -/

/-- A doorbell on an enabled queue fetches every entry up to the tail, in ring order (R517), unless the ring read fails, which sets
FETCH_ERR and stops the queue's fetching (EHL_Q_STATUS); a write of the completion head makes room
for the records that wait (R519); enabling a queue takes its bases and restarts its rings, and no base changes while it is enabled
(R519); a record that reaches the adapter is written at its ring's tail and ends its handle's life (R514, R533). -/
def Obligations.AdapterRings : Prop :=
  ∀ (s : State) (p q : Fin 2),
    let k := qKey p q
    let x := s.queue k
    (∀ tail : W32, qEnabled x = true → x.fetchErr = false → x.sqHead < sqSize x →
      let rung := s.updQueue k (fun y => { y with sqTail := tail &&& 0xFFFF })
      ∃ t : State, exec (.sqDoorbell p q tail false) s = .next t ∧ t = fetchEntries 1024 k rung
        ∧ (t.queue k).sqTail = tail &&& 0xFFFF ∧ (t.queue k).sqHead = (tail &&& 0xFFFF).toNat % sqSize x)
    ∧ (∀ (tail : W32) (f : Bool), (qEnabled x = false ∨ x.fetchErr = true) →
      exec (.sqDoorbell p q tail f) s = .next (s.updQueue k (fun y => { y with sqTail := tail &&& 0xFFFF })))
    ∧ (∀ tail : W32, qEnabled x = true → x.fetchErr = false →
      exec (.sqDoorbell p q tail true) s = .next ((s.updQueue k (fun y => { y with sqTail := tail &&& 0xFFFF })).updQueue k
        (fun y => { y with fetchErr := true })))
    ∧ (∀ head : W32,
      let moved := s.updQueue k (fun y => { y with cqHead := head &&& 0xFFFF })
      exec (.cqHeadWrite p q head) s = .next (drainRing 4096 k moved)
      ∧ (x.waiting = [] → exec (.cqHeadWrite p q head) s = .next moved)
      ∧ ∀ r, x.waiting = [r] → (moved.queue k).full = false →
        ∃ t : State, exec (.cqHeadWrite p q head) s = .next t ∧ (t.queue k).waiting = [] ∧ (t.queue k).cqTail = (x.cqTail + 1) % cqSize x
          ∧ t.dev.ms.mem = memWriteList s.dev.ms.mem (ringAddr x.cqBase + 64 * x.cqTail) r.bytes)
    ∧ (∀ value ack cq : W64,
      let based (y : HQueue) : HQueue := { y with
        sqBase := BitVec.ofNat 64 (value.toNat / 4096 * 4096 + value.toNat % 32)
        ackBase := BitVec.ofNat 64 (ack.toNat / 4096 * 4096)
        cqBase := BitVec.ofNat 64 (cq.toNat / 4096 * 4096 + cq.toNat % 16) }
      (qEnabled x = true → exec (.queueEnable p q value ack cq) s
        = .next (s.updQueue k (fun y => { y with sqBase := setBits y.sqBase 4 4 (bitsOf value 4 4) })))
      ∧ (qEnabled x = false → bitOf value 4 = false → exec (.queueEnable p q value ack cq) s = .next (s.updQueue k based))
      ∧ (qEnabled x = false → bitOf value 4 = true → exec (.queueEnable p q value ack cq) s
        = .next (s.updQueue k (fun y => { based y with accepted := 0, sqTail := 0, cqHead := 0, sqHead := 0, cqTail := 0 }))))
    ∧ (∀ r rest, (s.port p).state = 2 → (s.port p).hold = r :: rest → qKey (hPort r.handle) (hQueue r.handle) = k →
      x.outstanding.any (fun o => o.handle == r.handle) = true → bitOf r.flags 15 = true → x.full = false → x.waiting = [] →
      let r' : CompRec := { r with dropped := min 0xFFFF (s.port p).dropped }
      ∃ t : State, exec (.completionRecord p) s = .next t ∧ (t.port p).hold = rest ∧ (t.port p).dropped = 0
        ∧ (t.queue k).outstanding = x.outstanding.filter (fun o => o.handle != r.handle) ∧ (t.queue k).cqTail = (x.cqTail + 1) % cqSize x
        ∧ t.dev.ms.mem = memWriteList s.dev.ms.mem (ringAddr x.cqBase + 64 * x.cqTail) r'.bytes)

/-- A port that has trained is UP with keys, and the held records go out (R514, R556); a port that drops is DOWN without keys (R514);
100 ms later the adapter completes every handle but those of module resets (R515), which it completes after 10 s (R529), where no
handle of a module reset is also another command's. -/
def Obligations.EfmusPorts : Prop :=
  ∀ (s : State) (p : Fin 2),
    let told (k : Nat) : Prop := ∀ o ∈ (s.queue k).outstanding, ∀ o' ∈ (s.queue k).outstanding, o.kind5 ≠ o'.kind5 → o.handle ≠ o'.handle
    ((s.port p).state ≠ 2 → exec (.efmusPortUp p) s = .next
      ((deliverHeld 4096 p (s.updPort p (fun x => { x with state := 2, lost := false, keyed := true }))).finishKind5 p))
    ∧ ((s.port p).state = 2 → exec (.efmusPortDown p) s = .next
      (s.updPort p (fun x => { x with state := 0, keyed := false, retrains := satAdd 0xFF x.retrains 1 })))
    ∧ ((s.port p).state ≠ 2 → (s.port p).lost = false → told (qKey p 0) → told (qKey p 1) →
      ∃ t : State, exec (.portLinkLost p) s = .next t ∧ (t.port p).lost = true
        ∧ (t.queue (qKey p 0)).outstanding = (s.queue (qKey p 0)).outstanding.filter (·.kind5)
        ∧ (t.queue (qKey p 1)).outstanding = (s.queue (qKey p 1)).outstanding.filter (·.kind5))
    ∧ (((s.port p).state ≠ 2 ∨ s.pwr.ready = false) → told (qKey p 0) → told (qKey p 1) →
      ∃ t : State, exec (.resetHoldTimeout p) s = .next t
        ∧ (t.queue (qKey p 0)).outstanding = (s.queue (qKey p 0)).outstanding.filter (fun o => !o.kind5)
        ∧ (t.queue (qKey p 1)).outstanding = (s.queue (qKey p 1)).outstanding.filter (fun o => !o.kind5))

/-! ### Management -/

/-- SET_HEALTH and SET_WATCHDOG with every value in its range take effect at the next start slot, and change nothing and answer
ERROR_INVALID_DATA with any value outside it (R475, R494); UNIT_RETURN notes the level at which the next module reset returns the
unit (R481). -/
def Obligations.Settings : Prop :=
  ∀ (s : State),
    (∀ a b c : Nat,
      let good : Prop := (2 ≤ a ∧ a ≤ 255) ∧ (1 ≤ b ∧ b ≤ 8760) ∧ (1 ≤ c ∧ c ≤ 65535)
      (good → s.pwr.moonletUp = true → exec (.setHealth a b c) s = .next { s with moon := { s.moon with
        next := some { s.settings with histLimit := a, histWindow := b, memLimit := c }, lastOk := true } })
      ∧ (¬ good → exec (.setHealth a b c) s = .next { s with moon := { s.moon with lastOk := false } }))
    ∧ (∀ a b c d : Nat,
      let good : Prop := (1 ≤ a ∧ a ≤ 20000) ∧ (1 ≤ b ∧ b ≤ 1000) ∧ (1 ≤ c ∧ c ≤ 1000) ∧ (2 ≤ d ∧ d ≤ 100)
      (good → s.pwr.moonletUp = true → exec (.setWatchdog a b c d) s = .next { s with moon := { s.moon with
        next := some { s.settings with coreMs := a, ceMs := b, msuMs := c, cpMs := d }, lastOk := true } })
      ∧ (¬ good → exec (.setWatchdog a b c d) s = .next { s with moon := { s.moon with lastOk := false } }))
    ∧ (∀ (unit : BitVec 16) (level : BitVec 2), unitExists unit.toNat = true →
      let h := s.dev.health.get unit.toNat
      let may : Prop := (h.state = 1 ∧ level.toNat < h.level) ∨ (h.state = 2 ∧ level.toNat ≤ h.level)
      (may → ∃ t, exec (.unitReturn unit level) s = .next t ∧ t.dev.health.get unit.toNat = { h with returnTo := some level.toNat }
        ∧ t.moon = { s.moon with lastOk := true })
      ∧ (¬ may → exec (.unitReturn unit level) s = .next { s with moon := { s.moon with lastOk := false } }))

/-- READ_CRASH and READ_ERRORS return the records of a sequence number (R490, R583), SPDM_REQUEST the answer to the request (R541),
FIRMWARE_UPDATE fills the bank that is not in use (R543), and an acknowledgement releases ALERT_N (R581). -/
def Obligations.ManagementReads : Prop :=
  ∀ (s : State),
    (∀ (n : W32) c, s.moon.crashes.find? (fun c => c.hdr.sequence == n.toNat) = some c →
      exec (.readCrash n) s = .next { s with moon := { s.moon with reply := c.bytes, lastOk := true } })
    ∧ (∀ n : W32, s.moon.crashes.find? (fun c => c.hdr.sequence == n.toNat) = none →
      exec (.readCrash n) s = .next { s with moon := { s.moon with lastOk := false } })
    ∧ (∀ n : W32, exec (.readErrors n) s = .next { s with moon := { s.moon with reply := s.errorsFrom n.toNat, lastOk := true } })
    ∧ (∀ l : List Byte, s.pwr.state = .running → exec (.spdmRequest l) s = .next { s with
        dev := s.dev.draw.2, moon := { s.moon with reply := Config.spdmReply s.dev.free l s.measured, lastOk := true } })
    ∧ (∀ (io : Fin 2) (isCp : Bool) (l : List Byte), ∃ t, exec (.firmwareUpdate io isCp l) s = .next t
      ∧ (let i := 2 * io.val + boolNat isCp
         let b := s.sec.fw.get i
         (b.usedB = true → t.sec.fw.get i = { b with bankA := l }) ∧ (b.usedB = false → t.sec.fw.get i = { b with bankB := l })
           ∧ ∀ j, j ≠ i → t.sec.fw.get j = s.sec.fw.get j))
    ∧ (∃ t, exec .eventAcknowledge s = .next t ∧ t = { s with moon := { s.moon with events := 0 } } ∧ t.alertN = true)

/-- The clears of a core's saturation count (R70), of HOT (R357) and of a FAULT bit, which arms the next record (R315); a masked write of
a register clears or sets its fields as their access allows (R8, R9, R585), and one that names no such register is refused. -/
def Obligations.ClearsAndRegisterWrites : Prop :=
  ∀ (s : State),
    (∀ n : Fin 128, ∃ t, exec (.satCountClear n) s = .next t ∧ t.dev.core n = { s.dev.core n with satCount := 0 }
      ∧ t.dev.ms = s.dev.ms ∧ ∀ m, m ≠ n.val → t.dev.core m = s.dev.core m)
    ∧ (∀ u : Fin 16, ∃ t, exec (.hotClear u) s = .next t ∧ t.dev.msu u = { s.dev.msu u with hotStatus := setBits (s.dev.msu u).hotStatus 0 0 0 }
      ∧ t.dev.ms = s.dev.ms ∧ ∀ v, v ≠ u.val → t.dev.msu v = s.dev.msu v)
    ∧ (∀ k : Fin 6, ∃ t, exec (.segFaultClear k) s = .next t ∧ t.dev.segFaults.get k = { s.dev.segFaults.get k with fault := false }
      ∧ t.dev.ms = s.dev.ms ∧ ∀ j, j ≠ k.val → t.dev.segFaults.get j = s.dev.segFaults.get j)
    ∧ (∀ (a : W32) (v m : W64) b, s.regRefused a.toNat = false → s.pwr.railsOk = true → blockOf a.toNat = some b →
      exec (.regWrite a v m) s = .next ((s.writeBlock (a.toNat % 0x10000) v m b).answer true))
    ∧ (∀ (a : W32) (v m : W64), (s.regRefused a.toNat = true ∨ s.pwr.railsOk = false) →
      exec (.regWrite a v m) s = .next { s with moon := { s.moon with lastOk := false } })
    ∧ (∀ (c : Core) (v m : W64) (x y : Bool), bitOf v 3 = x → bitOf m 3 = y →
      (writeCore c 0x0140 v m).fp32Ovf = (c.fp32Ovf && !(x && y))
      ∧ (writeCore c 0x0140 v m).satCount = (if bitOf v 4 && bitOf m 4 then 0 else c.satCount))

/-- A debug token that passes every check puts its rights in force for its duration, FW_DEBUG ending the session and withdrawing
the tier-2 keys, and any token's nonce is used up (R558, R559); its expiry takes the rights away (R559). WAKE wakes the module
(R578), and MODULE_RESET recovers the whole module with CAUSE 5, or restarts a module that is still powering up (R503). -/
def Obligations.DebugAndModuleReset : Prop :=
  ∀ (s : State),
    (∀ t : BitVec 2560, s.pwr.ready = true →
      let read : State := { s with sec := s.sec.consume (of384 (tkField t 56 103)), moon := { s.moon with lastOk := s.tokenOk t } }
      let given : State := { read with sec := { read.sec with debug := tkRights t, debugUntil := s.dev.poweredMin + tkDuration t } }
      (s.tokenOk t = false → exec (.debugToken t) s = .next
        ({ read with sec := { read.sec with openFails := satAdd 0xFF read.sec.openFails 1 } } : State).releaseWaiting)
      ∧ (s.tokenOk t = true → bitOf (tkRights t) 3 = false → exec (.debugToken t) s = .next given.releaseWaiting)
      ∧ (s.tokenOk t = true → bitOf (tkRights t) 3 = true →
        exec (.debugToken t) s = .next ({ given.endSession with sec := { given.endSession.sec with t2Key := none } } : State).releaseWaiting))
    ∧ (s.sec.debug ≠ 0 → ∃ t, exec .debugExpiry s = .next t ∧ t.sec.debug = 0 ∧ t.sec.debugUntil = 0
      ∧ t.dev.poweredMin = max s.dev.poweredMin s.sec.debugUntil ∧ t.sec.t2Key = s.sec.opened.map (fun o => (o.keyDigest, s.sec.ownerGen)))
    ∧ (s.pwr.umbra = true → s.pwr.state = .running → s.hst.waiting = [] →
      ∃ t, exec .wake s = .next t ∧ t.pwr.umbra = false ∧ t.pwr.ready = true ∧ t.moon.lastOk = true)
    ∧ (s.pwr.state = .running → exec .moduleReset s = .next (((s.recover 5 0 5 0xFFFF stReset [] []).answer true).releaseWaiting))
    ∧ (s.pwr.state = .powering → exec .moduleReset s = .next ((s.startCycle.answer true).releaseWaiting))
    ∧ (s.pwr.state ≠ .running → s.pwr.state ≠ .powering → exec .moduleReset s = .next ((s.answer false).releaseWaiting))

/-! ### Power and reset -/

/-- Start-up in its order (R563): the input reaches its level; Moonlet boots and, with PWR_EN high, samples COOLING_ID and releases the
rails unless a rule of R565 holds them; the halves claim the primary role by their straps (R504); both images of both IO dies boot
(R542); and READY is released with the health records in force, the ports UP and the links in TRAINING. -/
def Obligations.StartUp : Prop :=
  ∀ (s : State),
    (s.pwr.state = .unpowered → exec .inputOn s = .next { s with pwr := { s.pwr with state := .standby, moonletUp := false, cap := 4095, capNext := none } })
    ∧ (s.pwr.state = .standby →
      let up : State := { s with pwr := { s.pwr with moonletUp := true } }
      (s.pwr.pwrEn = false → exec .railRelease s = .next up) ∧ (s.pwr.pwrEn = true → exec .railRelease s = .next up.release))
    ∧ (s.pwr.pwrEn = false →
      let on : State := { s with pwr := { s.pwr with pwrEn := true } }
      (s.pwr.state = .standby → s.pwr.moonletUp = true → exec .pwrEnRise s = .next on.release)
      ∧ ((s.pwr.state ≠ .standby ∨ s.pwr.moonletUp = false) → exec .pwrEnRise s = .next on))
    ∧ (classOf s.pwr.coolingNow ≠ 3 → s.pwr.tripLatch = false → s.pwr.faultBoot = false → s.pwr.faultRail = false →
      s.release = { s with pwr := { s.pwr with
        coolingId := s.pwr.coolingNow, faultKit := false, faultTrip := false, state := .powering, railsOk := true } })
    ∧ (s.pwr.state = .standby → s.pwr.pwrEn = true →
      (classOf s.pwr.coolingNow = 3 ∨ s.pwr.tripLatch = true ∨ s.pwr.faultBoot = true ∨ s.pwr.faultRail = true) →
      ∃ t, exec .railRelease s = .next t ∧ t.pwr.state = .standby ∧ t.pwr.railsOk = s.pwr.railsOk ∧ t.faultNPin = false
        ∧ t.moon.events = s.moon.events + 1)
    ∧ (∀ a b : Bool, s.pwr.state = .powering →
      ∃ t, exec (.primaryClaim a b) s = .next t
        ∧ (t.fab.regs.get 0).primary = (!a || !b) ∧ (t.fab.regs.get 1).primary = (a && b) ∧ (t.fab.regs.get 0).strap = a
        ∧ (t.fab.regs.get 1).strap = b ∧ (t.fab.regs.get 0).dualPrimary = (!a && b) ∧ (t.fab.regs.get 0).noPrimary = (a && !b))
    ∧ (∀ fw, s.pwr.state = .powering → bootAll [0, 1, 2, 3] s.sec.fw = some fw →
      ∃ t, exec .secureBoot s = .next t ∧ t.sec.bootOk = true ∧ t.sec.fw = fw ∧ t.dev = s.dev ∧ t.pwr = s.pwr)
    ∧ (s.pwr.state = .powering → bootAll [0, 1, 2, 3] s.sec.fw = none →
      ∃ t, exec .secureBoot s = .next t ∧ t.pwr.state = .standby ∧ t.pwr.railsOk = false ∧ t.pwr.faultBoot = true)
    ∧ (s.pwr.state = .powering → s.sec.bootOk = true →
      ∃ t, exec .powerUpReady s = .next t ∧ t.pwr.state = .running ∧ t.pwr.ready = true ∧ t.pwr.cap = clampCap s.envelope s.pwr.cap)

/-- The rails fall at a power-down, which first completes what is in flight with 0x30 (R567); at a brown-out, which also loses tier 2
and clears what only the input's removal clears (R568); at an overvoltage and at a thermal trip, which latches THERMTRIP_N (R568,
R576). RESET_IN_N holds a module reset while it is low (R503), a rail cycle ends in a new release or, after two that never became
READY, in a fault (R564), and a change of COOLING_ID under power is noted and changes nothing else (R570). -/
def Obligations.RailsOff : Prop :=
  ∀ (s : State),
    (∃ t, exec .powerDown s = .next t ∧ t.pwr.pwrEn = false ∧ t.pwr.tripLatch = false ∧ t.pwr.faultTrip = false
      ∧ ((s.pwr.railsOk = true ∨ s.pwr.state = .inReset) → t.pwr.state = .standby ∧ t.pwr.railsOk = false ∧ t.pwr.ready = false
        ∧ t.sec.session = none ∧ t.dev.plan.installed = false))
    ∧ (s.pwr.state ≠ .unpowered →
      ∃ t, exec .brownOut s = .next t ∧ t.pwr.state = .unpowered ∧ t.pwr.railsOk = false ∧ t.pwr.tripLatch = false ∧ t.pwr.faultRail = false
        ∧ t.pwr.faultKit = false ∧ t.pwr.faultTrip = false ∧ t.pwr.faultBoot = false ∧ t.pwr.railFails = 0 ∧ t.dev.faultN = false
        ∧ ∀ a, t2Base ≤ a → a < t2Base + t2Size → memGet t.dev.ms.mem a = 0)
    ∧ (s.pwr.railsOk = true → exec .overvoltage s = .next (s.dropRails .standby))
    ∧ (s.pwr.railsOk = true → ∃ t, exec .thermalTrip s = .next t ∧ t.pwr.state = .standby ∧ t.pwr.tripLatch = true ∧ t.pwr.railsOk = false
      ∧ t.thermtripN = false ∧ t.moon.events = s.moon.events + 1)
    ∧ (let low : State := { s with pwr := { s.pwr with resetInN := false } }
       (s.pwr.state = .running → exec .resetInN s = .next (low.recover 5 0 5 0xFFFF stReset [] []).releaseWaiting)
       ∧ (s.pwr.state = .powering → exec .resetInN s = .next low.startCycle.releaseWaiting)
       ∧ (s.pwr.state ≠ .running → s.pwr.state ≠ .powering → exec .resetInN s = .next low.releaseWaiting))
    ∧ exec .resetInNRise s = .next { s with pwr := { s.pwr with resetInN := true } }
    ∧ (s.pwr.resetInN = true → s.pwr.state = .inReset → s.pwr.cycling = true →
      exec .railCycleDone s = .next ({ s with pwr := { s.pwr with cycling := false, railFails := 1 } } : State).release)
    ∧ (s.pwr.resetInN = true → s.pwr.state = .powering → s.pwr.railFails = 1 →
      exec .railCycleDone s = .next ({ s.railsOff with pwr := { s.railsOff.pwr with railFails := 2 } } : State).release)
    ∧ (s.pwr.resetInN = true → s.pwr.state = .powering → 2 ≤ s.pwr.railFails →
      ∃ t, exec .railCycleDone s = .next t ∧ t.pwr.state = .standby ∧ t.pwr.faultRail = true ∧ t.pwr.railsOk = false)
    ∧ (∀ code : BitVec 3, code ≠ s.pwr.coolingNow →
      ∃ t, exec (.coolingIdChange code) s = .next t ∧ t.pwr.coolingNow = code ∧ t.pwr.coolingId = s.pwr.coolingId ∧ t.pwr.cap = s.pwr.cap
        ∧ (s.pwr.railsOk = true → ∀ h : Fin 2, (t.pwr.halves.get h).kitChanged = true
          ∧ (t.pwr.halves.get h).kitChanges = satAdd 0xFF (s.pwr.halves.get h).kitChanges 1))

/-- The chassis cap is clamped to 1,200 W and the envelope (R571): an emergency cap acts at once (R574), another at the next start slot
while orbits run and at once otherwise. The module's cap is divided with at least 40 % to each half, all of it given out (R571). The
controller of a half lowers its clock by four steps above 110 % of its budget and by one above it, raises it by one below 97 %, lowers
it under a temperature limit (R572, R573), and keeps to the levels of R573; and PWR_INPUT takes the meter's reading. -/
def Obligations.PowerControl : Prop :=
  ∀ (s : State), s.pwr.ready = true →
    (∀ w : Nat,
      let c := max 1200 (min s.envelope w)
      ∃ t u, exec (.setCap w) s = .next t ∧ exec (.emergencyCap w) s = .next u ∧ t.moon.lastOk = true ∧ u.moon.lastOk = true
        ∧ (s.runState = 0 → t.pwr.cap = c ∧ t.pwr.capNext = none) ∧ (s.runState ≠ 0 → t.pwr.cap = s.pwr.cap ∧ t.pwr.capNext = some c)
        ∧ u.pwr.cap = c ∧ u.pwr.capNext = none)
    ∧ (∀ a b : Nat,
      let c := min s.pwr.cap s.envelope
      ∃ t, exec (.budgetDivide a b) s = .next t ∧ (t.pwr.halves.get 0).draw = a ∧ (t.pwr.halves.get 1).draw = b ∧ t.pwr.pinW = a + b
        ∧ ((s.fab.regs.get 0).separated = true → (t.pwr.halves.get 0).budget = c / 2 ∧ (t.pwr.halves.get 1).budget = c / 2)
        ∧ ((s.fab.regs.get 0).separated = false → 8 ≤ c →
          (t.pwr.halves.get 0).budget + (t.pwr.halves.get 1).budget = c
          ∧ 4 * c ≤ 10 * (t.pwr.halves.get 0).budget ∧ 4 * c ≤ 10 * (t.pwr.halves.get 1).budget))
    ∧ (∀ (h : Fin 2) (w : Nat) (x : Temps) (m : MeterIn),
      let p := s.pwr.halves.get h
      let n := powerLevel p
      ∃ t, exec (.powerControlTick h w x m) s = .next t
        ∧ t.pwr.vinMv = m.vinMv.toNat ∧ t.pwr.iin10ma = m.iin10ma.toNat ∧ t.pwr.peakW = max s.pwr.peakW m.meanW.toNat
        ∧ (let y := t.pwr.halves.get h
           y.Legal ∧ y.budget = p.budget ∧ y.temps = x
           ∧ (n ≤ 39 → p.budget * 110 < w * 100 → powerLevel y = min 39 (n + 4))
           ∧ (n ≤ 39 → p.budget < w → w * 100 ≤ p.budget * 110 → powerLevel y = min 39 (n + 1))
           ∧ (n ≤ 39 → w ≤ p.budget → atLimit x &&& 7 ≠ 0 → powerLevel y = min 39 (n + 1))
           ∧ (n ≤ 39 → w * 100 < p.budget * 97 → (p.hot ||| atLimit x) &&& ~~~(coolAgain x) &&& 7 = 0 → atLimit x &&& 7 = 0 →
              powerLevel y = n - 1)
           ∧ (n ≤ 39 → p.budget * 97 ≤ w * 100 → w ≤ p.budget → atLimit x &&& 7 = 0 → powerLevel y = n)))

/-! ### Values and windows -/

/-- The residue of ±m · 2^e is m mod 65,535 rotated left by e mod 16 in 16 bits, or 65,535 minus that; residues add with end-around
carry, and the residue of a product or a sum is that of the residues' product or sum, 0x0000 and 0xFFFF both standing for zero (R103).
The model keeps residues below 65,535. -/
def Obligations.Residues : Prop :=
  (∀ (m : Nat) (e : Int),
    let rot := ((BitVec.ofNat 16 (m % 65535)).rotateLeft (e % 16).toNat).toNat
    resOf false m e = rot % 65535 ∧ resOf true m e = (65535 - rot) % 65535)
  ∧ (∀ a b : BitVec 16,
    let sum := a.toNat + b.toNat
    resAdd a.toNat b.toNat = (sum % 65536 + sum / 65536) % 65535)
  ∧ (∀ (n n' : Bool) (m m' : Nat) (e e' : Int), resOf (n != n') (m * m') (e + e') = resMul (resOf n m e) (resOf n' m' e'))
  ∧ (∀ (n : Bool) (m k : Nat) (e : Int), resOf n (m * 2 ^ k) e = resOf n m (e + k))
  ∧ (∀ (x y e : Int), resOf (decide (x + y < 0)) (x + y).natAbs e
      = resAdd (resOf (decide (x < 0)) x.natAbs e) (resOf (decide (y < 0)) y.natAbs e))

/-- A contribution enters the window with its magnitude cut toward zero to a whole multiple of 2^(A − 69), its sign kept (R56); after a
pass W is the sum of the cut contributions in 80 bits, and S says whether any lost a nonzero bit, whatever the order in which they
came (R56, R57). -/
def Obligations.Windows : Prop :=
  (∀ (a e : Int) (n : Bool) (m k : Nat),
    let t := truncContrib a (.num n m e)
    (e = a - 69 + k → t.1 = (if n then -((m * 2 ^ k : Nat) : Int) else ((m * 2 ^ k : Nat) : Int)) ∧ t.2.1 = false)
    ∧ (e = a - 69 - k → t.1 = (if n then -((m / 2 ^ k : Nat) : Int) else ((m / 2 ^ k : Nat) : Int)) ∧ (t.2.1 = true ↔ m % 2 ^ k ≠ 0)))
  ∧ (∀ (a : Int) (due : Nat) (sp : Special) (l : List Contrib),
    (winOf a due sp l).1.w = BitVec.ofInt 80 ((l.map (fun c => (truncContrib a c).1)).foldr (· + ·) 0)
    ∧ ((winOf a due sp l).1.sticky = true ↔ ∃ c ∈ l, (truncContrib a c).2.1 = true)
    ∧ ∀ l', l.Perm l' → (winOf a due sp l').1 = (winOf a due sp l).1)

/-! ### The whole block -/

/-- A poisoned s register used as a control value stops the logical core before the instruction issues, with stop code 0x17, the core's
POISON_CTRL set and a vote to void the orbit with REASON STOPPED (R226): the shape register of STREAM, the descriptor registers of
DMAKE, the increment of SIGNAL, the count of WAIT, and the flow registers of any instruction, of which WSWAP stands here. -/
def Obligations.PoisonedControl : Prop :=
  ∀ (s : State) (core : Fin 128) (n : Nat) (w : IWord) (r : Nat), s.dev.runner core = some n → (s.dev.core core).takes = [] →
    (s.dev.core core).moveQ = [] → s.dev.ms.flip1.get (imemFlip core (s.dev.lc n).pc) = false →
    s.dev.ms.flip2.get (imemFlip core (s.dev.lc n).pc) = false → (s.dev.lc n).sPoison.get r = true → (s.dev.lc n).phys = core.val →
    let d := s.dev.stopPoisoned n
    let stopped : Host.Outcome State Fault Refusal := .next (s.mapDev (fun d => (d.stopPoisoned n).settle core))
    let queueStopped : Host.Outcome State Fault Refusal := .next (s.mapDev (fun d => ((d.stopPoisoned n).settle core).after core))
    (wOpcode w = opStream → (s.dev.core core).arrayQ.length < 8 → r = stShapeReg w → exec (.stream core w) s = queueStopped)
    ∧ (wOpcode w = opDmake → r ∈ dmRegs w → exec (.dmake core w) s = stopped)
    ∧ (wOpcode w = opSignal → sgIncReg w = true → r = sgIncreg w → exec (.signal core w) s = stopped)
    ∧ (wOpcode w = opWait → wtCntReg w = true → r = wtCntreg w → exec (.wait core w) s = stopped)
    ∧ (wOpcode w = opWswap → (s.dev.core core).arrayQ.length < 8 → r ∈ flowRegs w → exec (.wswap core w) s = queueStopped)
    ∧ (d.core core).poisonCtrl = true ∧ (d.core core).stopCode = 0x17
    ∧ ∀ run, findRun (s.dev.lc n).orbit s.dev.runs = some run →
        ∃ run', findRun (s.dev.lc n).orbit d.runs = some run' ∧ bitOf run'.reason rsStopped = true

/-- With a command at the front of the queue, a step is that command's meaning in the state with the queue's rest. -/
def Obligations.StepRunsTheFront : Prop :=
  ∀ (s : State) (c : Instr) (rest : List Instr), s.pending = c :: rest → Machine.step s = exec c { s with pending := rest }

/-- With an empty queue a step lets one tick of job time pass, 80 units of a sixteenth of a nanosecond (R401), and changes nothing else:
the model's choice (log 4). -/
def Obligations.EmptyQueueTick : Prop :=
  ∀ s : State, s.pending = [] → Machine.step s = .next { s with dev := { s.dev with time := s.dev.time + 80 } }

/-- The frame of every row: no command touches the queue of waiting commands; a row of the dies (every core instruction, Coma command and
memory-side command, and what ends them) changes the dies and their memories alone; and a row of the links, the transfers, the
collective, the health services and the host ports leaves power and security as they are. -/
def Obligations.FrameOfEveryRow : Prop :=
  ∀ (i : Instr) (s t : State), exec i s = .next t →
    (s.Inv → t.pending = s.pending)
    ∧ (touches i = .dies → t = { s with dev := t.dev })
    ∧ (touches i = .services → t.pending = s.pending ∧ t.pwr = s.pwr ∧ t.sec = s.sec)

/-- Every step keeps the invariant of the block: clock and duty at a level of R573, READY only in RUNNING outside Umbra, at most 64 owner
generations and 64 counter fuses burnt, an owner tag that is neither 0 nor 0xFF (R309, R542, R544, R562, R573, R577). -/
def Obligations.StepKeepsInvariant : Prop :=
  ∀ s t : State, s.Inv → Machine.step s = .next t → t.Inv

/-- The state after reset has the invariant of the block. -/
def Obligations.ResetHasInvariant : Prop := State.reset.Inv

/-- After reset every register reads the value that its table gives: zero, but for CE_MERGE_STATE, MSU_HOT_CONFIG, ORB_STATUS, ORB_SLACK
and the clock and DUTY of PWR_STATUS; every weight set is that of R80, the semaphores are 0, and nothing is owned, installed or running.
The links, which train before READY, and the fields loaded before READY stand aside. -/
def Obligations.ResetState : Prop :=
  let s := State.reset
  (∀ n : Fin 128, ∀ r ∈ s.coreRegs n, r.val = 0)
  ∧ (∀ n : Fin 32, (s.comaRegs n).map (fun r => (r.off, r.val))
      = [(0x100, 0), (0x104, 0), (0x110, 0x00020000), (0x120, 0), (0x180, 0), (0x184, 0)])
  ∧ (∀ n : Fin 16, ∀ r ∈ s.msuRegs n, r.val = if r.off = 0x400 then 0x640A3010 else 0)
  ∧ (∀ n : Fin 6, ∀ r ∈ s.segRegs n, r.val = 0)
  ∧ (∀ n : Fin 2, ∀ r ∈ s.orbRegs n, r.off ≠ 0x408 →
      r.val = if r.off = 0 then 0x0FC00000 else if r.off = 0x20 then 0x00100000FFFFFFFF else 0)
  ∧ (∀ n : Fin 2, ∀ r ∈ s.pwrRegs n, r.off ≠ 8 →
      if r.off = 0 then r.val / 2 ^ 13 = 0x3E8C8000 / 2 ^ 13 else r.val = 0)
  ∧ (∀ n : Fin 128, (s.dev.core n).active = WeightSet.blank ∧ (s.dev.core n).shadow = WeightSet.blank)
  ∧ (∀ n k : Nat, (s.dev.lc n).bound = false ∧ (s.dev.lc n).sems.get k = 0 ∧ (s.dev.msu n).sems.get k = 0 ∧ s.dev.streamSems.get k = 0)
  ∧ s.dev.plan.installed = false ∧ s.sec.session = none ∧ s.sec.owner = none ∧ s.hst.seq = 0 ∧ s.pending = []
  ∧ WeightSet.blank.tw = 0x3F800000 ∧ ∀ k, WeightSet.blank.cells.get k = 0 ∧ WeightSet.blank.scales.get k = 0x7F
    ∧ WeightSet.blank.rho.get k = 0

/-- A core instruction whose word carries another OPCODE than its row's, and a host command whose entry carries another OPCODE of Table
17-1, are no command of that row: they stop, and nothing happens. The model's choice (log 3). -/
def Obligations.WrongCommandsStop : Prop :=
  ∀ (s : State) (core : Fin 128) (w : IWord) (p q : Fin 2) (h : W32) (e : Entry64),
    let no : Host.Outcome State Fault Refusal := .fault .notThisCommand
    (wOpcode w ≠ opWload → exec (.wload core w) s = no) ∧ (wOpcode w ≠ opStream → exec (.stream core w) s = no)
    ∧ (wOpcode w ≠ opVop → ∀ g, exec (.vopVector core w g) s = no) ∧ (wOpcode w ≠ opMove → exec (.move core w) s = no)
    ∧ (wOpcode w ≠ opTake → exec (.take core w) s = no) ∧ (wOpcode w ≠ opHalt → exec (.halt core w) s = no)
    ∧ (eOp e ∈ hostOps → eOp e ≠ opLoad → exec (.loadPlan p q h e) s = no)
    ∧ (eOp e ∈ hostOps → eOp e ≠ opReset → exec (.resetDomain p q h e) s = no)
    ∧ ∀ t, exec (.wload core w) s = .next t → wOpcode w = opWload

/-- Memory: a write changes the bytes it names and no other, what it stores is read back, and it keeps the canonical form of memory, so
that equal memories are equal data; a byte that nothing has written reads as the model's choice (log 2). -/
def Obligations.MemoryCells : Prop :=
  (∀ (d : Dev) (l : List WItem) (p : Bool) (a : Nat), (∀ i ∈ l, i.addr ≠ a) → memGet (d.write l p).ms.mem a = memGet d.ms.mem a)
  ∧ (∀ (d : Dev) (l : List WItem) (p : Bool), Memory.wf d.ms.mem = true → Memory.wf (d.write l p).ms.mem = true)
  ∧ (∀ (d : Dev) (n a v : Nat) (p : Bool), memRead (d.write (wBytes a n v) p).ms.mem a n = v % 256 ^ n)
  ∧ (∀ (m : Mem) (l : List Byte) (a : Nat), memReadList (memWriteList m a l) a l.length = l)
  ∧ Memory.wf State.reset.dev.ms.mem = true ∧ ∀ a, memGet State.reset.dev.ms.mem a = 0
end

