-- ==== Sys2Proof/Laws/Bank.lean ====
section
/-! SUPPORT. The laws of sparse maps: a read after a write to the same key gives the value written, a write leaves every
other key alone, and every operation keeps the canonical form. -/
namespace Sys2Proof.Machine

section
variable {α : Type}

theorem cellGet_drop_same (d : α) (k : Nat) (l : List (Nat × α)) : cellGet d k (cellDrop k l) = d := by
  induction l with
  | nil => rfl
  | cons c r ih => obtain ⟨k', v⟩ := c; by_cases h : k' = k <;> simp [cellDrop, cellGet, h, ih]

theorem cellGet_drop_ne (d : α) {j k : Nat} (h : j ≠ k) (l : List (Nat × α)) :
    cellGet d j (cellDrop k l) = cellGet d j l := by
  induction l with
  | nil => rfl
  | cons c r ih =>
    obtain ⟨k', v⟩ := c
    by_cases h1 : k' = k
    · subst h1; simp [cellDrop, cellGet, ih, Ne.symm h]
    · simp [cellDrop, cellGet, h1, ih]

theorem cellGet_insert_ne (d : α) {j k : Nat} (h : j ≠ k) (v : α) (l : List (Nat × α)) :
    cellGet d j (cellInsert k v l) = cellGet d j l := by
  induction l with
  | nil => simp [cellInsert, cellGet, Ne.symm h]
  | cons c r ih =>
    obtain ⟨k', v'⟩ := c
    by_cases h1 : k < k' <;> simp [cellInsert, cellGet, h1, ih, Ne.symm h]

theorem cellGet_insert_drop (d : α) (k : Nat) (v : α) (l : List (Nat × α)) :
    cellGet d k (cellInsert k v (cellDrop k l)) = v := by
  induction l with
  | nil => simp [cellDrop, cellInsert, cellGet]
  | cons c r ih =>
    obtain ⟨k', v'⟩ := c
    by_cases h1 : k' = k
    · simp [cellDrop, h1, ih]
    · by_cases h2 : k < k' <;> simp [cellDrop, cellInsert, cellGet, h1, h2, ih]

variable [DecidableEq α]

theorem cellGet_set_same (d : α) (k : Nat) (v : α) (l : List (Nat × α)) :
    cellGet d k (cellSet d k v l) = v := by
  unfold cellSet
  split
  · next h => rw [cellGet_drop_same, h]
  · exact cellGet_insert_drop d k v l

theorem cellGet_set_ne (d : α) {j k : Nat} (h : j ≠ k) (v : α) (l : List (Nat × α)) :
    cellGet d j (cellSet d k v l) = cellGet d j l := by
  unfold cellSet
  split
  · exact cellGet_drop_ne d h l
  · rw [cellGet_insert_ne d h, cellGet_drop_ne d h]

@[simp] theorem Bank.get_const (d : α) (k : Nat) : (Bank.const d).get k = d := rfl

@[simp] theorem Bank.dflt_set (b : Bank α) (k : Nat) (v : α) : (b.set k v).dflt = b.dflt := rfl

@[simp] theorem Bank.get_set_same (b : Bank α) (k : Nat) (v : α) : (b.set k v).get k = v :=
  cellGet_set_same b.dflt k v b.cells

theorem Bank.get_set_ne (b : Bank α) {j k : Nat} (h : j ≠ k) (v : α) : (b.set k v).get j = b.get j :=
  cellGet_set_ne b.dflt h v b.cells

theorem cellDrop_insert (k : Nat) (v : α) : ∀ (l : List (Nat × α)), cellDrop k (cellInsert k v l) = cellDrop k l
  | [] => by simp [cellInsert, cellDrop]
  | (k', v') :: r => by
    by_cases h : k < k'
    · simp [cellInsert, h, cellDrop]
    · by_cases h2 : k' = k <;> simp [cellInsert, h, cellDrop, h2, cellDrop_insert k v r]

theorem cellDrop_drop (k : Nat) : ∀ (l : List (Nat × α)), cellDrop k (cellDrop k l) = cellDrop k l
  | [] => rfl
  | (k', v') :: r => by
    by_cases h : k' = k <;> simp [cellDrop, h, cellDrop_drop k r]

/-- The later of two writes to one key stands. -/
@[simp] theorem Bank.set_set (b : Bank α) (k : Nat) (v w : α) : (b.set k v).set k w = b.set k w := by
  have h : cellDrop k (cellSet b.dflt k v b.cells) = cellDrop k b.cells := by
    unfold cellSet
    split
    · exact cellDrop_drop k _
    · rw [cellDrop_insert, cellDrop_drop]
  have key : cellSet b.dflt k w (cellSet b.dflt k v b.cells) = cellSet b.dflt k w b.cells := by
    rw [cellSet, h]
    rfl
  exact congrArg (fun c => { b with cells := c }) key

theorem Bank.get_set (b : Bank α) (j k : Nat) (v : α) : (b.set k v).get j = if j = k then v else b.get j := by
  by_cases h : j = k
  · subst h; simp
  · simp [h, Bank.get_set_ne b h]

theorem cellGet_clear (d : α) (lo hi k : Nat) (l : List (Nat × α)) :
    cellGet d k (cellClear lo hi l) = if lo ≤ k ∧ k < hi then d else cellGet d k l := by
  induction l with
  | nil => simp [cellClear, cellGet]
  | cons c r ih =>
    obtain ⟨k', v⟩ := c
    by_cases h1 : lo ≤ k' ∧ k' < hi
    · by_cases h2 : k' = k
      · subst h2; simp [cellClear, cellGet, h1, ih]
      · simp [cellClear, cellGet, h1, h2, ih]
    · by_cases h2 : k' = k
      · subst h2; simp [cellClear, cellGet, h1]
      · simp [cellClear, cellGet, h1, h2, ih]

theorem Bank.get_clear (b : Bank α) (lo hi k : Nat) :
    (b.clear lo hi).get k = if lo ≤ k ∧ k < hi then b.dflt else b.get k :=
  cellGet_clear b.dflt lo hi k b.cells

/-! ### The canonical form -/

theorem cellsWf_weaken (d : α) {lo lo' : Nat} (h : lo' ≤ lo) {l : List (Nat × α)}
    (hw : cellsWf d (some lo) l = true) : cellsWf d (some lo') l = true := by
  cases l with
  | nil => rfl
  | cons c r =>
    obtain ⟨k, v⟩ := c
    simp only [cellsWf, Bool.and_eq_true, decide_eq_true_eq] at hw ⊢
    exact ⟨⟨by omega, hw.1.2⟩, hw.2⟩

theorem cellsWf_none (d : α) {lo : Nat} {l : List (Nat × α)} (hw : cellsWf d (some lo) l = true) :
    cellsWf d none l = true := by
  cases l with
  | nil => rfl
  | cons c r =>
    obtain ⟨k, v⟩ := c
    simp only [cellsWf, Bool.and_eq_true, decide_eq_true_eq] at hw ⊢
    exact ⟨hw.1.2, hw.2⟩

theorem cellsWf_tail (d : α) {o : Option Nat} {k : Nat} {v : α} {r : List (Nat × α)}
    (hw : cellsWf d o ((k, v) :: r) = true) : cellsWf d (some k) r = true := by
  cases o <;> simp only [cellsWf, Bool.and_eq_true] at hw <;> exact hw.2

theorem cellsWf_drop (d : α) (k : Nat) : ∀ (o : Option Nat) (l : List (Nat × α)),
    cellsWf d o l = true → cellsWf d o (cellDrop k l) = true
  | _, [], _ => by simp [cellDrop, cellsWf]
  | o, (k', v) :: r, hw => by
    by_cases h : k' = k
    · simp only [cellDrop, h, if_true]
      have ht := cellsWf_drop d k (some k') r (cellsWf_tail d hw)
      cases o with
      | none => exact cellsWf_none d ht
      | some lo =>
        simp only [cellsWf, Bool.and_eq_true, decide_eq_true_eq] at hw
        exact cellsWf_weaken d (by omega) ht
    · simp only [cellDrop, h, if_false]
      have ht := cellsWf_drop d k (some k') r (cellsWf_tail d hw)
      cases o <;> simp only [cellsWf, Bool.and_eq_true, decide_eq_true_eq] at hw ⊢
      · exact ⟨hw.1, ht⟩
      · exact ⟨hw.1, ht⟩

theorem cellsWf_insert (d : α) (k : Nat) (v : α) (hv : v ≠ d) : ∀ (o : Option Nat) (l : List (Nat × α)),
    cellsWf d o l = true → (∀ lo, o = some lo → lo < k) → (∀ c ∈ l, c.1 ≠ k) →
    cellsWf d o (cellInsert k v l) = true
  | none, [], _, _, _ => by simp [cellInsert, cellsWf, hv]
  | some lo, [], _, ho, _ => by simp [cellInsert, cellsWf, hv, ho lo rfl]
  | o, (k', v') :: r, hw, ho, hn => by
    have hne : k' ≠ k := hn (k', v') (by simp)
    by_cases h : k < k'
    · simp only [cellInsert, h, if_true]
      cases o with
      | none =>
        simp only [cellsWf, Bool.and_eq_true, decide_eq_true_eq] at hw ⊢
        exact ⟨hv, ⟨h, hw.1⟩, hw.2⟩
      | some lo =>
        simp only [cellsWf, Bool.and_eq_true, decide_eq_true_eq] at hw ⊢
        exact ⟨⟨ho lo rfl, hv⟩, ⟨h, hw.1.2⟩, hw.2⟩
    · simp only [cellInsert, h, if_false]
      have ht := cellsWf_insert d k v hv (some k') r (cellsWf_tail d hw)
        (fun lo e => by cases e; omega) (fun c hc => hn c (by simp [hc]))
      cases o <;> simp only [cellsWf, Bool.and_eq_true, decide_eq_true_eq] at hw ⊢
      · exact ⟨hw.1, ht⟩
      · exact ⟨hw.1, ht⟩

theorem mem_cellDrop_ne (k : Nat) : ∀ (l : List (Nat × α)), ∀ c ∈ cellDrop k l, c.1 ≠ k
  | [], c, hc => by simp [cellDrop] at hc
  | (k', v) :: r, c, hc => by
    by_cases h : k' = k
    · simp only [cellDrop, h, if_true] at hc; exact mem_cellDrop_ne k r c hc
    · simp only [cellDrop, h, if_false, List.mem_cons] at hc
      rcases hc with rfl | hc
      · exact h
      · exact mem_cellDrop_ne k r c hc

/-- Every write keeps the canonical form. -/
theorem cellsWf_set (d : α) (k : Nat) (v : α) (l : List (Nat × α)) (hw : cellsWf d none l = true) :
    cellsWf d none (cellSet d k v l) = true := by
  unfold cellSet
  split
  · exact cellsWf_drop d k none l hw
  · next h =>
    exact cellsWf_insert d k v h none _ (cellsWf_drop d k none l hw) (fun _ e => by cases e)
      (mem_cellDrop_ne k l)

/-- Clearing a range keeps the canonical form. -/
theorem cellsWf_clear (d : α) (lo hi : Nat) : ∀ (o : Option Nat) (l : List (Nat × α)),
    cellsWf d o l = true → cellsWf d o (cellClear lo hi l) = true
  | _, [], _ => by simp [cellClear, cellsWf]
  | o, (k', v) :: r, hw => by
    have ht := cellsWf_clear d lo hi (some k') r (cellsWf_tail d hw)
    by_cases h : lo ≤ k' ∧ k' < hi
    · rw [cellClear, if_pos h]
      cases o with
      | none => exact cellsWf_none d ht
      | some m =>
        simp only [cellsWf, Bool.and_eq_true, decide_eq_true_eq] at hw
        exact cellsWf_weaken d (by omega) ht
    · rw [cellClear, if_neg h]
      cases o <;> simp only [cellsWf, Bool.and_eq_true, decide_eq_true_eq] at hw ⊢
      · exact ⟨hw.1, ht⟩
      · exact ⟨hw.1, ht⟩

theorem Bank.wf_set (b : Bank α) (k : Nat) (v : α) (h : b.wf = true) : (b.set k v).wf = true :=
  cellsWf_set b.dflt k v b.cells h

theorem Bank.wf_clear (b : Bank α) (lo hi : Nat) (h : b.wf = true) : (b.clear lo hi).wf = true :=
  cellsWf_clear b.dflt lo hi none b.cells h

@[simp] theorem Bank.wf_const (d : α) : (Bank.const d).wf = true := rfl

theorem Bank.wf_upd (b : Bank α) (k : Nat) (f : α → α) (h : b.wf = true) : (b.upd k f).wf = true := Bank.wf_set b k _ h

theorem Bank.get_upd (b : Bank α) (j k : Nat) (f : α → α) : (b.upd k f).get j = if j = k then f (b.get k) else b.get j :=
  Bank.get_set b j k _

/-- A property of every value survives an update that keeps it. -/
theorem Bank.all_upd {P : α → Prop} {b : Bank α} (h : ∀ k, P (b.get k)) {f : α → α} (hf : ∀ x, P x → P (f x)) (n : Nat) :
    ∀ k, P ((b.upd n f).get k) := by
  intro k
  rw [Bank.get_upd]
  split
  · exact hf _ (h n)
  · exact h k

theorem cellGet_lt (d : α) {k : Nat} : ∀ (lo : Nat) (l : List (Nat × α)), cellsWf d (some lo) l = true → k ≤ lo → cellGet d k l = d
  | _, [], _, _ => rfl
  | lo, (k', v) :: r, hw, hk => by
    have ht := cellsWf_tail d hw
    simp only [cellsWf, Bool.and_eq_true, decide_eq_true_eq] at hw
    have hne : k' ≠ k := by omega
    simp only [cellGet, hne, if_false]
    exact cellGet_lt d k' r ht (by omega)

end

/-! ### Mapping every value -/

section
variable {α β : Type} [DecidableEq α] [DecidableEq β]

theorem foldl_set_dflt (f : α → β) : ∀ (l : List (Nat × α)) (acc : Bank β),
    (l.foldl (fun acc c => acc.set c.1 (f c.2)) acc).dflt = acc.dflt
  | [], _ => rfl
  | _ :: r, acc => by simp [foldl_set_dflt f r]

theorem foldl_set_wf (f : α → β) : ∀ (l : List (Nat × α)) (acc : Bank β), acc.wf = true →
    (l.foldl (fun acc c => acc.set c.1 (f c.2)) acc).wf = true
  | [], _, h => h
  | c :: r, acc, h => foldl_set_wf f r _ (Bank.wf_set acc c.1 (f c.2) h)

theorem foldl_set_get (f : α → β) (d : α) (k : Nat) : ∀ (o : Option Nat) (l : List (Nat × α)) (acc : Bank β),
    cellsWf d o l = true → (cellGet d k l = d → acc.get k = f d) →
    (l.foldl (fun acc c => acc.set c.1 (f c.2)) acc).get k = f (cellGet d k l) := by
  intro o l
  induction l generalizing o with
  | nil => intro acc _ h; exact h rfl
  | cons c r ih =>
    intro acc hw h
    obtain ⟨k', v⟩ := c
    have ht := cellsWf_tail d hw
    rw [List.foldl_cons]
    by_cases hk : k' = k
    · subst hk
      have hr : cellGet d k' r = d := cellGet_lt d k' r ht (Nat.le_refl _)
      have hv : cellGet d k' ((k', v) :: r) = v := by simp [cellGet]
      rw [hv]
      clear h hw hv
      have key : ∀ (o : Option Nat) (l : List (Nat × α)) (lo : Nat) (acc : Bank β), cellsWf d (some lo) l = true → k' ≤ lo →
          (l.foldl (fun acc c => acc.set c.1 (f c.2)) acc).get k' = acc.get k' := by
        intro o l
        induction l with
        | nil => intros; rfl
        | cons c l ihl =>
          intro lo acc hw hl
          have ht := cellsWf_tail d hw
          simp only [cellsWf, Bool.and_eq_true, decide_eq_true_eq] at hw
          rw [List.foldl_cons, ihl c.1 _ ht (by omega), Bank.get_set_ne _ (by omega)]
      rw [key none r k' _ ht (Nat.le_refl _)]
      simp
    · have hc : cellGet d k ((k', v) :: r) = cellGet d k r := by simp [cellGet, hk]
      rw [hc] at h ⊢
      apply ih (some k') _ ht
      intro h0
      rw [Bank.get_set_ne _ (Ne.symm hk)]
      exact h h0

/-- In a canonical map, mapping every value is mapping each value read. -/
theorem Bank.get_mapVals (f : α → β) (b : Bank α) (h : b.wf = true) (k : Nat) : (b.mapVals f).get k = f (b.get k) :=
  foldl_set_get f b.dflt k none b.cells _ h (fun _ => rfl)

theorem Bank.wf_mapVals (f : α → β) (b : Bank α) : (b.mapVals f).wf = true := foldl_set_wf f b.cells _ rfl

end
end Sys2Proof.Machine
end

