-- ==== Sys2Proof/Laws/Crypto.lean ====
section
/-! SUPPORT. Byte strings and their numbers, and how long the digests, keys and tags are. -/
namespace Sys2Proof.Machine

theorem leBytes_leNat (l : List Byte) : leBytes l.length (leNat l) = l := by
  induction l with
  | nil => rfl
  | cons b r ih =>
    have hb := b.isLt
    have h1 : BitVec.ofNat 8 (b.toNat + 256 * leNat r) = b := by
      apply BitVec.eq_of_toNat_eq
      simp only [BitVec.toNat_ofNat]
      omega
    have h2 : (b.toNat + 256 * leNat r) / 256 = leNat r := by omega
    simp only [List.length_cons, leBytes, leNat, h1, h2, ih]

theorem leNat_lt (l : List Byte) : leNat l < 256 ^ l.length := by
  induction l with
  | nil => simp [leNat]
  | cons b r ih =>
    have hb := b.isLt
    simp only [leNat, List.length_cons, Nat.pow_succ]
    omega

theorem leBytes_length (n x : Nat) : (leBytes n x).length = n := by
  induction n generalizing x with
  | zero => rfl
  | succ n ih => simp [leBytes, ih]

theorem zipAdd_length (a b : List W64) : (zipAdd a b).length = min a.length b.length := by
  induction a generalizing b with
  | nil => simp [zipAdd]
  | cons x a ih =>
    cases b with
    | nil => simp [zipAdd]
    | cons y b => simp only [zipAdd, List.length_cons, ih]; omega

theorem shaBlock_length (h : List W64) (b : List Byte) (k : h.length = 8) : (shaBlock h b).length = 8 := by
  simp [shaBlock, zipAdd_length, k]

theorem shaFold_length (l : List (List Byte)) : ∀ h : List W64, h.length = 8 → (l.foldl shaBlock h).length = 8 := by
  induction l with
  | nil => intro h k; exact k
  | cons b l ih => intro h k; exact ih _ (shaBlock_length h b k)

theorem sha384Init_length : sha384Init.length = 8 := by decide +kernel

theorem flatten_words (l : List W64) : ((l.map (fun w => beBytes 8 w.toNat)).flatten).length = 8 * l.length := by
  induction l with
  | nil => rfl
  | cons w l ih =>
    simp only [List.map_cons, List.flatten_cons, List.length_append, ih, List.length_cons]
    simp only [beBytes, List.length_reverse, leBytes_length]
    omega

/-- A digest is 48 bytes long. -/
theorem sha384_length (m : List Byte) : (sha384 m).length = 48 := by
  unfold sha384
  simp only [flatten_words, List.length_take, shaFold_length _ _ sha384Init_length]
  rfl

theorem hmac384_length (key m : List Byte) : (hmac384 key m).length = 48 := by
  unfold hmac384
  exact sha384_length _

/-- A string of bytes is the bytes of its number, held in a word of its length. -/
theorem leBytes_word {n w : Nat} (l : List Byte) (h : l.length = n) (hw : 8 * n ≤ w) : leBytes n (BitVec.ofNat w (leNat l)).toNat = l := by
  subst h
  have hp : 256 ^ l.length ≤ 2 ^ w := by
    rw [show (256 : Nat) = 2 ^ 8 from rfl, ← Nat.pow_mul]
    exact Nat.pow_le_pow_right (by decide) hw
  rw [BitVec.toNat_ofNat, Nat.mod_eq_of_lt (Nat.lt_of_lt_of_le (leNat_lt l) hp)]
  exact leBytes_leNat l

theorem xorBytes_length (a b : List Byte) : (xorBytes a b).length = min a.length b.length := by
  induction a generalizing b with
  | nil => simp [xorBytes]
  | cons x a ih =>
    cases b with
    | nil => simp [xorBytes]
    | cons y b => simp only [xorBytes, List.length_cons, ih]; omega

/-- Words of four bytes stay words of four bytes under the key expansion. -/
theorem aesExpand_words (n : Nat) : ∀ (i : Nat) (rc : Byte) (ws : List (List Byte)), 8 ≤ ws.length → (∀ w ∈ ws, w.length = 4) →
    (∀ w ∈ aesExpand n i rc ws, w.length = 4) ∧ (aesExpand n i rc ws).length = n + ws.length := by
  induction n with
  | zero => intro i rc ws _ h; exact ⟨h, by simp [aesExpand]⟩
  | succ n ih =>
    intro i rc ws k h
    unfold aesExpand
    dsimp only
    have h7 : (ws.getD 7 []).length = 4 := by
      rw [List.getD_eq_getElem?_getD, List.getElem?_eq_getElem (by omega), Option.getD_some]
      exact h _ (List.getElem_mem _)
    have h0 : (ws.headD []).length = 4 := by
      cases ws with
      | nil => simp at k
      | cons w ws => exact h w (by simp)
    have step (t : List Byte) (ht : t.length = 4) : ∀ w ∈ xorBytes (ws.getD 7 []) t :: ws, w.length = 4 := by
      intro w hw
      rcases List.mem_cons.1 hw with rfl | hw
      · rw [xorBytes_length, h7, ht]; rfl
      · exact h w hw
    have go (t : List Byte) (ht : t.length = 4) (rc' : Byte) :
        (∀ w ∈ aesExpand n (i + 1) rc' (xorBytes (ws.getD 7 []) t :: ws), w.length = 4)
        ∧ (aesExpand n (i + 1) rc' (xorBytes (ws.getD 7 []) t :: ws)).length = n + 1 + ws.length := by
      have := ih (i + 1) rc' (xorBytes (ws.getD 7 []) t :: ws) (by simp; omega) (step t ht)
      exact ⟨this.1, by rw [this.2, List.length_cons]; omega⟩
    apply go
    split
    · match hd : ws.headD [], h0 with
      | [a, b, c, d], _ => rfl
    · split
      · rw [List.length_map, h0]
      · exact h0

theorem flatten_length {n : Nat} (l : List (List Byte)) (h : ∀ w ∈ l, w.length = n) : l.flatten.length = n * l.length := by
  induction l with
  | nil => simp
  | cons w l ih =>
    rw [List.flatten_cons, List.length_append, ih (fun w k => h w (by simp [k])), h w (by simp), List.length_cons, Nat.mul_succ]
    omega

theorem chunks_length {n : Nat} (hn : 0 < n) (f : Nat) : ∀ l : List Byte, l.length = n * f →
    (chunks n f l).length = f ∧ ∀ w ∈ chunks n f l, w.length = n := by
  induction f with
  | zero => intro l _; simp [chunks]
  | succ f ih =>
    intro l h
    rw [Nat.mul_succ] at h
    have e : l.isEmpty = false := by cases l with
      | nil => simp at h; omega
      | cons => rfl
    have := ih (l.drop n) (by rw [List.length_drop]; omega)
    simp only [chunks, e, Bool.false_eq_true, if_false, List.length_cons, this.1, List.mem_cons, true_and]
    rintro w (rfl | hw)
    · rw [List.length_take]; omega
    · exact this.2 w hw

/-- Round keys of a key of 32 bytes. -/
theorem aesKeys_length (key : List Byte) (h : key.length = 32) : (aesKeys key).length = 15 ∧ ∀ k ∈ aesKeys key, k.length = 16 := by
  have c := chunks_length (n := 4) (by decide) 8 key (by omega)
  have e := aesExpand_words 52 8 1 (chunks 4 8 key).reverse (by rw [List.length_reverse]; omega) (fun w hw => c.2 w (List.mem_reverse.1 hw))
  apply chunks_length (by decide) 15
  rw [flatten_length (n := 4) _ (fun w hw => e.1 w (List.mem_reverse.1 hw)), List.length_reverse, e.2, List.length_reverse, c.1]

theorem aesShift_length (s : List Byte) : (aesShift s).length = 16 := by simp [aesShift]

theorem aesRounds_length (ks : List (List Byte)) : ∀ s, ks ≠ [] → (∀ k ∈ ks, k.length = 16) → (aesRounds ks s).length = 16 := by
  induction ks with
  | nil => intro s h; exact absurd rfl h
  | cons k ks ih =>
    intro s _ h
    cases ks with
    | nil =>
      rw [aesRounds, xorBytes_length, aesShift_length, h k (by simp)]
      rfl
    | cons k' ks =>
      rw [aesRounds]
      · exact ih _ (by simp) (fun x hx => h x (by simp [hx]))
      · simp

theorem aesBlock_length (key b : List Byte) (h : key.length = 32) : (aesBlock (aesKeys key) b).length = 16 := by
  have k := aesKeys_length key h
  apply aesRounds_length
  · intro c
    have := congrArg List.length c
    rw [List.length_drop, k.1] at this
    exact absurd this (by decide)
  · intro x hx; exact k.2 x (List.mem_of_mem_drop hx)

/-- A tag is 16 bytes long. -/
theorem gcmTag_length (key iv aad ct : List Byte) (h : key.length = 32) : (gcmTag key iv aad ct).length = 16 := by
  unfold gcmTag
  dsimp only
  rw [xorBytes_length]
  have : (gcmStream (aesKeys key) iv 1 1).length = 16 := by
    simp only [gcmStream, List.range_succ, List.range_zero, List.nil_append, List.map_cons, List.map_nil, List.flatten_cons, List.flatten_nil,
      List.append_nil]
    exact aesBlock_length _ _ h
  rw [this, beBytes, List.length_reverse, leBytes_length]
  rfl

theorem hkdf384_length (salt ikm info : List Byte) (n : Nat) (h : 0 < n) (k : n ≤ 48) : (hkdf384 salt ikm info n).length = n := by
  unfold hkdf384
  have : (n + 47) / 48 = 1 := by omega
  simp only [this, hkdfBlocks, List.append_nil, List.length_take, hmac384_length]
  omega

end Sys2Proof.Machine
end

