-- ==== Sys2Proof/Laws/Exec.lean ====
section
/-! SUPPORT. What `exec` is for each command: the shape of its row over its operation. -/
namespace Sys2Proof.Machine

theorem exec_wload (core : Fin 128) (w : IWord) (s : State) :
    exec (.wload core w) s = coreRow (wOpcode w == opWload) s (fun d => doWload d core w) := rfl
theorem exec_shadowSetValid (core : Fin 128) (s : State) :
    exec (.shadowSetValid core) s = devRow s (fun d => doShadowSetValid d core) := rfl
theorem exec_wswap (core : Fin 128) (w : IWord) (s : State) :
    exec (.wswap core w) s = coreRow (wOpcode w == opWswap) s (fun d => doWswap d core w) := rfl
theorem exec_weightSetExchange (core : Fin 128) (s : State) :
    exec (.weightSetExchange core) s = devRow s (fun d => doWeightSetExchange d core) := rfl
theorem exec_stream (core : Fin 128) (w : IWord) (s : State) :
    exec (.stream core w) s = coreRow (wOpcode w == opStream) s (fun d => doStream d core w) := rfl
theorem exec_arrayStep (core : Fin 128) (s : State) :
    exec (.arrayStep core) s = devRow s (fun d => doArrayStep d core) := rfl
theorem exec_mergeDelivery (core : Fin 128) (s : State) :
    exec (.mergeDelivery core) s = devRow s (fun d => doMergeDelivery d core) := rfl
theorem exec_windowDrain (core : Fin 128) (obs : CheckObs) (s : State) :
    exec (.windowDrain core obs) s = devRow s (fun d => doWindowDrain d core obs) := rfl
theorem exec_checkRepeat (unit : BitVec 16) (obs : CheckObs) (s : State) :
    exec (.checkRepeat unit obs) s = devRow s (fun d => doCheckRepeat d unit.toNat obs) := rfl
theorem exec_streamComplete (core : Fin 128) (s : State) :
    exec (.streamComplete core) s = devRow s (fun d => doStreamComplete d core) := rfl
theorem exec_drain (core : Fin 128) (w : IWord) (s : State) :
    exec (.drain core w) s = coreRow (wOpcode w == opDrain) s (fun d => doDrain d core w) := rfl
theorem exec_vopVector (core : Fin 128) (w : IWord) (failGroup : Option Nat) (s : State) :
    exec (.vopVector core w failGroup) s = coreRow (wOpcode w == opVop && !vpScalar w) s (fun d => doVopVector d core w failGroup) := rfl
theorem exec_vopScalar (core : Fin 128) (w : IWord) (s : State) :
    exec (.vopScalar core w) s = coreRow (wOpcode w == opVop && vpScalar w) s (fun d => doVopScalar d core w) := rfl
theorem exec_move (core : Fin 128) (w : IWord) (s : State) :
    exec (.move core w) s = coreRow (wOpcode w == opMove && !mvToSreg w) s (fun d => doMove d core w) := rfl
theorem exec_moveToSreg (core : Fin 128) (w : IWord) (s : State) :
    exec (.moveToSreg core w) s = coreRow (wOpcode w == opMove && mvToSreg w) s (fun d => doMoveToSreg d core w) := rfl
theorem exec_mcast (core : Fin 128) (w : IWord) (s : State) :
    exec (.mcast core w) s = coreRow (wOpcode w == opMcast) s (fun d => doMcast d core w) := rfl
theorem exec_mcastMemberDelivery (core : Fin 128) (member : Fin 128) (s : State) :
    exec (.mcastMemberDelivery core member) s = devRow s (fun d => doMcastMemberDelivery d core member) := rfl
theorem exec_dmake (core : Fin 128) (w : IWord) (s : State) :
    exec (.dmake core w) s = coreRow (wOpcode w == opDmake) s (fun d => doDmake d core w) := rfl
theorem exec_gather (core : Fin 128) (w : IWord) (s : State) :
    exec (.gather core w) s = coreRow (wOpcode w == opGather) s (fun d => doGather d core w) := rfl
theorem exec_scatter (core : Fin 128) (w : IWord) (s : State) :
    exec (.scatter core w) s = coreRow (wOpcode w == opScatter) s (fun d => doScatter d core w) := rfl
theorem exec_merge (core : Fin 128) (w : IWord) (s : State) :
    exec (.merge core w) s = coreRow (wOpcode w == opMerge) s (fun d => doMerge d core w) := rfl
theorem exec_take (core : Fin 128) (w : IWord) (s : State) :
    exec (.take core w) s = coreRow (wOpcode w == opTake) s (fun d => doTake d core w) := rfl
theorem exec_takeResult (core : Fin 128) (s : State) :
    exec (.takeResult core) s = devRow s (fun d => doTakeResult d core) := rfl
theorem exec_signal (core : Fin 128) (w : IWord) (s : State) :
    exec (.signal core w) s = coreRow (wOpcode w == opSignal) s (fun d => doSignal d core w) := rfl
theorem exec_signalArrival (nth : Nat) (s : State) :
    exec (.signalArrival nth) s = devRow s (fun d => doSignalArrival d nth) := rfl
theorem exec_wait (core : Fin 128) (w : IWord) (s : State) :
    exec (.wait core w) s = coreRow (wOpcode w == opWait) s (fun d => doWait d core w) := rfl
theorem exec_fence (core : Fin 128) (w : IWord) (s : State) :
    exec (.fence core w) s = coreRow (wOpcode w == opFence) s (fun d => doFence d core w) := rfl
theorem exec_checkArray (core : Fin 128) (w : IWord) (s : State) :
    exec (.checkArray core w) s = coreRow (wOpcode w == opCheck && ckUnit w == 0) s (fun d => doCheckArray d core w) := rfl
theorem exec_checkRegion (core : Fin 128) (w : IWord) (s : State) :
    exec (.checkRegion core w) s = coreRow (wOpcode w == opCheck && ckUnit w == 1) s (fun d => doCheckRegion d core w) := rfl
theorem exec_checkImem (core : Fin 128) (w : IWord) (s : State) :
    exec (.checkImem core w) s = coreRow (wOpcode w == opCheck && ckUnit w == 2) s (fun d => doCheckImem d core w) := rfl
theorem exec_ctxsaveYield (core : Fin 128) (w : IWord) (s : State) :
    exec (.ctxsaveYield core w) s = coreRow (wOpcode w == opCtxsave && !cxAreaEn w) s (fun d => doCtxsaveYield d core w) := rfl
theorem exec_ctxsaveArea (core : Fin 128) (w : IWord) (s : State) :
    exec (.ctxsaveArea core w) s = coreRow (wOpcode w == opCtxsave && cxAreaEn w) s (fun d => doCtxsaveArea d core w) := rfl
theorem exec_ctxrestore (core : Fin 128) (w : IWord) (s : State) :
    exec (.ctxrestore core w) s = coreRow (wOpcode w == opCtxrestore) s (fun d => doCtxrestore d core w) := rfl
theorem exec_halt (core : Fin 128) (w : IWord) (s : State) :
    exec (.halt core w) s = coreRow (wOpcode w == opHalt) s (fun d => doHalt d core w) := rfl
theorem exec_counterBankReload (die : Fin 4) (parity : Bool) (s : State) :
    exec (.counterBankReload die parity) s = devRow s (fun d => doCounterBankReload d die parity) := rfl
theorem exec_gatherRows (engine : Fin 32) (mismatch : Bool) (s : State) :
    exec (.gatherRows engine mismatch) s = devRow s (fun d => doGatherRows d engine mismatch) := rfl
theorem exec_gatherSeq (engine : Fin 32) (mismatch : Bool) (s : State) :
    exec (.gatherSeq engine mismatch) s = devRow s (fun d => doGatherSeq d engine mismatch) := rfl
theorem exec_gatherCols (engine : Fin 32) (mismatch : Bool) (s : State) :
    exec (.gatherCols engine mismatch) s = devRow s (fun d => doGatherCols d engine mismatch) := rfl
theorem exec_route (engine : Fin 32) (mismatch : Bool) (s : State) :
    exec (.route engine mismatch) s = devRow s (fun d => doRoute d engine mismatch) := rfl
theorem exec_seqload (engine : Fin 32) (mismatch : Bool) (s : State) :
    exec (.seqload engine mismatch) s = devRow s (fun d => doSeqload d engine mismatch) := rfl
theorem exec_scatterRows (engine : Fin 32) (mismatch : Bool) (s : State) :
    exec (.scatterRows engine mismatch) s = devRow s (fun d => doScatterRows d engine mismatch) := rfl
theorem exec_scatterSlot (engine : Fin 32) (mismatch : Bool) (s : State) :
    exec (.scatterSlot engine mismatch) s = devRow s (fun d => doScatterSlot d engine mismatch) := rfl
theorem exec_scatterCols (engine : Fin 32) (mismatch : Bool) (s : State) :
    exec (.scatterCols engine mismatch) s = devRow s (fun d => doScatterCols d engine mismatch) := rfl
theorem exec_mergeBind (engine : Fin 32) (mismatch : Bool) (s : State) :
    exec (.mergeBind engine mismatch) s = devRow s (fun d => doMergeBind d engine mismatch) := rfl
theorem exec_mergeUnbind (engine : Fin 32) (mismatch : Bool) (s : State) :
    exec (.mergeUnbind engine mismatch) s = devRow s (fun d => doMergeUnbind d engine mismatch) := rfl
theorem exec_slotsum (engine : Fin 32) (mismatch : Bool) (s : State) :
    exec (.slotsum engine mismatch) s = devRow s (fun d => doSlotsum d engine mismatch) := rfl
theorem exec_audit (engine : Fin 32) (mismatch : Bool) (s : State) :
    exec (.audit engine mismatch) s = devRow s (fun d => doAudit d engine mismatch) := rfl
theorem exec_auditClose (engine : Fin 32) (mismatch : Bool) (s : State) :
    exec (.auditClose engine mismatch) s = devRow s (fun d => doAuditClose d engine mismatch) := rfl
theorem exec_msuListStart (msu : Fin 16) (sem : Fin 16) (s : State) :
    exec (.msuListStart msu sem) s = devRow s (fun d => doMsuListStart d msu sem) := rfl
theorem exec_update (msu : Fin 16) (mismatch : Bool) (s : State) :
    exec (.update msu mismatch) s = devRow s (fun d => doUpdate d msu mismatch) := rfl
theorem exec_updateVec (msu : Fin 16) (mismatch : Bool) (s : State) :
    exec (.updateVec msu mismatch) s = devRow s (fun d => doUpdateVec d msu mismatch) := rfl
theorem exec_smul (msu : Fin 16) (mismatch : Bool) (s : State) :
    exec (.smul msu mismatch) s = devRow s (fun d => doSmul d msu mismatch) := rfl
theorem exec_updatePass2 (msu : Fin 16) (mismatch : Bool) (s : State) :
    exec (.updatePass2 msu mismatch) s = devRow s (fun d => doUpdatePass2 d msu mismatch) := rfl
theorem exec_normDeadline (s : State) :
    exec .normDeadline s = modRow s (fun s => doNormDeadlineAt s) := rfl
theorem exec_orbitStart (s : State) :
    exec .orbitStart s = modRow s (fun s => (doOrbitStart s).releaseWaiting) := rfl
theorem exec_orbitEnd (s : State) :
    exec .orbitEnd s = modRow s (fun s => doOrbitEnd s) := rfl
theorem exec_orbitCompletion (s : State) :
    exec .orbitCompletion s = modRow s (fun s => (doOrbitCompletion s).releaseWaiting) := rfl
theorem exec_linkTick (link : Fin 48) (s : State) :
    exec (.linkTick link) s = modRow s (fun s => doLinkTick s link) := rfl
theorem exec_sendStart (io : Fin 2) (entry : Nat) (s : State) :
    exec (.sendStart io entry) s = modRow s (fun s => doSendStart s io entry) := rfl
theorem exec_dataFrame (link : Fin 48) (hdr : FrameHeader) (obs : FrameObs) (s : State) :
    exec (.dataFrame link hdr obs) s = modRow s (fun s => doDataFrame s link hdr obs) := rfl
theorem exec_trailerFrame (link : Fin 48) (hdr : FrameHeader) (obs : FrameObs) (s : State) :
    exec (.trailerFrame link hdr obs) s = modRow s (fun s => doTrailerFrame s link hdr obs) := rfl
theorem exec_retryFrame (link : Fin 48) (hdr : FrameHeader) (obs : FrameObs) (s : State) :
    exec (.retryFrame link hdr obs) s = modRow s (fun s => doRetryFrame s link hdr obs) := rfl
theorem exec_beDataFrame (link : Fin 48) (hdr : FrameHeader) (obs : FrameObs) (s : State) :
    exec (.beDataFrame link hdr obs) s = modRow s (fun s => doBeDataFrame s link hdr obs) := rfl
theorem exec_beTrailerFrame (link : Fin 48) (hdr : FrameHeader) (obs : FrameObs) (s : State) :
    exec (.beTrailerFrame link hdr obs) s = modRow s (fun s => doBeTrailerFrame s link hdr obs) := rfl
theorem exec_transferMissed (io : Fin 2) (entry : Nat) (s : State) :
    exec (.transferMissed io entry) s = modRow s (fun s => doTransferMissed s io entry) := rfl
theorem exec_regionRelease (io : Fin 2) (entry : Nat) (s : State) :
    exec (.regionRelease io entry) s = modRow s (fun s => doRegionRelease s io entry) := rfl
theorem exec_controlSlot (s : State) :
    exec .controlSlot s = modRow s (fun s => doControlSlot s) := rfl
theorem exec_timeMarker (link : Fin 48) (m : MarkerIn) (s : State) :
    exec (.timeMarker link m) s = modRow s (fun s => doTimeMarker s link m) := rfl
theorem exec_timeHoldover (s : State) :
    exec .timeHoldover s = modRow s (fun s => doTimeHoldover s) := rfl
theorem exec_timeLost (s : State) :
    exec .timeLost s = modRow s (fun s => doTimeLost s) := rfl
theorem exec_linkUp (link : Fin 48) (rttTicks : BitVec 8) (s : State) :
    exec (.linkUp link rttTicks) s = modRow s (fun s => doLinkUp s link rttTicks) := rfl
theorem exec_linkTrainingFail (link : Fin 48) (s : State) :
    exec (.linkTrainingFail link) s = modRow s (fun s => doLinkTrainingFail s link) := rfl
theorem exec_linkDown (link : Fin 48) (s : State) :
    exec (.linkDown link) s = modRow s (fun s => doLinkDown s link) := rfl
theorem exec_keyx (link : Fin 48) (k : KeyxIn) (s : State) :
    exec (.keyx link k) s = modRow s (fun s => doKeyx s link k) := rfl
theorem exec_vote (link : Fin 48) (m : CtlMsg) (s : State) :
    exec (.vote link m) s = modRow s (fun s => doVote s link m) := rfl
theorem exec_void (link : Fin 48) (m : CtlMsg) (s : State) :
    exec (.void link m) s = modRow s (fun s => doVoid s link m) := rfl
theorem exec_retract (link : Fin 48) (m : CtlMsg) (s : State) :
    exec (.retract link m) s = modRow s (fun s => doRetract s link m) := rfl
theorem exec_commit (link : Fin 48) (m : CtlMsg) (s : State) :
    exec (.commit link m) s = modRow s (fun s => doCommit s link m) := rfl
theorem exec_bucketStage (bucket : Nat) (s : State) :
    exec (.bucketStage bucket) s = modRow s (fun s => doBucketStage s bucket) := rfl
theorem exec_encodeCompare (bucket : Nat) (block : Nat) (mismatch : Bool) (again : Bool) (s : State) :
    exec (.encodeCompare bucket block mismatch again) s = modRow s (fun s => doEncodeCompare s bucket block mismatch again) := rfl
theorem exec_contribReceive (io : Fin 2) (entry : Nat) (s : State) :
    exec (.contribReceive io entry) s = modRow s (fun s => doContribReceive s io entry) := rfl
theorem exec_correctReceive (io : Fin 2) (entry : Nat) (s : State) :
    exec (.correctReceive io entry) s = modRow s (fun s => doCorrectReceive s io entry) := rfl
theorem exec_reducedReceive (io : Fin 2) (entry : Nat) (s : State) :
    exec (.reducedReceive io entry) s = modRow s (fun s => doReducedReceive s io entry) := rfl
theorem exec_normRecordReceive (io : Fin 2) (entry : Nat) (s : State) :
    exec (.normRecordReceive io entry) s = modRow s (fun s => doNormRecordReceive s io entry) := rfl
theorem exec_bucketFinalise (bucket : Nat) (mismatch : Option Nat) (s : State) :
    exec (.bucketFinalise bucket mismatch) s = modRow s (fun s => doBucketFinalise s bucket mismatch) := rfl
theorem exec_voteTick (s : State) :
    exec .voteTick s = modRow s (fun s => doVoteTick s) := rfl
theorem exec_voteClose (s : State) :
    exec .voteClose s = modRow s (fun s => doVoteClose s) := rfl
theorem exec_coreWatchdog (core : Fin 128) (s : State) :
    exec (.coreWatchdog core) s = modRow s (fun s => doCoreWatchdog s core) := rfl
theorem exec_comaWatchdog (engine : Fin 32) (waiting : Bool) (s : State) :
    exec (.comaWatchdog engine waiting) s = modRow s (fun s => doComaWatchdog s engine waiting) := rfl
theorem exec_msuWatchdog (msu : Fin 16) (waiting : Bool) (s : State) :
    exec (.msuWatchdog msu waiting) s = modRow s (fun s => doMsuWatchdog s msu waiting) := rfl
theorem exec_cpWatchdog (half : Fin 2) (s : State) :
    exec (.cpWatchdog half) s = modRow s (fun s => (doCpWatchdog s half).releaseWaiting) := rfl
theorem exec_cpHeartbeat (half : Fin 2) (s : State) :
    exec (.cpHeartbeat half) s = modRow s (fun s => doCpHeartbeat s half) := rfl
theorem exec_halfHeartbeat (half : Fin 2) (s : State) :
    exec (.halfHeartbeat half) s = modRow s (fun s => doHalfHeartbeat s half) := rfl
theorem exec_separation (s : State) :
    exec .separation s = modRow s (fun s => (doSeparation s).releaseWaiting) := rfl
theorem exec_domainDrainEnd (forced : Bool) (drainUs : Nat) (s : State) :
    exec (.domainDrainEnd forced drainUs) s = modRow s (fun s => (doDomainDrainEnd s forced drainUs).releaseWaiting) := rfl
theorem exec_domainResetComplete (resetUs : Nat) (s : State) :
    exec (.domainResetComplete resetUs) s = modRow s (fun s => (doDomainResetComplete s resetUs).releaseWaiting) := rfl
theorem exec_escalation (s : State) :
    exec .escalation s = modRow s (fun s => (doEscalation s).releaseWaiting) := rfl
theorem exec_hotWindow (msu : Fin 16) (s : State) :
    exec (.hotWindow msu) s = modRow s (fun s => doHotWindow s msu) := rfl
theorem exec_healthWindowExpiry (unit : BitVec 16) (s : State) :
    exec (.healthWindowExpiry unit) s = devRow s (fun d => doHealthWindowExpiry d unit.toNat) := rfl
theorem exec_healthFlush (s : State) :
    exec .healthFlush s = devRow s (fun d => doHealthFlush d) := rfl
theorem exec_errorRecordDelivery (io : Fin 2) (s : State) :
    exec (.errorRecordDelivery io) s = modRow s (fun s => doErrorRecordDelivery s io) := rfl
theorem exec_openKey (port : Fin 2) (queue : Fin 2) (handle : W32) (e : Entry64) (s : State) :
    exec (.openKey port queue handle e) s = hostRow (rowOpen 1 s e) port queue handle e s := rfl
theorem exec_openSecret (port : Fin 2) (queue : Fin 2) (handle : W32) (e : Entry64) (s : State) :
    exec (.openSecret port queue handle e) s = hostRow (rowOpen 2 s e) port queue handle e s := rfl
theorem exec_claim (port : Fin 2) (queue : Fin 2) (handle : W32) (e : Entry64) (s : State) :
    exec (.claim port queue handle e) s = hostRow (rowOpen 3 s e) port queue handle e s := rfl
theorem exec_close (port : Fin 2) (queue : Fin 2) (handle : W32) (e : Entry64) (s : State) :
    exec (.close port queue handle e) s = hostRow (rowOpen 4 s e) port queue handle e s := rfl
theorem exec_rotate (port : Fin 2) (queue : Fin 2) (handle : W32) (e : Entry64) (s : State) :
    exec (.rotate port queue handle e) s = hostRow (rowOpen 5 s e) port queue handle e s := rfl
theorem exec_release (port : Fin 2) (queue : Fin 2) (handle : W32) (e : Entry64) (s : State) :
    exec (.release port queue handle e) s = hostRow (rowOpen 6 s e) port queue handle e s := rfl
theorem exec_loadPlan (port : Fin 2) (queue : Fin 2) (handle : W32) (e : Entry64) (s : State) :
    exec (.loadPlan port queue handle e) s = hostRow (rowEntry opLoad e) port queue handle e s := rfl
theorem exec_startOrbits (port : Fin 2) (queue : Fin 2) (handle : W32) (e : Entry64) (s : State) :
    exec (.startOrbits port queue handle e) s = hostRow (rowEntry opStart e) port queue handle e s := rfl
theorem exec_writeStepSize (port : Fin 2) (queue : Fin 2) (handle : W32) (e : Entry64) (s : State) :
    exec (.writeStepSize port queue handle e) s = hostRow (rowEntry opStep e) port queue handle e s := rfl
theorem exec_memTransferWrite (port : Fin 2) (queue : Fin 2) (handle : W32) (e : Entry64) (s : State) :
    exec (.memTransferWrite port queue handle e) s = hostRow (rowEntry opMem e && !eRead e) port queue handle e s := rfl
theorem exec_memTransferRead (port : Fin 2) (queue : Fin 2) (handle : W32) (e : Entry64) (s : State) :
    exec (.memTransferRead port queue handle e) s = hostRow (rowEntry opMem e && eRead e) port queue handle e s := rfl
theorem exec_queryIdentity (port : Fin 2) (queue : Fin 2) (handle : W32) (e : Entry64) (s : State) :
    exec (.queryIdentity port queue handle e) s = hostRow (rowItem 0x00 e) port queue handle e s := rfl
theorem exec_querySpdm (port : Fin 2) (queue : Fin 2) (handle : W32) (e : Entry64) (s : State) :
    exec (.querySpdm port queue handle e) s = hostRow (rowItem 0x01 e) port queue handle e s := rfl
theorem exec_queryState (port : Fin 2) (queue : Fin 2) (handle : W32) (e : Entry64) (s : State) :
    exec (.queryState port queue handle e) s = hostRow (rowItem 0x10 e) port queue handle e s := rfl
theorem exec_queryRegisters (port : Fin 2) (queue : Fin 2) (handle : W32) (e : Entry64) (s : State) :
    exec (.queryRegisters port queue handle e) s = hostRow (rowItem 0x11 e) port queue handle e s := rfl
theorem exec_queryHealth (port : Fin 2) (queue : Fin 2) (handle : W32) (e : Entry64) (s : State) :
    exec (.queryHealth port queue handle e) s = hostRow (rowItem 0x12 e) port queue handle e s := rfl
theorem exec_queryErrors (port : Fin 2) (queue : Fin 2) (handle : W32) (e : Entry64) (s : State) :
    exec (.queryErrors port queue handle e) s = hostRow (rowItem 0x13 e) port queue handle e s := rfl
theorem exec_resetDomain (port : Fin 2) (queue : Fin 2) (handle : W32) (e : Entry64) (s : State) :
    exec (.resetDomain port queue handle e) s = hostRow (rowEntry opReset e) port queue handle e s := rfl
theorem exec_enterUmbra (port : Fin 2) (queue : Fin 2) (handle : W32) (e : Entry64) (s : State) :
    exec (.enterUmbra port queue handle e) s = hostRow (rowEntry opEnter e) port queue handle e s := rfl
theorem exec_leaveUmbra (port : Fin 2) (queue : Fin 2) (handle : W32) (e : Entry64) (s : State) :
    exec (.leaveUmbra port queue handle e) s = hostRow (rowEntry opLeave e) port queue handle e s := rfl
theorem exec_sqDoorbell (port : Fin 2) (queue : Fin 2) (tail : BitVec 32) (f : Bool) (s : State) :
    exec (.sqDoorbell port queue tail f) s = modRow s (fun s => doSqDoorbell s port queue tail f) := rfl
theorem exec_cqHeadWrite (port : Fin 2) (queue : Fin 2) (head : BitVec 32) (s : State) :
    exec (.cqHeadWrite port queue head) s = modRow s (fun s => doCqHeadWrite s port queue head) := rfl
theorem exec_queueEnable (port : Fin 2) (queue : Fin 2) (value : W64) (ack : W64) (cq : W64) (s : State) :
    exec (.queueEnable port queue value ack cq) s = modRow s (fun s => doQueueEnable s port queue value ack cq) := rfl
theorem exec_completionRecord (port : Fin 2) (s : State) :
    exec (.completionRecord port) s = modRow s (fun s => doCompletionRecord s port) := rfl
theorem exec_efmusPortUp (port : Fin 2) (s : State) :
    exec (.efmusPortUp port) s = modRow s (fun s => doEfmusPortUp s port) := rfl
theorem exec_efmusPortDown (port : Fin 2) (s : State) :
    exec (.efmusPortDown port) s = modRow s (fun s => doEfmusPortDown s port) := rfl
theorem exec_portLinkLost (port : Fin 2) (s : State) :
    exec (.portLinkLost port) s = modRow s (fun s => doPortLinkLost s port) := rfl
theorem exec_resetHoldTimeout (port : Fin 2) (s : State) :
    exec (.resetHoldTimeout port) s = modRow s (fun s => doResetHoldTimeout s port) := rfl
theorem exec_setCap (capW : Nat) (s : State) :
    exec (.setCap capW) s = modRow s (fun s => doSetCap s capW) := rfl
theorem exec_emergencyCap (capW : Nat) (s : State) :
    exec (.emergencyCap capW) s = modRow s (fun s => doEmergencyCap s capW) := rfl
theorem exec_setHealth (histLimit : Nat) (histWindow : Nat) (memLimit : Nat) (s : State) :
    exec (.setHealth histLimit histWindow memLimit) s = modRow s (fun s => doSetHealth s histLimit histWindow memLimit) := rfl
theorem exec_setWatchdog (coreMs : Nat) (ceMs : Nat) (msuMs : Nat) (cpMs : Nat) (s : State) :
    exec (.setWatchdog coreMs ceMs msuMs cpMs) s = modRow s (fun s => doSetWatchdog s coreMs ceMs msuMs cpMs) := rfl
theorem exec_unitReturn (unit : BitVec 16) (level : BitVec 2) (s : State) :
    exec (.unitReturn unit level) s = modRow s (fun s => doUnitReturn s unit.toNat level.toNat) := rfl
theorem exec_debugToken (token : BitVec 2560) (s : State) :
    exec (.debugToken token) s = modRow s (fun s => (doDebugToken s token).releaseWaiting) := rfl
theorem exec_debugExpiry (s : State) :
    exec .debugExpiry s = modRow s (fun s => doDebugExpiry s) := rfl
theorem exec_wake (s : State) :
    exec .wake s = modRow s (fun s => (doWake s).releaseWaiting) := rfl
theorem exec_moduleReset (s : State) :
    exec .moduleReset s = modRow s (fun s => (doModuleReset s).releaseWaiting) := rfl
theorem exec_readCrash (sequence : W32) (s : State) :
    exec (.readCrash sequence) s = modRow s (fun s => doReadCrash s sequence) := rfl
theorem exec_readErrors (sequence : W32) (s : State) :
    exec (.readErrors sequence) s = modRow s (fun s => doReadErrors s sequence) := rfl
theorem exec_regWrite (addr : W32) (value : W64) (mask : W64) (s : State) :
    exec (.regWrite addr value mask) s = modRow s (fun s => doRegWrite s addr value mask) := rfl
theorem exec_satCountClear (core : Fin 128) (s : State) :
    exec (.satCountClear core) s = modRow s (fun s => doSatCountClear s core) := rfl
theorem exec_hotClear (msu : Fin 16) (s : State) :
    exec (.hotClear msu) s = modRow s (fun s => doHotClear s msu) := rfl
theorem exec_segFaultClear (unit : Fin 6) (s : State) :
    exec (.segFaultClear unit) s = modRow s (fun s => doSegFaultClear s unit) := rfl
theorem exec_spdmRequest (request : List Byte) (s : State) :
    exec (.spdmRequest request) s = modRow s (fun s => doSpdmRequest s request) := rfl
theorem exec_firmwareUpdate (io : Fin 2) (isCp : Bool) (image : List Byte) (s : State) :
    exec (.firmwareUpdate io isCp image) s = modRow s (fun s => doFirmwareUpdate s io isCp image) := rfl
theorem exec_inputOn (s : State) :
    exec .inputOn s = modRow s (fun s => doInputOn s) := rfl
theorem exec_railRelease (s : State) :
    exec .railRelease s = modRow s (fun s => doRailRelease s) := rfl
theorem exec_primaryClaim (selA : Bool) (selB : Bool) (s : State) :
    exec (.primaryClaim selA selB) s = modRow s (fun s => doPrimaryClaim s selA selB) := rfl
theorem exec_secureBoot (s : State) :
    exec .secureBoot s = modRow s (fun s => doSecureBoot s) := rfl
theorem exec_powerUpReady (s : State) :
    exec .powerUpReady s = modRow s (fun s => doPowerUpReady s) := rfl
theorem exec_pwrEnRise (s : State) :
    exec .pwrEnRise s = modRow s (fun s => doPwrEnRise s) := rfl
theorem exec_powerDown (s : State) :
    exec .powerDown s = modRow s (fun s => doPowerDown s) := rfl
theorem exec_brownOut (s : State) :
    exec .brownOut s = modRow s (fun s => doBrownOut s) := rfl
theorem exec_overvoltage (s : State) :
    exec .overvoltage s = modRow s (fun s => doOvervoltage s) := rfl
theorem exec_resetInN (s : State) :
    exec .resetInN s = modRow s (fun s => (doResetInN s).releaseWaiting) := rfl
theorem exec_railCycleDone (s : State) :
    exec .railCycleDone s = modRow s (fun s => doRailCycleDone s) := rfl
theorem exec_powerControlTick (half : Fin 2) (drawW : Nat) (temps : Temps) (meter : MeterIn) (s : State) :
    exec (.powerControlTick half drawW temps meter) s = modRow s (fun s => doPowerControlTick s half drawW temps meter) := rfl
theorem exec_budgetDivide (drawN : Nat) (drawS : Nat) (s : State) :
    exec (.budgetDivide drawN drawS) s = modRow s (fun s => doBudgetDivide s drawN drawS) := rfl
theorem exec_thermalTrip (s : State) :
    exec .thermalTrip s = modRow s (fun s => doThermalTrip s) := rfl
theorem exec_coolingIdChange (code : BitVec 3) (s : State) :
    exec (.coolingIdChange code) s = modRow s (fun s => doCoolingIdChange s code) := rfl
theorem exec_moveCompletion (core : Fin 128) (s : State) :
    exec (.moveCompletion core) s = devRow s (fun d => doMoveCompletion d core) := rfl
theorem exec_vopCompletion (core : Fin 128) (s : State) :
    exec (.vopCompletion core) s = devRow s (fun d => doVopCompletion d core) := rfl
theorem exec_idleFrame (link : Fin 48) (hdr : FrameHeader) (s : State) :
    exec (.idleFrame link hdr) s = modRow s (fun s => doIdleFrame s link hdr) := rfl
theorem exec_resetInNRise (s : State) :
    exec .resetInNRise s = modRow s (fun s => doResetInNRise s) := rfl
theorem exec_eventAcknowledge (s : State) :
    exec .eventAcknowledge s = modRow s (fun s => doEventAcknowledge s) := rfl

end Sys2Proof.Machine
end

