-- ==== Sys2Proof/Laws/Frame.lean ====
section
/-! SUPPORT. What the module's commands leave alone: the queue, the power state and the security state (`State.env`). -/
namespace Sys2Proof.Machine

/-- The queue, the power state and the security state. -/
def State.env (s : State) : List Instr × Pwr × Sec := (s.pending, s.pwr, s.sec)

@[simp] theorem State.env_pack (s : State) : (s.pending, s.pwr, s.sec) = s.env := rfl
@[simp] theorem State.env_mk (d : Dev) (f : Fab) (h : Hst) (c : Sec) (w : Pwr) (m : Moon) (r : List Recovery) (p : List Instr) :
    State.env ⟨d, f, h, c, w, m, r, p⟩ = (p, w, c) := rfl

theorem State.env_ite (c : Prop) [Decidable c] (a b : State) : (if c then a else b).env = if c then a.env else b.env := by
  split <;> rfl

/-- A fold of operations that keep them keeps them. -/
@[simp] theorem foldl_env {α : Type} (f : State → α → State) (hf : ∀ s a, (f s a).env = s.env) (l : List α) (s : State) :
    (l.foldl f s).env = s.env := by
  induction l generalizing s with
  | nil => rfl
  | cons a l ih => simp [ih, hf]

@[simp] theorem State.advanceTo_env (s : State) (t : Nat) : (State.advanceTo s t).env = s.env := by
  unfold State.advanceTo; (repeat' split) <;> simp
@[simp] theorem State.updLink_env (s : State) (l : Nat) (f : Link → Link) : (State.updLink s l f).env = s.env := by
  unfold State.updLink; (repeat' split) <;> simp
@[simp] theorem State.updRegs_env (s : State) (io : Nat) (f : OrbRegs → OrbRegs) : (State.updRegs s io f).env = s.env := by
  unfold State.updRegs; (repeat' split) <;> simp
@[simp] theorem State.mapDev_env (s : State) (f : Dev → Dev) : (State.mapDev s f).env = s.env := by
  unfold State.mapDev; (repeat' split) <;> simp
@[simp] theorem State.event_env (s : State) : (State.event s).env = s.env := by
  unfold State.event; (repeat' split) <;> simp
@[simp] theorem State.putXfer_env (s : State) (x : Xfer) : (State.putXfer s x).env = s.env := by
  unfold State.putXfer; (repeat' split) <;> simp
@[simp] theorem State.sendEntrySig_env (s : State) (x : Xfer) : (State.sendEntrySig s x).env = s.env := by
  unfold State.sendEntrySig; (repeat' split) <;> simp
@[simp] theorem startSend_env (prepare : State → State) (s : State) (io i : Nat) (hp : ∀ s, (prepare s).env = s.env) :
    (startSend prepare s io i).env = s.env := by
  unfold startSend; simp [hp] <;> (repeat' split) <;> simp [hp]
@[simp] theorem State.putFrame_env (s : State) (link type frame : Nat) (data : BitVec 4096) : (State.putFrame s link type frame data).env = s.env := by
  unfold State.putFrame; (repeat' split) <;> simp
@[simp] theorem State.endSend_env (s : State) (x : Xfer) (tick : Nat) : (State.endSend s x tick).env = s.env := by
  unfold State.endSend; simp <;> (repeat' split) <;> simp
@[simp] theorem State.sendFrame_env (s : State) (link tick : Nat) (r : OrbitRun) (x : Xfer) : (State.sendFrame s link tick r x).env = s.env := by
  unfold State.sendFrame; simp <;> (repeat' split) <;> simp
@[simp] theorem doLinkTick_env (s : State) (link : Nat) : (doLinkTick s link).env = s.env := by
  unfold doLinkTick; simp <;> (repeat' split) <;> simp
@[simp] theorem State.noteHeader_env (s : State) (link : Nat) (h : FrameHeader) : (State.noteHeader s link h).env = s.env := by
  unfold State.noteHeader; simp <;> (repeat' split) <;> simp
@[simp] theorem State.firstFrame_env (s : State) (x : Xfer) : (State.firstFrame s x).1.env = s.env := by
  unfold State.firstFrame; (repeat' split) <;> simp
@[simp] theorem State.deliver_env (s : State) (x : Xfer) : (State.deliver s x).env = s.env := by
  unfold State.deliver; simp <;> (repeat' split) <;> simp
@[simp] theorem State.checkTag_env (s : State) (link : Nat) (r : OrbitRun) (x : Xfer) : (State.checkTag s link r x).env = s.env := by
  unfold State.checkTag; simp <;> (repeat' split) <;> simp
@[simp] theorem State.storeFrame_env (s : State) (link : Nat) (r : OrbitRun) (x : Xfer) (idx : Nat) (payload : BitVec 4096) : (State.storeFrame s link r x idx payload).env = s.env := by
  unfold State.storeFrame; simp <;> (repeat' split) <;> simp
@[simp] theorem State.badFrame_env (s : State) (link : Nat) (x : Xfer) (idx : Nat) (retry : Bool) : (State.badFrame s link x idx retry).env = s.env := by
  unfold State.badFrame; (repeat' split) <;> simp
@[simp] theorem recvFrame_env (s : State) (link : Nat) (h : FrameHeader) (obs : FrameObs) (sched retry trailer : Bool) : (recvFrame s link h obs sched retry trailer).env = s.env := by
  unfold recvFrame; simp <;> (repeat' split) <;> simp
@[simp] theorem doDataFrame_env (s : State) (link : Nat) (h : FrameHeader) (obs : FrameObs) : (doDataFrame s link h obs).env = s.env := by
  unfold doDataFrame; (repeat' split) <;> simp
@[simp] theorem doTrailerFrame_env (s : State) (link : Nat) (h : FrameHeader) (obs : FrameObs) : (doTrailerFrame s link h obs).env = s.env := by
  unfold doTrailerFrame; (repeat' split) <;> simp
@[simp] theorem doRetryFrame_env (s : State) (link : Nat) (h : FrameHeader) (obs : FrameObs) : (doRetryFrame s link h obs).env = s.env := by
  unfold doRetryFrame; (repeat' split) <;> simp
@[simp] theorem doBeDataFrame_env (s : State) (link : Nat) (h : FrameHeader) (obs : FrameObs) : (doBeDataFrame s link h obs).env = s.env := by
  unfold doBeDataFrame; (repeat' split) <;> simp
@[simp] theorem doBeTrailerFrame_env (s : State) (link : Nat) (h : FrameHeader) (obs : FrameObs) : (doBeTrailerFrame s link h obs).env = s.env := by
  unfold doBeTrailerFrame; (repeat' split) <;> simp
@[simp] theorem doIdleFrame_env (s : State) (link : Nat) (h : FrameHeader) : (doIdleFrame s link h).env = s.env := by
  unfold doIdleFrame; (repeat' split) <;> simp
@[simp] theorem State.miss_env (s : State) (io i : Nat) (r : OrbitRun) (x : Xfer) : (State.miss s io i r x).env = s.env := by
  unfold State.miss; simp <;> (repeat' split) <;> simp
@[simp] theorem doTransferMissed_env (s : State) (io i : Nat) : (doTransferMissed s io i).env = s.env := by
  unfold doTransferMissed; simp <;> (repeat' split) <;> simp
@[simp] theorem doRegionRelease_env (s : State) (io i : Nat) : (doRegionRelease s io i).env = s.env := by
  unfold doRegionRelease; (repeat' split) <;> simp
@[simp] theorem doLinkUp_env (s : State) (link : Nat) (rtt : BitVec 8) : (doLinkUp s link rtt).env = s.env := by
  unfold doLinkUp; simp <;> (repeat' split) <;> simp
@[simp] theorem doLinkTrainingFail_env (s : State) (link : Nat) : (doLinkTrainingFail s link).env = s.env := by
  unfold doLinkTrainingFail; simp <;> (repeat' split) <;> simp
@[simp] theorem doLinkDown_env (s : State) (link : Nat) : (doLinkDown s link).env = s.env := by
  unfold doLinkDown; simp <;> (repeat' split) <;> simp
@[simp] theorem State.updRed_env (s : State) (f : Reduce → Reduce) : (State.updRed s f).env = s.env := by
  unfold State.updRed; (repeat' split) <;> simp
@[simp] theorem State.updBk_env (s : State) (k : Nat) (f : BucketRun → BucketRun) : (State.updBk s k f).env = s.env := by
  unfold State.updBk; (repeat' split) <;> simp
@[simp] theorem State.srcBlock_env (s : State) (k b : Nat) : (State.srcBlock s k b).1.env = s.env := by
  unfold State.srcBlock; (repeat' split) <;> simp
@[simp] theorem State.encodeBlock_env (s : State) (probe : Bool) (k b : Nat) : (State.encodeBlock s probe k b).1.env = s.env := by
  unfold State.encodeBlock; (repeat' split) <;> simp
@[simp] theorem encodeAll_env (probe : Bool) (k : Nat) : ∀ (n b : Nat) (s : State), (encodeAll probe k n b s).1.env = s.env
  | 0, _, _ => rfl
  | n + 1, b, s => by simp [encodeAll, encodeAll_env probe k n]

@[simp] theorem State.addSaturated_env (s : State) (io n : Nat) : (State.addSaturated s io n).env = s.env := by
  unfold State.addSaturated; (repeat' split) <;> simp
@[simp] theorem State.signalStream_env (s : State) (io stream k n : Nat) : (State.signalStream s io stream k n).env = s.env := by
  unfold State.signalStream; (repeat' split) <;> simp
@[simp] theorem State.stage_env (s : State) (io stream : Nat) (data : List Byte) : (State.stage s io stream data).env = s.env := by
  unfold State.stage; (repeat' split) <;> simp
@[simp] theorem State.addArrival_env (s : State) (k b : Nat) (w : WireBlock) : (State.addArrival s k b w).env = s.env := by
  unfold State.addArrival; (repeat' split) <;> simp
@[simp] theorem State.addContribution_env (s : State) (probe : Bool) (k origin : Nat) (l : List WireBlock) : (State.addContribution s probe k origin l).env = s.env := by
  unfold State.addContribution; simp <;> (repeat' split) <;> simp
@[simp] theorem doBucketStage_env (s : State) (k : Nat) : (doBucketStage s k).env = s.env := by
  simp only [doBucketStage]; (repeat' split) <;> simp <;> (repeat' split) <;> simp
@[simp] theorem State.say_env (s : State) (type orbit body : Nat) : (State.say s type orbit body).env = s.env := by
  unfold State.say; (repeat' split) <;> simp
@[simp] theorem State.countRetract_env (s : State) (io n : Nat) : (State.countRetract s io n).env = s.env := by
  unfold State.countRetract; (repeat' split) <;> simp
@[simp] theorem State.rewriteBlock_env (s : State) (probe : Bool) (k b : Nat) : (State.rewriteBlock s probe k b).env = s.env := by
  unfold State.rewriteBlock; simp <;> (repeat' split) <;> simp
@[simp] theorem State.charge_env (s : State) (k b : Nat) (c : Charge) (r : OrbitRun) : (State.charge s k b c r).env = s.env := by
  unfold State.charge; simp <;> (repeat' split) <;> simp
@[simp] theorem doEncodeCompare_env (s : State) (k b : Nat) (mismatch again : Bool) : (doEncodeCompare s k b mismatch again).env = s.env := by
  unfold doEncodeCompare; simp <;> (repeat' split) <;> simp
@[simp] theorem State.prepareCorrect_env (s : State) (io i : Nat) (r : OrbitRun) : (State.prepareCorrect s io i r).env = s.env := by
  unfold State.prepareCorrect; simp <;> (repeat' split) <;> simp
@[simp] theorem doSendStart_env (s : State) (io i : Nat) : (doSendStart s io i).env = s.env := by
  unfold doSendStart
  apply startSend_env
  intro s
  split
  · split <;> simp
  · rfl
@[simp] theorem State.relay_env (s : State) (io stream : Nat) (data : List Byte) (r : OrbitRun) : (State.relay s io stream data r).env = s.env := by
  unfold State.relay; dsimp only; (repeat' split) <;> simp [State.env_ite]
@[simp] theorem State.tryRedSig_env (s : State) (n : Nat) : (State.tryRedSig s n).env = s.env := by
  unfold State.tryRedSig; (repeat' split) <;> simp
@[simp] theorem State.setAgreed_env (s : State) (k at_ i : Nat) (probe : Bool) (scale : Byte) : (State.setAgreed s k at_ i probe scale).env = s.env := by
  unfold State.setAgreed; (repeat' split) <;> simp
@[simp] theorem State.consume_env (s : State) (k : Nat) (p : List Byte) (r : OrbitRun) : (State.consume s k p r).env = s.env := by
  unfold State.consume; simp <;> (repeat' split) <;> simp
@[simp] theorem State.finish_env (s : State) (x : Xfer) : (State.finish s x).env = s.env := by
  unfold State.finish; (repeat' split) <;> simp
@[simp] theorem collReceive_env (kind : Nat) (go : State → Xfer → List Byte → OrbitRun → State) (s : State) (io i : Nat) (hg : ∀ s x l r, (go s x l r).env = s.env) : (collReceive kind go s io i).env = s.env := by
  unfold collReceive; (repeat' split) <;> simp [hg]
@[simp] theorem doContribReceive_env (s : State) (io i : Nat) : (doContribReceive s io i).env = s.env := by
  unfold doContribReceive; dsimp only; (repeat' split) <;> simp [State.env_ite]
@[simp] theorem doCorrectReceive_env (s : State) (io i : Nat) : (doCorrectReceive s io i).env = s.env := by
  unfold doCorrectReceive; dsimp only; (repeat' split) <;> simp [State.env_ite]
@[simp] theorem doReducedReceive_env (s : State) (io i : Nat) : (doReducedReceive s io i).env = s.env := by
  unfold doReducedReceive; dsimp only; (repeat' split) <;> simp [State.env_ite]
@[simp] theorem doNormRecordReceive_env (s : State) (io i : Nat) : (doNormRecordReceive s io i).env = s.env := by
  unfold doNormRecordReceive; (repeat' split) <;> simp
@[simp] theorem State.dropWaiting_env (s : State) (k : Nat) (r : OrbitRun) : (State.dropWaiting s k r).env = s.env := by
  unfold State.dropWaiting; (repeat' split) <;> simp
@[simp] theorem State.ownRecords_env (s : State) (k : Nat) : (State.ownRecords s k).env = s.env := by
  unfold State.ownRecords; (repeat' split) <;> simp
@[simp] theorem State.finalise_env (s : State) (k : Nat) (bad : Option Nat) (r : OrbitRun) : (State.finalise s k bad r).env = s.env := by
  unfold State.finalise; simp <;> (repeat' split) <;> simp
@[simp] theorem doBucketFinalise_env (s : State) (k : Nat) (mismatch : Option Nat) : (doBucketFinalise s k mismatch).env = s.env := by
  unfold doBucketFinalise; simp <;> (repeat' split) <;> simp
@[simp] theorem State.commit_env (s : State) (k m : Nat) (r : OrbitRun) : (State.commit s k m r).env = s.env := by
  unfold State.commit; simp <;> (repeat' split) <;> simp
@[simp] theorem State.commitSlot_env (s : State) (k : Nat) (r : OrbitRun) : (State.commitSlot s k r).env = s.env := by
  unfold State.commitSlot; simp <;> (repeat' split) <;> simp
@[simp] theorem State.voteTick_env (s : State) (r : OrbitRun) : (State.voteTick s r).env = s.env := by
  unfold State.voteTick; simp <;> (repeat' split) <;> simp
@[simp] theorem doVoteTick_env (s : State) : (doVoteTick s).env = s.env := by
  unfold doVoteTick; (repeat' split) <;> simp
@[simp] theorem State.sendVote_env (s : State) : (State.sendVote s).env = s.env := by
  unfold State.sendVote; (repeat' split) <;> simp
@[simp] theorem doVoteClose_env (s : State) : (doVoteClose s).env = s.env := by
  unfold doVoteClose; simp <;> (repeat' split) <;> simp
@[simp] theorem doNormDeadlineAt_env (s : State) : (doNormDeadlineAt s).env = s.env := by
  unfold doNormDeadlineAt; simp <;> (repeat' split) <;> simp
@[simp] theorem State.hear_env (s : State) (link type : Nat) (m : CtlMsg) : (State.hear s link type m).1.env = s.env := by
  unfold State.hear; simp <;> (repeat' split) <;> simp
@[simp] theorem doVote_env (s : State) (link : Nat) (m : CtlMsg) : (doVote s link m).env = s.env := by
  unfold doVote; simp <;> (repeat' split) <;> simp
@[simp] theorem doVoid_env (s : State) (link : Nat) (m : CtlMsg) : (doVoid s link m).env = s.env := by
  unfold doVoid; simp <;> (repeat' split) <;> simp
@[simp] theorem doRetract_env (s : State) (link : Nat) (m : CtlMsg) : (doRetract s link m).env = s.env := by
  unfold doRetract; (repeat' split) <;> simp
@[simp] theorem doCommit_env (s : State) (link : Nat) (m : CtlMsg) : (doCommit s link m).env = s.env := by
  unfold doCommit; simp <;> (repeat' split) <;> simp
@[simp] theorem State.installKeys_env (s : State) (link j : Nat) : (State.installKeys s link j).env = s.env := by
  unfold State.installKeys; simp <;> (repeat' split) <;> simp
@[simp] theorem doKeyx_env (s : State) (link : Nat) (k : KeyxIn) : (doKeyx s link k).env = s.env := by
  unfold doKeyx; simp <;> (repeat' split) <;> simp
@[simp] theorem State.sendControl_env (s : State) (j link : Nat) : (State.sendControl s j link).env = s.env := by
  unfold State.sendControl; simp <;> (repeat' split) <;> simp
@[simp] theorem State.queueOwn_env (s : State) : (State.queueOwn s).env = s.env := by
  unfold State.queueOwn; (repeat' split) <;> simp
@[simp] theorem doControlSlot_env (s : State) : (doControlSlot s).env = s.env := by
  unfold doControlSlot; simp <;> (repeat' split) <;> simp
@[simp] theorem State.correctTime_env (s : State) (link : Nat) (m : MarkerIn) (off : Int) : (State.correctTime s link m off).env = s.env := by
  unfold State.correctTime; (repeat' split) <;> simp
@[simp] theorem doTimeMarker_env (s : State) (link : Nat) (m : MarkerIn) : (doTimeMarker s link m).env = s.env := by
  unfold doTimeMarker; simp <;> (repeat' split) <;> simp
@[simp] theorem State.timeAlert_env (s : State) : (State.timeAlert s).env = s.env := by
  unfold State.timeAlert; (repeat' split) <;> simp
@[simp] theorem doTimeHoldover_env (s : State) : (doTimeHoldover s).env = s.env := by
  unfold doTimeHoldover; (repeat' split) <;> simp
@[simp] theorem doTimeLost_env (s : State) : (doTimeLost s).env = s.env := by
  unfold doTimeLost; simp <;> (repeat' split) <;> simp
@[simp] theorem State.updPort_env (s : State) (p : Nat) (f : Port → Port) : (State.updPort s p f).env = s.env := by
  unfold State.updPort; (repeat' split) <;> simp
@[simp] theorem State.updQueue_env (s : State) (k : Nat) (f : HQueue → HQueue) : (State.updQueue s k f).env = s.env := by
  unfold State.updQueue; (repeat' split) <;> simp
@[simp] theorem State.record_env (s : State) (port : Nat) (handle : W32) (opcode status flags orbit detail : Nat) : (State.record s port handle opcode status flags orbit detail).env = s.env := by
  unfold State.record; (repeat' split) <;> simp
@[simp] theorem State.finishCmd_env (s : State) (c : WaitCmd) (status detail : Nat) : (State.finishCmd s c status detail).env = s.env := by
  unfold State.finishCmd; (repeat' split) <;> simp
@[simp] theorem State.ringWrite_env (s : State) (k : Nat) (r : CompRec) : (State.ringWrite s k r).env = s.env := by
  unfold State.ringWrite; simp <;> (repeat' split) <;> simp
@[simp] theorem drainRing_env : ∀ (n k : Nat) (s : State), (drainRing n k s).env = s.env
  | 0, _, _ => rfl
  | n + 1, k, s => by
    unfold drainRing
    dsimp only
    split
    · rfl
    · split
      · rfl
      · simp [drainRing_env n]

@[simp] theorem State.adapterTake_env (s : State) (r : CompRec) : (State.adapterTake s r).env = s.env := by
  unfold State.adapterTake; simp <;> (repeat' split) <;> simp
@[simp] theorem State.deliverOne_env (s : State) (p : Nat) : (State.deliverOne s p).env = s.env := by
  unfold State.deliverOne; (repeat' split) <;> simp
@[simp] theorem doCompletionRecord_env (s : State) (p : Nat) : (doCompletionRecord s p).env = s.env := by
  unfold doCompletionRecord; (repeat' split) <;> simp
@[simp] theorem State.adapterDone_env (s : State) (k : Nat) (o : Outstanding) (status detail : Nat) : (State.adapterDone s k o status detail).env = s.env := by
  unfold State.adapterDone; (repeat' split) <;> simp
@[simp] theorem State.fetchOne_env (k : Nat) (s : State) : (State.fetchOne k s).env = s.env := by
  simp only [State.fetchOne, State.env_ite, State.adapterDone_env, State.updQueue_env, ite_self]
  exact State.env_mk ..
@[simp] theorem fetchEntries_env : ∀ (n k : Nat) (s : State), (fetchEntries n k s).env = s.env
  | 0, _, _ => rfl
  | n + 1, k, s => by
    unfold fetchEntries
    split
    · rfl
    · simp [fetchEntries_env n]

@[simp] theorem doSqDoorbell_env (s : State) (port queue : Nat) (tail : W32) (f : Bool) : (doSqDoorbell s port queue tail f).env = s.env := by
  unfold doSqDoorbell; simp <;> (repeat' split) <;> simp
@[simp] theorem doCqHeadWrite_env (s : State) (port queue : Nat) (head : W32) : (doCqHeadWrite s port queue head).env = s.env := by
  unfold doCqHeadWrite; (repeat' split) <;> simp
@[simp] theorem doQueueEnable_env (s : State) (port queue : Nat) (value ack cq : W64) : (doQueueEnable s port queue value ack cq).env = s.env := by
  unfold doQueueEnable; (repeat' split) <;> simp
@[simp] theorem deliverHeld_env : ∀ (n p : Nat) (s : State), (deliverHeld n p s).env = s.env
  | 0, _, _ => rfl
  | n + 1, p, s => by simp [deliverHeld, deliverHeld_env n]

@[simp] theorem State.finishKind5_env (s : State) (p : Nat) : (State.finishKind5 s p).env = s.env := by
  unfold State.finishKind5; (repeat' split) <;> simp
@[simp] theorem doEfmusPortUp_env (s : State) (p : Nat) : (doEfmusPortUp s p).env = s.env := by
  unfold doEfmusPortUp; (repeat' split) <;> simp
@[simp] theorem doEfmusPortDown_env (s : State) (p : Nat) : (doEfmusPortDown s p).env = s.env := by
  unfold doEfmusPortDown; (repeat' split) <;> simp
@[simp] theorem doPortLinkLost_env (s : State) (p : Nat) : (doPortLinkLost s p).env = s.env := by
  unfold doPortLinkLost; (repeat' split) <;> simp
@[simp] theorem doResetHoldTimeout_env (s : State) (p : Nat) : (doResetHoldTimeout s p).env = s.env := by
  unfold doResetHoldTimeout; (repeat' split) <;> simp
@[simp] theorem State.carried_env (s : State) (c : WaitCmd) : (State.carried s c).env = s.env := by
  unfold State.carried; simp <;> (repeat' split) <;> simp
@[simp] theorem doHotWindow_env (s : State) (u : Nat) : (doHotWindow s u).env = s.env := by
  unfold doHotWindow; simp <;> (repeat' split) <;> simp
@[simp] theorem doErrorRecordDelivery_env (s : State) (io : Nat) : (doErrorRecordDelivery s io).env = s.env := by
  unfold doErrorRecordDelivery; (repeat' split) <;> simp
@[simp] theorem State.fenceLink_env (s : State) (l : Nat) : (State.fenceLink s l).env = s.env := by
  unfold State.fenceLink; (repeat' split) <;> simp
@[simp] theorem State.fenceHalf_env (s : State) (h : Nat) (code : Byte) : (State.fenceHalf s h code).env = s.env := by
  unfold State.fenceHalf; (repeat' split) <;> simp
@[simp] theorem State.fenceUnits_env (s : State) (kind index : Nat) (code : Byte) : (State.fenceUnits s kind index code).env = s.env := by
  unfold State.fenceUnits; (repeat' split) <;> simp
@[simp] theorem State.sample_env (s : State) (r : Recovery) : (State.sample s r).1.env = s.env := by
  unfold State.sample; simp <;> (repeat' split) <;> simp
@[simp] theorem State.crash_env (s : State) (r : Recovery) (status resetUs : Nat) : (State.crash s r status resetUs).env = s.env := by
  unfold State.crash; (repeat' split) <;> simp
@[simp] theorem State.finishReset_env (s : State) (status kind index seq : Nat) (w : Nat × W32) : (State.finishReset s status kind index seq w).env = s.env := by
  unfold State.finishReset; (repeat' split) <;> simp
@[simp] theorem State.finishWaiters_env (s : State) (r : Recovery) (kind index : Nat) : (State.finishWaiters s r kind index).env = s.env := by
  unfold State.finishWaiters; (repeat' split) <;> simp
@[simp] theorem State.endStart_env (s : State) (status : Nat) : (State.endStart s status).env = s.env := by
  unfold State.endStart; (repeat' split) <;> simp
@[simp] theorem State.closeStart_env (s : State) (status : Nat) : (State.closeStart s status).env = s.env := by
  unfold State.closeStart; (repeat' split) <;> simp
@[simp] theorem State.endPlan_env (s : State) : (State.endPlan s).env = s.env := by
  unfold State.endPlan; (repeat' split) <;> simp
@[simp] theorem State.chargeFire_env (s : State) (unit : Nat) (charged : Bool) : (State.chargeFire s unit charged).env = s.env := by
  unfold State.chargeFire; (repeat' split) <;> simp
@[simp] theorem doCpHeartbeat_env (s : State) (h : Nat) : (doCpHeartbeat s h).env = s.env := by
  unfold doCpHeartbeat; (repeat' split) <;> simp
@[simp] theorem doHalfHeartbeat_env (s : State) (h : Nat) : (doHalfHeartbeat s h).env = s.env := by
  unfold doHalfHeartbeat; (repeat' split) <;> simp
@[simp] theorem State.loadTime_env (s : State) : (State.loadTime s).env = s.env := by
  unfold State.loadTime; (repeat' split) <;> simp
@[simp] theorem State.install_env (s : State) (m : Img) (module : Nat) : (State.install s m module).env = s.env := by
  unfold State.install; (repeat' split) <;> simp
@[simp] theorem State.slackEvent_env (s : State) (io : Nat) : (State.slackEvent s io).env = s.env := by
  unfold State.slackEvent; (repeat' split) <;> simp
@[simp] theorem doOrbitEnd_env (s : State) : (doOrbitEnd s).env = s.env := by
  unfold doOrbitEnd; (repeat' split) <;> simp
@[simp] theorem State.rejoin_env (s : State) : (State.rejoin s).env = s.env := by
  unfold State.rejoin; (repeat' split) <;> simp
@[simp] theorem State.applyDeferred_env (s : State) : (State.applyDeferred s).env = s.env := by
  unfold State.applyDeferred; (repeat' split) <;> simp
@[simp] theorem State.stopFenced_env (s : State) (n : Nat) : (State.stopFenced s n).env = s.env := by
  unfold State.stopFenced; simp <;> (repeat' split) <;> simp
@[simp] theorem doOrbitCompletion_env (s : State) : (doOrbitCompletion s).env = s.env := by
  unfold doOrbitCompletion; (repeat' split) <;> simp
@[simp] theorem State.hostWrite_env (s : State) (addr : Nat) (l : List Byte) : (State.hostWrite s addr l).env = s.env := by
  unfold State.hostWrite; (repeat' split) <;> simp
@[simp] theorem State.drawn2_env (s : State) : (State.drawn2 s).env = s.env := by
  unfold State.drawn2; (repeat' split) <;> simp
@[simp] theorem doPrimaryClaim_env (s : State) (selA selB : Bool) : (doPrimaryClaim s selA selB).env = s.env := by
  unfold doPrimaryClaim; simp <;> (repeat' split) <;> simp
@[simp] theorem State.finishWaiting_env (s : State) (status : Nat) : (State.finishWaiting s status).env = s.env := by
  unfold State.finishWaiting; (repeat' split) <;> simp
@[simp] theorem State.finishAll_env (s : State) (status : Nat) : (State.finishAll s status).env = s.env := by
  unfold State.finishAll; (repeat' split) <;> simp
@[simp] theorem State.gate_env (s : State) : (State.gate s).env = s.env := by
  unfold State.gate; (repeat' split) <;> simp
@[simp] theorem State.noteVerify_env (s : State) (r : Refused) : (State.noteVerify s r).env = s.env := by
  unfold State.noteVerify; (repeat' split) <;> simp
@[simp] theorem State.runStart_env (s : State) (c : WaitCmd) : (State.runStart s c).env = s.env := by
  unfold State.runStart; (repeat' split) <;> simp
@[simp] theorem State.runStep_env (s : State) (c : WaitCmd) : (State.runStep s c).env = s.env := by
  unfold State.runStep; simp <;> (repeat' split) <;> simp
@[simp] theorem State.runMemWrite_env (s : State) (c : WaitCmd) : (State.runMemWrite s c).env = s.env := by
  unfold State.runMemWrite; (repeat' split) <;> simp
@[simp] theorem State.runMemRead_env (s : State) (c : WaitCmd) : (State.runMemRead s c).env = s.env := by
  unfold State.runMemRead; (repeat' split) <;> simp
@[simp] theorem State.runMem_env (s : State) (c : WaitCmd) : (State.runMem s c).env = s.env := by
  unfold State.runMem; (repeat' split) <;> simp
@[simp] theorem State.answer_env (s : State) (ok : Bool) : (State.answer s ok).env = s.env := by
  unfold State.answer; (repeat' split) <;> simp
@[simp] theorem State.setSettings_env (s : State) (ok : Bool) (n : Settings) : (State.setSettings s ok n).env = s.env := by
  unfold State.setSettings; (repeat' split) <;> simp
@[simp] theorem doSetHealth_env (s : State) (histLimit histWindow memLimit : Nat) : (doSetHealth s histLimit histWindow memLimit).env = s.env := by
  unfold doSetHealth; (repeat' split) <;> simp
@[simp] theorem doSetWatchdog_env (s : State) (coreMs ceMs msuMs cpMs : Nat) : (doSetWatchdog s coreMs ceMs msuMs cpMs).env = s.env := by
  unfold doSetWatchdog; (repeat' split) <;> simp
@[simp] theorem doUnitReturn_env (s : State) (unit level : Nat) : (doUnitReturn s unit level).env = s.env := by
  unfold doUnitReturn; (repeat' split) <;> simp
@[simp] theorem doReadCrash_env (s : State) (seq : W32) : (doReadCrash s seq).env = s.env := by
  unfold doReadCrash; (repeat' split) <;> simp
@[simp] theorem doReadErrors_env (s : State) (seq : W32) : (doReadErrors s seq).env = s.env := by
  unfold doReadErrors; (repeat' split) <;> simp
@[simp] theorem doEventAcknowledge_env (s : State) : (doEventAcknowledge s).env = s.env := by
  unfold doEventAcknowledge; (repeat' split) <;> simp
@[simp] theorem doSatCountClear_env (s : State) (n : Nat) : (doSatCountClear s n).env = s.env := by
  unfold doSatCountClear; (repeat' split) <;> simp
@[simp] theorem doHotClear_env (s : State) (u : Nat) : (doHotClear s u).env = s.env := by
  unfold doHotClear; (repeat' split) <;> simp
@[simp] theorem doSegFaultClear_env (s : State) (k : Nat) : (doSegFaultClear s k).env = s.env := by
  unfold doSegFaultClear; (repeat' split) <;> simp

end Sys2Proof.Machine
end

