-- ==== Sys2Proof/Laws/Invariant.lean ====
section
/-! SUPPORT. What the commands that alter the power state or the security state keep: the queue, and the invariant of Safety
(`Held`). -/
namespace Sys2Proof.Machine

/-- The queue is `p`, and power and security are legal. -/
def Held (p : List Instr) (e : List Instr × Pwr × Sec) : Prop := e.1 = p ∧ e.2.1.Legal ∧ e.2.2.Legal

variable {p : List Instr}

theorem held_self {s : State} (h : s.Inv) : Held s.pending s.env := ⟨rfl, h.1, h.2⟩

theorem held_foldl {α : Type} (f : State → α → State) (hf : ∀ s a, Held p s.env → Held p (f s a).env) (l : List α) :
    ∀ (s : State), Held p s.env → Held p (l.foldl f s).env := by
  induction l with
  | nil => intro s h; exact h
  | cons a l ih => intro s h; exact ih _ (hf s a h)

theorem Held.w {s : State} (h : Held p s.env) : s.pwr.Legal := h.2.1
theorem Held.c {s : State} (h : Held p s.env) : s.sec.Legal := h.2.2

/-! ### Legal power and security states -/

theorem Pwr.Legal.off {w : Pwr} (h : w.Legal) (q : Pwr) (hh : q.halves = w.halves) (hr : q.ready = false) (hu : q.umbra = false) :
    q.Legal := by
  refine ⟨by rw [hh]; exact h.1, ?_, ?_⟩ <;> simp [hr, hu]

theorem Pwr.Legal.same {w : Pwr} (h : w.Legal) (q : Pwr) (hh : q.halves = w.halves) (hr : q.ready = w.ready) (hu : q.umbra = w.umbra)
    (hs : q.state = w.state) (hc : q.cycling = w.cycling) : q.Legal := by
  refine ⟨by rw [hh]; exact h.1, ?_, ?_⟩
  · rw [hr, hs, hu]; exact h.2.1
  · rw [hu, hs, hc]; exact h.2.2

theorem HalfPwr.init_legal : HalfPwr.init.Legal := by unfold HalfPwr.Legal; decide

theorem Sec.Legal.same {c : Sec} (h : c.Legal) (q : Sec) (hg : q.ownerGen = c.ownerGen) (ho : q.owner = c.owner)
    (hs : q.session = c.session ∨ q.session = none) (ht : q.lastTag = c.lastTag ∨ q.lastTag = 0) (hf : q.fw = c.fw) : q.Legal := by
  obtain ⟨h1, h2, h3, h4, h5, h6⟩ := h
  refine ⟨by rw [hg]; exact h1, by rw [hg, ho]; exact h2, ?_, ?_, by rw [hf]; exact h5, by rw [hf]; exact h6⟩
  · rcases hs with hs | hs <;> rw [hs]
    · exact h3
    · intro x hx; cases hx
  · rcases ht with ht | ht <;> rw [ht]
    · exact h4
    · decide

theorem Sec.Legal.lockT2 {c : Sec} (h : c.Legal) : c.lockT2.Legal := h.same _ rfl rfl (.inl rfl) (.inl rfl) rfl

theorem Sec.Legal.consume {c : Sec} (h : c.Legal) (n : BitVec 384) : (c.consume n).Legal := by
  unfold Sec.consume
  split
  · exact h.same _ rfl rfl (.inl rfl) (.inl rfl) rfl
  · exact h

/-- A change of the power state that leaves READY, Umbra, the state and the halves. -/
theorem Held.pwr {s t : State} (h : Held p s.env) (hp : t.pending = s.pending) (hl : t.pwr.Legal) (hs : t.sec = s.sec) : Held p t.env :=
  ⟨hp.trans h.1, hl, by show t.sec.Legal; rw [hs]; exact h.2.2⟩

theorem Held.sec {s t : State} (h : Held p s.env) (hp : t.pending = s.pending) (hw : t.pwr = s.pwr) (hl : t.sec.Legal) : Held p t.env :=
  ⟨hp.trans h.1, by show t.pwr.Legal; rw [hw]; exact h.2.1, hl⟩

/-- An operation that leaves all three alone. -/
theorem Held.frame {s t : State} (h : Held p s.env) (e : t.env = s.env) : Held p t.env := by rw [e]; exact h

/-! ### Sessions, the rails and recovery -/

@[simp] theorem endSession_held {s : State} (h : Held p s.env) : Held p s.endSession.env := by
  unfold State.endSession
  split
  · exact h
  · have h' : Held p s.endPlan.env := by simpa using h
    exact h'.sec rfl rfl (h'.2.2.same _ rfl rfl (.inr rfl) (.inl rfl) rfl)

@[simp] theorem railsOff_held {s : State} (h : Held p s.env) : Held p s.railsOff.env := by
  unfold State.railsOff
  refine ⟨h.1, ⟨fun _ => HalfPwr.init_legal, ?_, ?_⟩, h.c.same _ rfl rfl (.inr rfl) (.inr rfl) rfl⟩ <;> intro e <;> cases e

theorem railsOff_ready (s : State) : s.railsOff.pwr.ready = false := rfl
theorem railsOff_umbra (s : State) : s.railsOff.pwr.umbra = false := rfl

/-- After the rails fall, any state of the power controller is legal. -/
theorem railsOff_then {s : State} (h : Held p s.env) (t : State) (hp : t.pending = s.railsOff.pending) (hs : t.sec = s.railsOff.sec)
    (hh : t.pwr.halves = s.railsOff.pwr.halves) (hr : t.pwr.ready = false) (hu : t.pwr.umbra = false) : Held p t.env :=
  (railsOff_held h).pwr hp ((railsOff_held h).w.off _ hh hr hu) hs

@[simp] theorem recover_held {s : State} (kind index cause unit : Nat) (code : Byte) (ws es : List (Nat × W32)) (h : Held p s.env) :
    Held p (s.recover kind index cause unit code ws es).env := by
  unfold State.recover
  split
  · exact h
  · extract_lets inside inner s1 r s2 s3 s4
    have h4 : Held p s4.env := by
      refine h.frame ?_
      simp only [s4, s3, s2, s1, State.env_mk, State.env_pack]
      rw [foldl_env _ (fun s a => by simp)]
      rw [State.fenceUnits_env]
      rw [foldl_env _ (fun s a => by split <;> simp)]
    split
    · refine h4.pwr rfl ⟨h4.w.1, ?_, ?_⟩ rfl
      · intro e; cases e
      · intro _; exact .inr ⟨rfl, rfl⟩
    · exact h4

/-! ### Recovery -/

@[simp] theorem doCoreWatchdog_held {s : State} (n : Nat) (h : Held p s.env) : Held p (doCoreWatchdog s n).env := by
  unfold doCoreWatchdog
  dsimp only
  split
  · exact h
  · exact recover_held _ _ _ _ _ _ _ (h.frame (by simp))

@[simp] theorem doComaWatchdog_held {s : State} (g : Nat) (w : Bool) (h : Held p s.env) : Held p (doComaWatchdog s g w).env := by
  unfold doComaWatchdog
  dsimp only
  split
  · exact h
  · exact recover_held _ _ _ _ _ _ _ (h.frame (by simp))

@[simp] theorem doMsuWatchdog_held {s : State} (u : Nat) (w : Bool) (h : Held p s.env) : Held p (doMsuWatchdog s u w).env := by
  unfold doMsuWatchdog
  dsimp only
  split
  · exact h
  · exact recover_held _ _ _ _ _ _ _ (h.frame (by simp))

@[simp] theorem doCpWatchdog_held {s : State} (n : Nat) (h : Held p s.env) : Held p (doCpWatchdog s n).env := by
  unfold doCpWatchdog
  split
  · exact h
  · exact recover_held _ _ _ _ _ _ _ (h.frame (by simp))

@[simp] theorem startCycle_held {s : State} (h : Held p s.env) : Held p s.startCycle.env :=
  (railsOff_held h).pwr rfl ((railsOff_held h).w.off _ rfl rfl rfl) rfl

@[simp] theorem State.moduleRecord_env (s : State) (r : Recovery) : (s.moduleRecord r).env = s.env := by
  simp only [State.moduleRecord, deliverHeld_env]
  split <;> simp

@[simp] theorem cycleRails_held {s : State} (r : Recovery) (h : Held p s.env) : Held p (s.cycleRails r).env :=
  startCycle_held (endSession_held (h.frame (State.moduleRecord_env s r)))

@[simp] theorem doDomainDrainEnd_held {s : State} (forced : Bool) (us : Nat) (h : Held p s.env) :
    Held p (doDomainDrainEnd s forced us).env := by
  unfold doDomainDrainEnd
  split
  · exact h
  · extract_lets u s1 x s2
    have h2 : Held p s2.env := h.frame (by simp [s2, x, s1])
    split
    · exact cycleRails_held _ h2
    · split
      · refine h2.frame ?_
        rw [State.env_mk, State.env_pack]
        exact (State.crash_env ..).trans (by simp)
      · exact h2.frame (by simp)

@[simp] theorem resetHalf_held {s : State} (n : Nat) (h : Held p s.env) : Held p (s.resetHalf n).env := by
  unfold State.resetHalf
  extract_lets s1 s2 s3 s4 s5
  have h1 : Held p s1.env := by
    simp only [s1]
    split
    · exact endSession_held h
    · exact h
  refine h1.frame ?_
  simp only [s5, s4, s3, s2, State.env_mk, State.env_pack, State.updRegs_env]
  rw [foldl_env _ (fun s a => by simp)]
  simp

@[simp] theorem resetUnits_held {s : State} (k n : Nat) (h : Held p s.env) : Held p (s.resetUnits k n).env := by
  unfold State.resetUnits
  split
  · exact h.frame (by simp)
  · exact h.frame (by simp)
  · exact h.frame (by simp)
  · exact h.frame (by simp)
  · exact resetHalf_held _ h

@[simp] theorem doDomainResetComplete_held {s : State} (us : Nat) (h : Held p s.env) : Held p (doDomainResetComplete s us).env := by
  unfold doDomainResetComplete
  split
  · exact h
  · split
    · exact h
    · rename_i r _ _ _
      refine (resetUnits_held r.kind r.index (h.frame (t := State.crash { s.advanceTo (r.resetTime + usT * us) with recs := _ } r 0x31 us) ?_)).frame (State.finishWaiters_env ..)
      simp

@[simp] theorem doEscalation_held {s : State} (h : Held p s.env) : Held p (doEscalation s).env := by
  unfold doEscalation
  split
  · exact h
  · exact recover_held _ _ _ _ _ _ _ (h.frame (by simp))

/-! ### Orbits -/

@[simp] theorem startSettings_held {s : State} (h : Held p s.env) : Held p s.startSettings.env :=
  h.pwr rfl (h.w.same _ rfl rfl rfl rfl rfl) rfl

@[simp] theorem recoverHung_held {s : State} (h : Held p s.env) : Held p s.recoverHung.env := by
  unfold State.recoverHung
  exact held_foldl _ (fun s n h => recover_held _ _ _ _ _ _ _ h) _ _ h

@[simp] theorem beginOrbit_held {s : State} (c : StartCmd) (f : Bool) (h : Held p s.env) : Held p (s.beginOrbit c f).env := by
  unfold State.beginOrbit
  extract_lets num slot s1 s2 d probe r d1 d2 s3 s4 s5
  have h1 : Held p s1.env := recoverHung_held h
  refine h1.frame ?_
  simp only [State.mapDev_env, s5]
  split
  · simp only [State.mapDev_env, State.updRed_env, s4, s3]
    rw [foldl_env _ (fun s a => by simp)]
    simp [s2]
  · simp only [State.mapDev_env, s4, s3]
    rw [foldl_env _ (fun s a => by simp)]
    simp [s2]

@[simp] theorem atStartSlot_held {s : State} (c : StartCmd) (h : Held p s.env) : Held p (s.atStartSlot c).env := by
  unfold State.atStartSlot
  exact startSettings_held (h.frame (by simp))

@[simp] theorem doOrbitStart_held {s : State} (h : Held p s.env) : Held p (doOrbitStart s).env := by
  unfold doOrbitStart
  split
  · exact h
  · split
    · exact h
    · extract_lets s1
      have h1 : Held p s1.env := h.frame (by simp [s1])
      split
      · exact h1.frame (by simp)
      · split
        · exact h1.frame (by simp)
        · have h3 := fun c => atStartSlot_held c h1
          split
          · split
            · exact (h3 _).frame (by simp; rfl)
            · exact h
          · exact beginOrbit_held _ _ ((h3 _).frame (by simp; rfl))

/-! ### Halves -/

theorem Pwr.Legal.halves {w : Pwr} (h : w.Legal) (b : Bank HalfPwr) (hb : ∀ k, (b.get k).Legal) : Pwr.Legal { w with halves := b } :=
  ⟨hb, h.2⟩

theorem held_updHalf {s : State} (n : Nat) (f : HalfPwr → HalfPwr) (hf : ∀ x, x.Legal → (f x).Legal) (h : Held p s.env) :
    Held p (s.updHalf n f).env :=
  h.pwr rfl (h.w.halves _ (Bank.all_upd h.w.1 hf n)) rfl

@[simp] theorem doSeparation_held {s : State} (h : Held p s.env) : Held p (doSeparation s).env := by
  unfold doSeparation
  split
  · exact h
  · extract_lets s1 _ s2 s3 sep half s4
    have h2 : Held p s2.env := by
      refine h.frame ?_
      simp only [s2, s1, State.env_mk, State.env_pack]
      rw [foldl_env _ (fun s a => by rw [foldl_env _ (fun s a => by simp)])]
    have h3 : Held p s3.env := recover_held _ _ _ _ _ _ _ (recover_held _ _ _ _ _ _ _ h2)
    have h4 : Held p s4.env := h3.frame (by simp [s4])
    have hf : ∀ x : HalfPwr, x.Legal → (half x).Legal := fun x hx => hx
    clear_value s4 half
    exact h4.pwr rfl (h4.w.halves _ (Bank.all_upd (Bank.all_upd h4.w.1 hf 0) hf 1)) rfl

/-! ### Sessions -/

theorem burn_held {s : State} (o : Option Owner) (hg : s.sec.ownerGen < 64) (h : Held p s.env) : Held p (s.burn o).env := by
  refine h.sec rfl rfl (Sec.Legal.lockT2 ?_)
  obtain ⟨-, -, h3, h4, h5, h6⟩ := h.c
  refine ⟨hg, ?_, h3, h4, h5, h6⟩
  intro x hx
  cases o with
  | none => cases hx
  | some o => cases hx; exact Nat.le_refl _

theorem nextTag_ne {t : Byte} (h : t ≠ 0xFF) : nextTag t ≠ 0 ∧ nextTag t ≠ 0xFF := by
  revert h
  unfold nextTag
  revert t
  decide

theorem endSession_gen (s : State) : s.endSession.sec.ownerGen = s.sec.ownerGen := by
  unfold State.endSession
  split
  · rfl
  · exact congrArg (fun e => e.2.2.ownerGen) (State.endPlan_env s)

theorem begin_held {s : State} (m : Img) (g : Grant) (hg : (m.rotate || m.kind == 3) = true → s.sec.ownerGen < 64) (h : Held p s.env) :
    Held p (s.begin_ m g).env := by
  unfold State.begin_
  extract_lets s1 s2 tag
  have h1 : Held p s1.env := endSession_held h
  have e1 : s1.sec.ownerGen = s.sec.ownerGen := endSession_gen s
  have h2 : Held p s2.env := by
    simp only [s2]
    split
    · next hk => exact burn_held _ (by rw [e1]; exact hg (by simp [hk])) h1
    · split
      · next hr => exact burn_held _ (by rw [e1]; exact hg (by simp [hr])) h1
      · exact h1
  clear_value s2
  refine h2.sec rfl rfl ?_
  obtain ⟨a1, a2, a3, a4, a5, a6⟩ := h2.c
  refine ⟨a1, a2, ?_, (nextTag_ne a4).2, a5, a6⟩
  intro x hx
  cases hx
  exact nextTag_ne a4

theorem openMessage_held {s : State} (a n : Nat) (h : Held p s.env) : Held p (s.openMessage a n).1.env := by
  unfold State.openMessage
  extract_lets m x eph k s1 _ s2 id s3 s4
  have h2 : Held p s2.env := by
    refine (h.frame (t := s1) (by simp [s1])).sec rfl rfl ?_
    exact (Sec.Legal.consume h.c _).same _ rfl rfl (.inl rfl) (.inl rfl) rfl
  have g2 : s2.sec.ownerGen = x.ownerGen := by
    show (x.consume _).ownerGen = x.ownerGen
    unfold Sec.consume
    split <;> rfl
  split
  · next hc =>
    have h4 : Held p s4.env := endSession_held (h2.frame (by simp [s3]))
    have g4 : s4.sec.ownerGen = x.ownerGen := by
      rw [← g2]
      exact endSession_gen s3
    split
    · next hr =>
      refine burn_held _ ?_ h4
      rw [g4]
      simp only [Sec.closable, Bool.and_eq_true, Bool.not_eq_true', Bool.and_eq_false_imp, decide_eq_false_iff_not] at hc
      exact Nat.lt_of_not_le (hc.2 hr)
    · exact h4
  · split
    · next g hg =>
      refine begin_held m g ?_ (h2.frame (by simp))
      intro hk
      show s2.sec.ownerGen < 64
      rw [g2]
      unfold Sec.grant at hg
      split at hg
      · cases hg
      · split at hg
        · cases hg
        · next hn => simp only [hk, Bool.true_and, decide_eq_true_eq] at hn; omega
    · exact h2.sec rfl rfl (h2.c.same _ rfl rfl (.inl rfl) (.inl rfl) rfl)

theorem drawNonce_held {s : State} (h : Held p s.env) : Held p s.drawNonce.1.env :=
  h.sec rfl rfl (h.c.same _ rfl rfl (.inl rfl) (.inl rfl) rfl)

@[simp] theorem doDebugToken_held {s : State} (t : BitVec 2560) (h : Held p s.env) : Held p (doDebugToken s t).env := by
  unfold doDebugToken
  split
  · exact h
  · extract_lets ok _ s1 _ s2 s3
    have h1 : Held p s1.env := h.sec rfl rfl (Sec.Legal.consume h.c _)
    split
    · exact h1.sec rfl rfl (h1.c.same _ rfl rfl (.inl rfl) (.inl rfl) rfl)
    · have h2 : Held p s2.env := h1.sec rfl rfl (h1.c.same _ rfl rfl (.inl rfl) (.inl rfl) rfl)
      split
      · have h3 : Held p s3.env := endSession_held h2
        exact h3.sec rfl rfl h3.c.lockT2
      · exact h2

@[simp] theorem doDebugExpiry_held {s : State} (h : Held p s.env) : Held p (doDebugExpiry s).env := by
  unfold doDebugExpiry
  split
  · exact h
  · exact h.sec rfl rfl (Sec.Legal.lockT2 (h.c.same _ rfl rfl (.inl rfl) (.inl rfl) rfl))

/-! ### Power -/

theorem dropRails_held {s : State} (t : PState) (h : Held p s.env) : Held p (s.dropRails t).env :=
  (railsOff_held h).pwr rfl ((railsOff_held h).w.off _ rfl rfl rfl) rfl

@[simp] theorem doInputOn_held {s : State} (h : Held p s.env) : Held p (doInputOn s).env := by
  unfold doInputOn
  split
  · exact h
  · next hs =>
    have hs : s.pwr.state = .unpowered := by simpa using hs
    refine h.pwr rfl ⟨h.w.1, ?_, ?_⟩ rfl
    · intro e; have := (h.w.2.1 e).1; exact absurd (hs.symm.trans this) (by decide)
    · intro e
      rcases h.w.2.2 e with this | this
      · exact absurd (hs.symm.trans this) (by decide)
      · have := this.1; exact absurd (hs.symm.trans this) (by decide)

/-- Outside RUNNING and the reset before the rails fall, READY and Umbra are low. -/
theorem Pwr.Legal.low {w : Pwr} (h : w.Legal) (h1 : w.state ≠ .running) (h2 : w.state ≠ .inReset ∨ w.cycling = true) :
    w.ready = false ∧ w.umbra = false := by
  constructor
  · cases e : w.ready with
    | false => rfl
    | true => exact absurd (h.2.1 e).1 h1
  · cases e : w.umbra with
    | false => rfl
    | true =>
      rcases h.2.2 e with h3 | h3
      · exact absurd h3 h1
      · rcases h2 with h2 | h2
        · exact absurd h3.1 h2
        · rw [h3.2] at h2; cases h2

theorem release_held {s : State} (hr : s.pwr.ready = false ∧ s.pwr.umbra = false) (h : Held p s.env) : Held p s.release.env := by
  have h1 : ∀ t : State, t.pending = s.pending → t.sec = s.sec → t.pwr.halves = s.pwr.halves → t.pwr.ready = s.pwr.ready →
      t.pwr.umbra = s.pwr.umbra → Held p t.env := fun t a b c d e => h.pwr a (h.w.off _ c (d.trans hr.1) (e.trans hr.2)) b
  unfold State.release
  extract_lets _ s1
  split
  · exact (h1 { s1 with pwr := { s1.pwr with state := .standby, faultKit := true } } rfl rfl rfl rfl rfl).frame (State.event_env _)
  · split
    · exact (h1 { s1 with pwr := { s1.pwr with state := .standby, faultTrip := true } } rfl rfl rfl rfl rfl).frame (State.event_env _)
    · split
      · exact (h1 { s1 with pwr := { s1.pwr with state := .standby } } rfl rfl rfl rfl rfl).frame (State.event_env _)
      · exact h1 _ rfl rfl rfl rfl rfl

@[simp] theorem doRailRelease_held {s : State} (h : Held p s.env) : Held p (doRailRelease s).env := by
  unfold doRailRelease
  split
  · exact h
  · next hs =>
    have hs : s.pwr.state = .standby := by simpa using hs
    extract_lets _ s1
    have h1 : Held p s1.env := h.pwr rfl (h.w.same _ rfl rfl rfl rfl rfl) rfl
    split
    · exact h1
    · exact release_held (h.w.low (by rw [hs]; decide) (.inl (by rw [hs]; decide))) h1

@[simp] theorem doPwrEnRise_held {s : State} (h : Held p s.env) : Held p (doPwrEnRise s).env := by
  unfold doPwrEnRise
  split
  · exact h
  · extract_lets _ s1
    have h1 : Held p s1.env := h.pwr rfl (h.w.same _ rfl rfl rfl rfl rfl) rfl
    split
    · next hs =>
      have hs : s.pwr.state = .standby := hs.1
      exact release_held (h.w.low (by rw [hs]; decide) (.inl (by rw [hs]; decide))) h1
    · exact h1

theorem FwBanks.boot_svn {b x : FwBanks} (h : b.boot = some x) : x.svn = b.svn := by
  unfold FwBanks.boot at h
  extract_lets ok at h
  split at h
  · cases h; rfl
  · split at h
    · cases h; rfl
    · cases h

theorem bootAll_legal : ∀ (l : List Nat) (b x : Bank FwBanks), bootAll l b = some x → b.wf = true → (∀ k, (b.get k).svn ≤ 64) →
    x.wf = true ∧ ∀ k, (x.get k).svn ≤ 64
  | [], b, x, h, hw, hs => by cases h; exact ⟨hw, hs⟩
  | k :: ks, b, x, h, hw, hs => by
    unfold bootAll at h
    split at h
    · next y hy =>
      refine bootAll_legal ks _ x h (Bank.wf_set b k y hw) ?_
      intro j
      rw [Bank.get_set]
      split
      · rw [FwBanks.boot_svn hy]; exact hs k
      · exact hs j
    · cases h

theorem Sec.Legal.setFw {c : Sec} (h : c.Legal) (q : Sec) (hg : q.ownerGen = c.ownerGen) (ho : q.owner = c.owner)
    (hs : q.session = c.session) (ht : q.lastTag = c.lastTag) (hw : q.fw.wf = true) (hf : ∀ k, (q.fw.get k).svn ≤ 64) : q.Legal := by
  obtain ⟨h1, h2, h3, h4, -, -⟩ := h
  exact ⟨by rw [hg]; exact h1, by rw [hg, ho]; exact h2, by rw [hs]; exact h3, by rw [ht]; exact h4, hw, hf⟩

@[simp] theorem doSecureBoot_held {s : State} (h : Held p s.env) : Held p (doSecureBoot s).env := by
  unfold doSecureBoot
  split
  · exact h
  · split
    · exact ((railsOff_held h).pwr (t := { s.railsOff with pwr := { s.railsOff.pwr with state := .standby, faultBoot := true } }) rfl
        ((railsOff_held h).w.off _ rfl rfl rfl) rfl).frame (State.event_env _)
    · next fw hf =>
      obtain ⟨hw, hs⟩ := bootAll_legal _ _ _ hf h.c.2.2.2.2.1 h.c.2.2.2.2.2
      exact h.sec rfl rfl (Sec.Legal.lockT2 (h.c.setFw _ rfl rfl rfl rfl hw hs))

theorem FwBanks.burn_svn (b : FwBanks) (h : b.svn ≤ 64) : b.burn.svn ≤ 64 := by
  show max b.svn (min 64 b.booted) ≤ 64
  omega

@[simp] theorem doPowerUpReady_held {s : State} (h : Held p s.env) : Held p (doPowerUpReady s).env := by
  unfold doPowerUpReady
  split
  · exact h
  · next hs =>
    have hs : s.pwr.state = .powering := by simp at hs; exact hs.1
    extract_lets bad s1 _ _ _ _ _ s2
    have h1 : Held p s1.env := h.frame (by simp [s1])
    have e : s1.pwr.umbra = false := (h.w.low (by rw [hs]; decide) (.inl (by rw [hs]; decide))).2
    clear_value s1
    have h2 : Held p s2.env := by
      refine ⟨h1.1, ⟨h1.w.1, ?_, ?_⟩, h1.c.setFw _ rfl rfl rfl rfl (Bank.wf_mapVals _ _) ?_⟩
      · intro _; exact ⟨rfl, e⟩
      · intro _; exact .inl rfl
      · intro k
        show ((s1.sec.fw.mapVals FwBanks.burn).get k).svn ≤ 64
        rw [Bank.get_mapVals _ _ h1.c.2.2.2.2.1]
        exact FwBanks.burn_svn _ (h1.c.2.2.2.2.2 k)
    exact h2.frame (by simp)

@[simp] theorem doBrownOut_held {s : State} (h : Held p s.env) : Held p (doBrownOut s).env := by
  unfold doBrownOut
  split
  · exact h
  · extract_lets s1
    have h1 : Held p s1.env := dropRails_held _ h
    have hr : s1.pwr.ready = false := rfl
    have hu : s1.pwr.umbra = false := rfl
    clear_value s1
    exact h1.pwr rfl (h1.w.off _ rfl hr hu) rfl

@[simp] theorem doOvervoltage_held {s : State} (h : Held p s.env) : Held p (doOvervoltage s).env := by
  unfold doOvervoltage
  split
  · exact h
  · exact dropRails_held _ h

@[simp] theorem doThermalTrip_held {s : State} (h : Held p s.env) : Held p (doThermalTrip s).env := by
  unfold doThermalTrip
  split
  · exact h
  · extract_lets s1
    have h1 : Held p s1.env := dropRails_held _ h
    clear_value s1
    exact (h1.pwr (t := { s1 with pwr := { s1.pwr with tripLatch := true } }) rfl (h1.w.same _ rfl rfl rfl rfl rfl) rfl).frame
      (State.event_env _)

@[simp] theorem doPowerDown_held {s : State} (h : Held p s.env) : Held p (doPowerDown s).env := by
  unfold doPowerDown
  extract_lets _ s1 _ s2 s3 s4
  have h1 : Held p s1.env := h.pwr rfl (h.w.same _ rfl rfl rfl rfl rfl) rfl
  split
  · exact h1
  · have hw : Pwr.Legal { s1.pwr with ready := false } := ⟨h1.w.1, (fun e => by cases e), h1.w.2.2⟩
    have h2 : Held p s2.env := (h1.pwr (t := { s1 with pwr := { s1.pwr with ready := false } }) rfl hw rfl).frame (State.finishAll_env ..)
    clear_value s2
    have h3 : Held p s3.env := held_foldl _ (fun s a h => by split <;> simp [h]) _ _ h2
    clear_value s3
    exact dropRails_held _ (h3.frame (by simp [s4]))

@[simp] theorem doResetInN_held {s : State} (h : Held p s.env) : Held p (doResetInN s).env := by
  unfold doResetInN
  extract_lets _ s1
  have h1 : Held p s1.env := h.pwr rfl (h.w.same _ rfl rfl rfl rfl rfl) rfl
  clear_value s1
  split
  · exact recover_held _ _ _ _ _ _ _ h1
  · exact startCycle_held h1
  · exact h1

@[simp] theorem doResetInNRise_held {s : State} (h : Held p s.env) : Held p (doResetInNRise s).env :=
  h.pwr rfl (h.w.same _ rfl rfl rfl rfl rfl) rfl

@[simp] theorem doRailCycleDone_held {s : State} (h : Held p s.env) : Held p (doRailCycleDone s).env := by
  unfold doRailCycleDone
  split
  · exact h
  · split
    · next hs =>
      have hl := h.w.low (by rw [hs.1]; decide) (.inr hs.2)
      exact release_held hl (h.pwr rfl (h.w.off _ rfl hl.1 hl.2) rfl)
    · split
      · extract_lets s1
        have h1 : Held p s1.env := railsOff_held h
        have hr : s1.pwr.ready = false := rfl
        have hu : s1.pwr.umbra = false := rfl
        clear_value s1
        split
        · exact (h1.pwr (t := { s1 with pwr := { s1.pwr with state := .standby, faultRail := true } }) rfl (h1.w.off _ rfl hr hu) rfl).frame
            (State.event_env _)
        · exact release_held ⟨hr, hu⟩ (h1.pwr rfl (h1.w.same _ rfl rfl rfl rfl rfl) rfl)
      · exact h

@[simp] theorem doCoolingIdChange_held {s : State} (c : BitVec 3) (h : Held p s.env) : Held p (doCoolingIdChange s c).env := by
  unfold doCoolingIdChange
  split
  · exact h
  · extract_lets _ s1 set
    have h1 : Held p s1.env := h.pwr rfl (h.w.same _ rfl rfl rfl rfl rfl) rfl
    have hf : ∀ x : HalfPwr, x.Legal → (set x).Legal := fun x hx => hx
    clear_value s1 set
    split
    · exact h1
    · exact (held_updHalf 1 set hf (held_updHalf 0 set hf h1)).frame (State.mapDev_env ..)

@[simp] theorem judgeCap_held {s : State} (h : Held p s.env) : Held p s.judgeCap.env := by
  unfold State.judgeCap
  extract_lets below _ s1
  have h1 : Held p s1.env := h.pwr rfl (h.w.same _ rfl rfl rfl rfl rfl) rfl
  clear_value s1
  split
  · exact h1.frame (State.mapDev_env ..)
  · exact h1

@[simp] theorem doSetCap_held {s : State} (w : Nat) (h : Held p s.env) : Held p (doSetCap s w).env := by
  unfold doSetCap
  split
  · exact h
  · refine judgeCap_held ?_
    split
    · exact h.pwr rfl (h.w.same _ rfl rfl rfl rfl rfl) rfl
    · exact h.pwr rfl (h.w.same _ rfl rfl rfl rfl rfl) rfl

@[simp] theorem doEmergencyCap_held {s : State} (w : Nat) (h : Held p s.env) : Held p (doEmergencyCap s w).env := by
  unfold doEmergencyCap
  split
  · exact h
  · exact judgeCap_held (h.pwr rfl (h.w.same _ rfl rfl rfl rfl rfl) rfl)

@[simp] theorem doBudgetDivide_held {s : State} (a b : Nat) (h : Held p s.env) : Held p (doBudgetDivide s a b).env := by
  unfold doBudgetDivide
  split
  · exact h
  · extract_lets c sep n s1 s2
    have h1 : Held p s1.env := by
      simp only [s1]
      split
      · exact h
      · exact h
    clear_value s1
    have h2 : Held p s2.env := held_updHalf 1 _ (fun x hx => hx) (held_updHalf 0 _ (fun x hx => hx) h1)
    clear_value s2
    exact h2.pwr rfl (h2.w.same _ rfl rfl rfl rfl rfl) rfl

/-- An action of the power controller ends at a level of R573. -/
theorem powerStep_legal (x : HalfPwr) (w : Nat) (t : Temps) : (powerStep x w t).Legal := by
  have key : ∀ n, n ≤ 39 → 400 ≤ levelClock n ∧ levelClock n ≤ 1000 ∧ levelClock n % 25 = 0 ∧ 25 ≤ levelDuty n ∧ levelDuty n ≤ 100
      ∧ levelDuty n % 5 = 0 ∧ (levelDuty n = 100 ∨ levelClock n = 400) := by
    intro n hn
    unfold levelClock levelDuty
    omega
  exact key _ (Nat.min_le_left _ _)

@[simp] theorem doPowerControlTick_held {s : State} (n w : Nat) (t : Temps) (m : MeterIn) (h : Held p s.env) :
    Held p (doPowerControlTick s n w t m).env := by
  unfold doPowerControlTick
  split
  · exact h
  · extract_lets s1
    have h1 : Held p s1.env := held_updHalf _ _ (fun x _ => powerStep_legal x w t) h
    clear_value s1
    exact h1.pwr rfl (h1.w.same _ rfl rfl rfl rfl rfl) rfl

@[simp] theorem enterUmbra_held {s : State} (h : Held p s.env) : Held p s.enterUmbra.env := by
  unfold State.enterUmbra
  split
  · exact h
  · next hs =>
    have hs : s.pwr.state = .running := by simpa using hs
    extract_lets up s1
    have h1 : Held p s1.env := held_updHalf 1 up (fun x hx => hx) (held_updHalf 0 up (fun x hx => hx) (h.frame (State.gate_env s)))
    have e1 : s1.pwr.state = .running := hs
    clear_value s1
    exact h1.pwr rfl ⟨h1.w.1, (fun e => by cases e), (fun _ => .inl e1)⟩ rfl

@[simp] theorem wake_held {s : State} (h : Held p s.env) : Held p s.wake.env := by
  unfold State.wake
  split
  · exact h
  · next hs =>
    have hs : s.pwr.state = .running := by simp at hs; exact hs.2
    extract_lets s1 s2 tb
    have e2 : s2.env = s.env := by simp [s2, s1]
    have h2 : Held p s2.env := h.frame e2
    have e3 : s2.pwr.state = .running := (congrArg (fun e => e.2.1.state) e2).trans hs
    clear_value s2 tb
    exact h2.pwr rfl ⟨h2.w.1, (fun _ => ⟨e3, rfl⟩), (fun e => by cases e)⟩ rfl

@[simp] theorem doWake_held {s : State} (h : Held p s.env) : Held p (doWake s).env := wake_held h

/-! ### Host commands -/

theorem authorise_held {s : State} (c : WaitCmd) (h : Held p s.env) : Held p (s.authorise c).1.env := by
  unfold State.authorise
  extract_lets form
  split
  · exact h
  · next x hx =>
    extract_lets n s1
    have h1 : Held p s1.env := by
      obtain ⟨a1, a2, a3, a4, a5, a6⟩ := h.c
      refine h.sec rfl rfl ⟨a1, a2, ?_, a4, a5, a6⟩
      intro y hy
      cases hy
      exact a3 x hx
    clear_value s1
    split
    · exact h1
    · exact h1.sec rfl rfl (h1.c.same _ rfl rfl (.inl rfl) (.inl rfl) rfl)

theorem gateCheck_held {s : State} (c : WaitCmd) (h : Held p s.env) : Held p (s.gateCheck c).1.env := by
  unfold State.gateCheck
  split
  · exact h
  · extract_lets x
    have hx : Held p x.1.env := by
      simp only [x]
      split
      · exact h
      · exact authorise_held c h
    clear_value x
    split <;> exact hx

@[simp] theorem runOpen_held {s : State} (c : WaitCmd) (h : Held p s.env) : Held p (s.runOpen c).env := by
  unfold State.runOpen
  split
  · exact h.frame (by simp)
  · exact (openMessage_held (eAddr c.entry) (eLen32 c.entry) h).frame (by simp)

@[simp] theorem runLoad_held {s : State} (c : WaitCmd) (h : Held p s.env) : Held p (s.runLoad c).env := by
  unfold State.runLoad
  extract_lets m
  split
  · next r _ =>
    extract_lets s1
    have h1 : Held p s1.env := by
      simp only [s1]
      split
      · exact h.sec rfl rfl (h.c.same _ rfl rfl (.inl rfl) (.inl rfl) rfl)
      · exact h
    clear_value s1
    exact h1.frame (by simp)
  · exact (judgeCap_held (h.frame (by simp))).frame (State.finishCmd_env ..)

theorem reply_held {s : State} (e : Entry64) (h : Held p s.env) : Held p (s.reply e).2.env := by
  unfold State.reply
  split <;> first | exact h | exact drawNonce_held h

@[simp] theorem runQuery_held {s : State} (c : WaitCmd) (h : Held p s.env) : Held p (s.runQuery c).env := by
  unfold State.runQuery
  exact (reply_held c.entry h).frame (by simp)

@[simp] theorem runReset_held {s : State} (c : WaitCmd) (h : Held p s.env) : Held p (s.runReset c).env :=
  recover_held _ _ _ _ _ _ _ h

@[simp] theorem runEnter_held {s : State} (c : WaitCmd) (h : Held p s.env) : Held p (s.runEnter c).env := by
  unfold State.runEnter
  split
  · exact h.frame (by simp)
  · exact (enterUmbra_held h).frame (by simp)

@[simp] theorem runLeave_held {s : State} (c : WaitCmd) (h : Held p s.env) : Held p (s.runLeave c).env :=
  (wake_held h).frame (by simp [State.runLeave])

@[simp] theorem runCmd_held {s : State} (c : WaitCmd) (h : Held p s.env) : Held p (s.runCmd c).env := by
  unfold State.runCmd
  split
  · exact runOpen_held c h
  · exact runLoad_held c h
  · exact h.frame (by simp)
  · exact h.frame (by simp)
  · exact h.frame (by simp)
  · exact runQuery_held c h
  · exact runReset_held c h
  · exact runEnter_held c h
  · exact runLeave_held c h

theorem attempt_held {s : State} (b : List WaitCmd) (c : WaitCmd) (h : Held p s.env) : Held p (s.attempt b c).1.env := by
  unfold State.attempt
  split
  · exact h
  · extract_lets x c'
    have hx : Held p x.1.env := gateCheck_held c h
    clear_value x
    split
    · exact hx.frame (by simp)
    · split
      · exact hx
      · exact runCmd_held _ hx

theorem releasePass_held : ∀ (l b : List WaitCmd) (s : State), Held p s.env → Held p (releasePass b l s).1.env
  | [], _, _, h => h
  | c :: r, b, s, h => by
    unfold releasePass
    dsimp only
    have hx := attempt_held b c h
    split
    · exact releasePass_held r _ _ hx
    · exact releasePass_held r _ _ hx

theorem releaseLoop_held : ∀ (n : Nat) (s : State), Held p s.env → Held p (releaseLoop n s).env
  | 0, _, h => h
  | n + 1, s, h => by
    unfold releaseLoop
    extract_lets x
    have hx : Held p x.1.env := releasePass_held _ _ _ h
    clear_value x
    exact releaseLoop_held n _ hx

@[simp] theorem releaseWaiting_held {s : State} (h : Held p s.env) : Held p s.releaseWaiting.env := releaseLoop_held _ _ h

@[simp] theorem doHostCmd_held {s : State} (port queue : Nat) (w : W32) (e : Entry64) (h : Held p s.env) :
    Held p (doHostCmd s port queue w e).env := by
  unfold doHostCmd
  split
  · exact h
  · exact releaseWaiting_held (h.frame (by simp))

/-! ### Management -/

@[simp] theorem doModuleReset_held {s : State} (h : Held p s.env) : Held p (doModuleReset s).env := by
  unfold doModuleReset
  split
  · exact (recover_held _ _ _ _ _ _ _ h).frame (State.answer_env ..)
  · exact (startCycle_held h).frame (by simp)
  · exact h.frame (by simp)

theorem writeCap_held {s : State} (v m : W64) (h : Held p s.env) : Held p (s.writeCap v m).env := by
  unfold State.writeCap
  extract_lets w
  split
  · exact doEmergencyCap_held _ h
  · split
    · exact h
    · exact doSetCap_held _ h

theorem writePwr_legal (x : HalfPwr) (off : Nat) (v m : W64) (h : x.Legal) : (writePwr x off v m).Legal := by
  unfold writePwr
  split <;> exact h

theorem writeBlock_held {s : State} (off : Nat) (v m : W64) (b : Block) (h : Held p s.env) : Held p (s.writeBlock off v m b).env := by
  cases b
  case pwr n =>
    simp only [State.writeBlock]
    split
    · exact writeCap_held v m h
    · exact held_updHalf _ _ (fun x hx => writePwr_legal x off v m hx) h
  all_goals exact h.frame (by simp [State.writeBlock])

@[simp] theorem doRegWrite_held {s : State} (a : W32) (v m : W64) (h : Held p s.env) : Held p (doRegWrite s a v m).env := by
  unfold doRegWrite
  extract_lets n
  split
  · exact h.frame (by simp)
  · split
    · exact (writeBlock_held _ v m _ h).frame (State.answer_env ..)
    · exact h.frame (by simp)

@[simp] theorem doSpdmRequest_held {s : State} (r : List Byte) (h : Held p s.env) : Held p (doSpdmRequest s r).env := by
  unfold doSpdmRequest
  split
  · exact h.frame (by simp)
  · exact h.frame (by simp [State.spdm])

@[simp] theorem doFirmwareUpdate_held {s : State} (io : Nat) (cp : Bool) (i : List Byte) (h : Held p s.env) :
    Held p (doFirmwareUpdate s io cp i).env := by
  unfold doFirmwareUpdate
  extract_lets k
  refine (h.sec (t := { s with sec := { s.sec with fw := s.sec.fw.upd k (fun b => if b.usedB then { b with bankA := i } else { b with bankB := i }) } })
    rfl rfl ?_).frame (State.answer_env ..)
  refine h.c.setFw _ rfl rfl rfl rfl (Bank.wf_upd _ _ _ h.c.2.2.2.2.1) (Bank.all_upd (P := fun b : FwBanks => b.svn ≤ 64) h.c.2.2.2.2.2 ?_ k)
  intro x hx
  split <;> exact hx

end Sys2Proof.Machine
end

