-- ==== Sys2Proof/Laws/Rows.lean ====
section
/-! SUPPORT. The four shapes of a row's meaning: what each answers, and when it keeps the queue and the invariant. -/
namespace Sys2Proof.Machine

theorem devRow_next (s : State) (f : Dev → Dev) : devRow s f = .next (s.mapDev f) := rfl

theorem modRow_next (s : State) (f : State → State) : modRow s f = .next (f s) := rfl

theorem coreRow_next {ok : Bool} (h : ok = true) (s : State) (f : Dev → Dev) : coreRow ok s f = .next (s.mapDev f) := by
  rw [coreRow, if_pos h, devRow]

theorem coreRow_fault {ok : Bool} (h : ok = false) (s : State) (f : Dev → Dev) : coreRow ok s f = .fault .notThisCommand := by
  rw [coreRow, if_neg (by simp [h])]

theorem hostRow_next {ok : Bool} (h : ok = true) (port queue : Fin 2) (w : W32) (e : Entry64) (s : State) :
    hostRow ok port queue w e s = .next (doHostCmd s port queue w e) := by
  rw [hostRow, if_pos h, modRow]

theorem hostRow_fault {ok : Bool} (h : ok = false) (port queue : Fin 2) (w : W32) (e : Entry64) (s : State) :
    hostRow ok port queue w e s = .fault .notThisCommand := by
  rw [hostRow, if_neg (by simp [h])]

/-- If a row of the die answers a next state, it is the state with its device mapped. -/
theorem coreRow_cases {ok : Bool} {s t : State} {f : Dev → Dev} (h : coreRow ok s f = .next t) : t = s.mapDev f := by
  cases ok with
  | true => rw [coreRow_next rfl] at h; cases h; rfl
  | false => rw [coreRow_fault rfl] at h; cases h

theorem devRow_held {s t : State} {f : Dev → Dev} (h : s.Inv) (e : devRow s f = .next t) : Held s.pending t.env := by
  rw [devRow_next] at e; cases e; exact (held_self h).frame (State.mapDev_env ..)

theorem coreRow_held {ok : Bool} {s t : State} {f : Dev → Dev} (h : s.Inv) (e : coreRow ok s f = .next t) : Held s.pending t.env := by
  rw [coreRow_cases e]; exact (held_self h).frame (State.mapDev_env ..)

theorem modRow_held {s t : State} {f : State → State} (hf : Held s.pending (f s).env) (e : modRow s f = .next t) : Held s.pending t.env := by
  rw [modRow_next] at e; cases e; exact hf

theorem hostRow_held {ok : Bool} {port queue : Fin 2} {w : W32} {c : Entry64} {s t : State} (h : s.Inv)
    (e : hostRow ok port queue w c s = .next t) : Held s.pending t.env := by
  cases ok with
  | true => rw [hostRow_next rfl] at e; cases e; exact doHostCmd_held _ _ _ _ (held_self h)
  | false => rw [hostRow_fault rfl] at e; cases e

end Sys2Proof.Machine
end

