-- ==== Sys2Proof/Laws/Host.lean ====
section
/-! SUPPORT. What a host command row answers when the command runs at once. -/
namespace Sys2Proof.Machine

theorem State.carried_eq (s : State) (c : WaitCmd) : s.carried c = { s with hst := (s.carried c).hst } := by
  unfold State.carried
  dsimp only
  split <;> rfl

/-- The checks of R521 on a command that passes them, whatever the host side holds. -/
theorem authorise_taken {s : State} {p q : Fin 2} {h : W32} {e : Entry64} (f : s.Fetches p q h e) (H : Hst) :
    State.authorise { s with hst := H } (hostCmd p q h e)
      = ({ s with hst := H, sec := (s.taken p q h e).sec }, none) := by
  obtain ⟨-, -, -, -, ⟨f5, f5'⟩, f6, -⟩ := f
  have fo : (if (eReservedZero e && eInRange e) = true then none else some 0x11) = (none : Option Nat) := by rw [f5, f5']; rfl
  cases n : s.sec.session with
  | none =>
    rw [n] at f6
    have hs : (s.taken p q h e).sec = s.sec := by
      unfold State.taken
      dsimp only
      rw [n]
      show ({ s.sec with session := none } : Sec) = s.sec
      rw [← n]
    rw [hs]
    unfold State.authorise
    dsimp only
    rw [n]
    dsimp only
    rw [show (hostCmd p q h e).entry = e from rfl, fo]
    rw [if_pos (show eExempt e = true from f6)]
  | some x =>
    rw [n] at f6
    have hs : (s.taken p q h e).sec
        = { s.sec with session := some { x with cmdNumber := x.cmdNumber.set (qKey p q) (x.cmdNumber.get (qKey p q) + 1) } } := by
      unfold State.taken
      dsimp only
      rw [n]
      rfl
    rw [hs]
    unfold State.authorise
    dsimp only
    rw [n]
    dsimp only
    rw [show (hostCmd p q h e).entry = e from rfl, fo]
    rw [if_pos (show (x.mac (hostCmd p q h e).key (x.cmdNumber.get (hostCmd p q h e).key) e == macOf e) = true from beq_iff_eq.2 f6)]
    rfl

/-- A command that passes its checks is ready to run. -/
theorem gateCheck_taken {s : State} {p q : Fin 2} {h : W32} {e : Entry64} (f : s.Fetches p q h e) (H : Hst) :
    State.gateCheck { s with hst := H } (hostCmd p q h e) = ({ s with hst := H, sec := (s.taken p q h e).sec }, none) := by
  have nf : ¬ State.hostFenced { s with hst := H } e = true := fun x => absurd (f.fence.symm.trans x) (by decide)
  have um : ¬ (s.pwr.umbra && !eAlways e) = true := by
    cases hu : s.pwr.umbra
    · exact Bool.false_ne_true
    · rw [f.awake hu]; decide
  refine (if_neg nf).trans ?_
  have nc : (hostCmd p q h e).checked = false := rfl
  rw [nc]
  dsimp only
  rw [if_neg Bool.false_ne_true, authorise_taken f H]
  dsimp only
  rw [show (hostCmd p q h e).entry = e from rfl, if_neg um]

/-- A host command that runs at once: what its operation does, with no command left waiting. -/
theorem hostRow_runs {ok : Bool} {s : State} {p q : Fin 2} {h : W32} {e : Entry64} (k : ok = true) (f : s.Fetches p q h e)
    (w : (s.taken p q h e).mustWait [] (hostRun p q h e) = false) :
    hostRow ok p q h e s = .next ((s.taken p q h e).runCmd (hostRun p q h e)).noneWaiting := by
  rw [hostRow_next k]
  unfold doHostCmd
  rw [if_neg (by rw [f.up]; decide)]
  let H : Hst := { (s.carried (hostCmd p q h e)).hst with waiting := [hostCmd p q h e] }
  have al : (s.carried (hostCmd p q h e)).hst.waiting = [] := by
    unfold State.carried
    dsimp only
    split
    · exact f.alone
    · exact f.alone
  have at_ : State.attempt { s with hst := H } [] (hostCmd p q h e) = ((s.taken p q h e).runCmd (hostRun p q h e), none) := by
    have b : ¬ State.blocked { s with hst := H } [] (hostCmd p q h e) = true := fun x => absurd (f.free.symm.trans x) (by decide)
    refine (if_neg b).trans ?_
    dsimp only
    rw [gateCheck_taken f H]
    have t : ({ s with hst := H, sec := (s.taken p q h e).sec } : State) = s.taken p q h e := rfl
    dsimp only
    rw [t, show ({ hostCmd p q h e with checked := true } : WaitCmd) = hostRun p q h e from rfl, w]
    rfl
  have rp : releasePass [] [hostCmd p q h e] { s with hst := H } = ((s.taken p q h e).runCmd (hostRun p q h e), []) := by
    unfold releasePass
    dsimp only
    rw [at_]
    rfl
  have st : ({ s.carried (hostCmd p q h e) with hst := { (s.carried (hostCmd p q h e)).hst with
      waiting := (s.carried (hostCmd p q h e)).hst.waiting ++ [hostCmd p q h e] } } : State) = { s with hst := H } := by
    rw [al]
    rw [State.carried_eq]
    rfl
  have go : State.releaseWaiting { s with hst := H } = ((s.taken p q h e).runCmd (hostRun p q h e)).noneWaiting := by
    show releaseLoop 2 _ = _
    show releaseLoop 1 { (releasePass [] [hostCmd p q h e] { s with hst := H }).1 with
      hst := { (releasePass [] [hostCmd p q h e] { s with hst := H }).1.hst with
        waiting := (releasePass [] [hostCmd p q h e] { s with hst := H }).2 } } = _
    rw [rp]
    rfl
  rw [← go, ← st]
  rfl

end Sys2Proof.Machine
end

