-- ==== Sys2Proof/Laws/State.lean ====
section
/-! SUPPORT. One law for each field under each update of the state. -/
namespace Sys2Proof.Machine

/-! ### State.mapDev -/

@[simp] theorem State.mapDev_dev (s : State) (f : Dev → Dev) : (s.mapDev f).dev = f s.dev := rfl
@[simp] theorem State.mapDev_fab (s : State) (f : Dev → Dev) : (s.mapDev f).fab = s.fab := rfl
@[simp] theorem State.mapDev_hst (s : State) (f : Dev → Dev) : (s.mapDev f).hst = s.hst := rfl
@[simp] theorem State.mapDev_sec (s : State) (f : Dev → Dev) : (s.mapDev f).sec = s.sec := rfl
@[simp] theorem State.mapDev_pwr (s : State) (f : Dev → Dev) : (s.mapDev f).pwr = s.pwr := rfl
@[simp] theorem State.mapDev_moon (s : State) (f : Dev → Dev) : (s.mapDev f).moon = s.moon := rfl
@[simp] theorem State.mapDev_recs (s : State) (f : Dev → Dev) : (s.mapDev f).recs = s.recs := rfl
@[simp] theorem State.mapDev_pending (s : State) (f : Dev → Dev) : (s.mapDev f).pending = s.pending := rfl

/-! ### State.updLink -/

@[simp] theorem State.updLink_dev (s : State) (l : Nat) (f : Link → Link) : (s.updLink l f).dev = s.dev := rfl
@[simp] theorem State.updLink_fab (s : State) (l : Nat) (f : Link → Link) : (s.updLink l f).fab = { s.fab with links := s.fab.links.upd l f } := rfl
@[simp] theorem State.updLink_hst (s : State) (l : Nat) (f : Link → Link) : (s.updLink l f).hst = s.hst := rfl
@[simp] theorem State.updLink_sec (s : State) (l : Nat) (f : Link → Link) : (s.updLink l f).sec = s.sec := rfl
@[simp] theorem State.updLink_pwr (s : State) (l : Nat) (f : Link → Link) : (s.updLink l f).pwr = s.pwr := rfl
@[simp] theorem State.updLink_moon (s : State) (l : Nat) (f : Link → Link) : (s.updLink l f).moon = s.moon := rfl
@[simp] theorem State.updLink_recs (s : State) (l : Nat) (f : Link → Link) : (s.updLink l f).recs = s.recs := rfl
@[simp] theorem State.updLink_pending (s : State) (l : Nat) (f : Link → Link) : (s.updLink l f).pending = s.pending := rfl

/-! ### State.updHalf -/

@[simp] theorem State.updHalf_dev (s : State) (h : Nat) (f : HalfPwr → HalfPwr) : (s.updHalf h f).dev = s.dev := rfl
@[simp] theorem State.updHalf_fab (s : State) (h : Nat) (f : HalfPwr → HalfPwr) : (s.updHalf h f).fab = s.fab := rfl
@[simp] theorem State.updHalf_hst (s : State) (h : Nat) (f : HalfPwr → HalfPwr) : (s.updHalf h f).hst = s.hst := rfl
@[simp] theorem State.updHalf_sec (s : State) (h : Nat) (f : HalfPwr → HalfPwr) : (s.updHalf h f).sec = s.sec := rfl
@[simp] theorem State.updHalf_pwr (s : State) (h : Nat) (f : HalfPwr → HalfPwr) : (s.updHalf h f).pwr = { s.pwr with halves := s.pwr.halves.upd h f } := rfl
@[simp] theorem State.updHalf_moon (s : State) (h : Nat) (f : HalfPwr → HalfPwr) : (s.updHalf h f).moon = s.moon := rfl
@[simp] theorem State.updHalf_recs (s : State) (h : Nat) (f : HalfPwr → HalfPwr) : (s.updHalf h f).recs = s.recs := rfl
@[simp] theorem State.updHalf_pending (s : State) (h : Nat) (f : HalfPwr → HalfPwr) : (s.updHalf h f).pending = s.pending := rfl

/-! ### Dev.setCore -/

@[simp] theorem Dev.setCore_ms (d : Dev) (n : Nat) (c : Core) : (d.setCore n c).ms = d.ms := rfl
@[simp] theorem Dev.setCore_lcs (d : Dev) (n : Nat) (c : Core) : (d.setCore n c).lcs = d.lcs := rfl
@[simp] theorem Dev.setCore_cores (d : Dev) (n : Nat) (c : Core) : (d.setCore n c).cores = d.cores.set n c := rfl
@[simp] theorem Dev.setCore_comas (d : Dev) (n : Nat) (c : Core) : (d.setCore n c).comas = d.comas := rfl
@[simp] theorem Dev.setCore_comaOrd (d : Dev) (n : Nat) (c : Core) : (d.setCore n c).comaOrd = d.comaOrd := rfl
@[simp] theorem Dev.setCore_dies (d : Dev) (n : Nat) (c : Core) : (d.setCore n c).dies = d.dies := rfl
@[simp] theorem Dev.setCore_segs (d : Dev) (n : Nat) (c : Core) : (d.setCore n c).segs = d.segs := rfl
@[simp] theorem Dev.setCore_ownerTag (d : Dev) (n : Nat) (c : Core) : (d.setCore n c).ownerTag = d.ownerTag := rfl
@[simp] theorem Dev.setCore_segFaults (d : Dev) (n : Nat) (c : Core) : (d.setCore n c).segFaults = d.segFaults := rfl
@[simp] theorem Dev.setCore_plan (d : Dev) (n : Nat) (c : Core) : (d.setCore n c).plan = d.plan := rfl
@[simp] theorem Dev.setCore_signals (d : Dev) (n : Nat) (c : Core) : (d.setCore n c).signals = d.signals := rfl
@[simp] theorem Dev.setCore_streamSems (d : Dev) (n : Nat) (c : Core) : (d.setCore n c).streamSems = d.streamSems := rfl
@[simp] theorem Dev.setCore_lateSignals (d : Dev) (n : Nat) (c : Core) : (d.setCore n c).lateSignals = d.lateSignals := rfl
@[simp] theorem Dev.setCore_msuPlan (d : Dev) (n : Nat) (c : Core) : (d.setCore n c).msuPlan = d.msuPlan := rfl
@[simp] theorem Dev.setCore_msus (d : Dev) (n : Nat) (c : Core) : (d.setCore n c).msus = d.msus := rfl
@[simp] theorem Dev.setCore_ilKey (d : Dev) (n : Nat) (c : Core) : (d.setCore n c).ilKey = d.ilKey := rfl
@[simp] theorem Dev.setCore_accesses (d : Dev) (n : Nat) (c : Core) : (d.setCore n c).accesses = d.accesses := rfl
@[simp] theorem Dev.setCore_runs (d : Dev) (n : Nat) (c : Core) : (d.setCore n c).runs = d.runs := rfl
@[simp] theorem Dev.setCore_health (d : Dev) (n : Nat) (c : Core) : (d.setCore n c).health = d.health := rfl
@[simp] theorem Dev.setCore_errQ (d : Dev) (n : Nat) (c : Core) : (d.setCore n c).errQ = d.errQ := rfl
@[simp] theorem Dev.setCore_errDropped (d : Dev) (n : Nat) (c : Core) : (d.setCore n c).errDropped = d.errDropped := rfl
@[simp] theorem Dev.setCore_errSeq (d : Dev) (n : Nat) (c : Core) : (d.setCore n c).errSeq = d.errSeq := rfl
@[simp] theorem Dev.setCore_memErr (d : Dev) (n : Nat) (c : Core) : (d.setCore n c).memErr = d.memErr := rfl
@[simp] theorem Dev.setCore_settings (d : Dev) (n : Nat) (c : Core) : (d.setCore n c).settings = d.settings := rfl
@[simp] theorem Dev.setCore_moduleFault (d : Dev) (n : Nat) (c : Core) : (d.setCore n c).moduleFault = d.moduleFault := rfl
@[simp] theorem Dev.setCore_faultN (d : Dev) (n : Nat) (c : Core) : (d.setCore n c).faultN = d.faultN := rfl
@[simp] theorem Dev.setCore_norms (d : Dev) (n : Nat) (c : Core) : (d.setCore n c).norms = d.norms := rfl
@[simp] theorem Dev.setCore_clip (d : Dev) (n : Nat) (c : Core) : (d.setCore n c).clip = d.clip := rfl
@[simp] theorem Dev.setCore_wn (d : Dev) (n : Nat) (c : Core) : (d.setCore n c).wn = d.wn := rfl
@[simp] theorem Dev.setCore_un (d : Dev) (n : Nat) (c : Core) : (d.setCore n c).un = d.un := rfl
@[simp] theorem Dev.setCore_stepBase (d : Dev) (n : Nat) (c : Core) : (d.setCore n c).stepBase = d.stepBase := rfl
@[simp] theorem Dev.setCore_stepWrites (d : Dev) (n : Nat) (c : Core) : (d.setCore n c).stepWrites = d.stepWrites := rfl
@[simp] theorem Dev.setCore_stepFold (d : Dev) (n : Nat) (c : Core) : (d.setCore n c).stepFold = d.stepFold := rfl
@[simp] theorem Dev.setCore_stepRef (d : Dev) (n : Nat) (c : Core) : (d.setCore n c).stepRef = d.stepRef := rfl
@[simp] theorem Dev.setCore_restrict (d : Dev) (n : Nat) (c : Core) : (d.setCore n c).restrict = d.restrict := rfl
@[simp] theorem Dev.setCore_ownMsgs (d : Dev) (n : Nat) (c : Core) : (d.setCore n c).ownMsgs = d.ownMsgs := rfl
@[simp] theorem Dev.setCore_time (d : Dev) (n : Nat) (c : Core) : (d.setCore n c).time = d.time := rfl
@[simp] theorem Dev.setCore_poweredMin (d : Dev) (n : Nat) (c : Core) : (d.setCore n c).poweredMin = d.poweredMin := rfl
@[simp] theorem Dev.setCore_free (d : Dev) (n : Nat) (c : Core) : (d.setCore n c).free = d.free := rfl

/-! ### Dev.updCore -/

@[simp] theorem Dev.updCore_ms (d : Dev) (n : Nat) (f : Core → Core) : (d.updCore n f).ms = d.ms := rfl
@[simp] theorem Dev.updCore_lcs (d : Dev) (n : Nat) (f : Core → Core) : (d.updCore n f).lcs = d.lcs := rfl
@[simp] theorem Dev.updCore_cores (d : Dev) (n : Nat) (f : Core → Core) : (d.updCore n f).cores = d.cores.set n (f (d.core n)) := rfl
@[simp] theorem Dev.updCore_comas (d : Dev) (n : Nat) (f : Core → Core) : (d.updCore n f).comas = d.comas := rfl
@[simp] theorem Dev.updCore_comaOrd (d : Dev) (n : Nat) (f : Core → Core) : (d.updCore n f).comaOrd = d.comaOrd := rfl
@[simp] theorem Dev.updCore_dies (d : Dev) (n : Nat) (f : Core → Core) : (d.updCore n f).dies = d.dies := rfl
@[simp] theorem Dev.updCore_segs (d : Dev) (n : Nat) (f : Core → Core) : (d.updCore n f).segs = d.segs := rfl
@[simp] theorem Dev.updCore_ownerTag (d : Dev) (n : Nat) (f : Core → Core) : (d.updCore n f).ownerTag = d.ownerTag := rfl
@[simp] theorem Dev.updCore_segFaults (d : Dev) (n : Nat) (f : Core → Core) : (d.updCore n f).segFaults = d.segFaults := rfl
@[simp] theorem Dev.updCore_plan (d : Dev) (n : Nat) (f : Core → Core) : (d.updCore n f).plan = d.plan := rfl
@[simp] theorem Dev.updCore_signals (d : Dev) (n : Nat) (f : Core → Core) : (d.updCore n f).signals = d.signals := rfl
@[simp] theorem Dev.updCore_streamSems (d : Dev) (n : Nat) (f : Core → Core) : (d.updCore n f).streamSems = d.streamSems := rfl
@[simp] theorem Dev.updCore_lateSignals (d : Dev) (n : Nat) (f : Core → Core) : (d.updCore n f).lateSignals = d.lateSignals := rfl
@[simp] theorem Dev.updCore_msuPlan (d : Dev) (n : Nat) (f : Core → Core) : (d.updCore n f).msuPlan = d.msuPlan := rfl
@[simp] theorem Dev.updCore_msus (d : Dev) (n : Nat) (f : Core → Core) : (d.updCore n f).msus = d.msus := rfl
@[simp] theorem Dev.updCore_ilKey (d : Dev) (n : Nat) (f : Core → Core) : (d.updCore n f).ilKey = d.ilKey := rfl
@[simp] theorem Dev.updCore_accesses (d : Dev) (n : Nat) (f : Core → Core) : (d.updCore n f).accesses = d.accesses := rfl
@[simp] theorem Dev.updCore_runs (d : Dev) (n : Nat) (f : Core → Core) : (d.updCore n f).runs = d.runs := rfl
@[simp] theorem Dev.updCore_health (d : Dev) (n : Nat) (f : Core → Core) : (d.updCore n f).health = d.health := rfl
@[simp] theorem Dev.updCore_errQ (d : Dev) (n : Nat) (f : Core → Core) : (d.updCore n f).errQ = d.errQ := rfl
@[simp] theorem Dev.updCore_errDropped (d : Dev) (n : Nat) (f : Core → Core) : (d.updCore n f).errDropped = d.errDropped := rfl
@[simp] theorem Dev.updCore_errSeq (d : Dev) (n : Nat) (f : Core → Core) : (d.updCore n f).errSeq = d.errSeq := rfl
@[simp] theorem Dev.updCore_memErr (d : Dev) (n : Nat) (f : Core → Core) : (d.updCore n f).memErr = d.memErr := rfl
@[simp] theorem Dev.updCore_settings (d : Dev) (n : Nat) (f : Core → Core) : (d.updCore n f).settings = d.settings := rfl
@[simp] theorem Dev.updCore_moduleFault (d : Dev) (n : Nat) (f : Core → Core) : (d.updCore n f).moduleFault = d.moduleFault := rfl
@[simp] theorem Dev.updCore_faultN (d : Dev) (n : Nat) (f : Core → Core) : (d.updCore n f).faultN = d.faultN := rfl
@[simp] theorem Dev.updCore_norms (d : Dev) (n : Nat) (f : Core → Core) : (d.updCore n f).norms = d.norms := rfl
@[simp] theorem Dev.updCore_clip (d : Dev) (n : Nat) (f : Core → Core) : (d.updCore n f).clip = d.clip := rfl
@[simp] theorem Dev.updCore_wn (d : Dev) (n : Nat) (f : Core → Core) : (d.updCore n f).wn = d.wn := rfl
@[simp] theorem Dev.updCore_un (d : Dev) (n : Nat) (f : Core → Core) : (d.updCore n f).un = d.un := rfl
@[simp] theorem Dev.updCore_stepBase (d : Dev) (n : Nat) (f : Core → Core) : (d.updCore n f).stepBase = d.stepBase := rfl
@[simp] theorem Dev.updCore_stepWrites (d : Dev) (n : Nat) (f : Core → Core) : (d.updCore n f).stepWrites = d.stepWrites := rfl
@[simp] theorem Dev.updCore_stepFold (d : Dev) (n : Nat) (f : Core → Core) : (d.updCore n f).stepFold = d.stepFold := rfl
@[simp] theorem Dev.updCore_stepRef (d : Dev) (n : Nat) (f : Core → Core) : (d.updCore n f).stepRef = d.stepRef := rfl
@[simp] theorem Dev.updCore_restrict (d : Dev) (n : Nat) (f : Core → Core) : (d.updCore n f).restrict = d.restrict := rfl
@[simp] theorem Dev.updCore_ownMsgs (d : Dev) (n : Nat) (f : Core → Core) : (d.updCore n f).ownMsgs = d.ownMsgs := rfl
@[simp] theorem Dev.updCore_time (d : Dev) (n : Nat) (f : Core → Core) : (d.updCore n f).time = d.time := rfl
@[simp] theorem Dev.updCore_poweredMin (d : Dev) (n : Nat) (f : Core → Core) : (d.updCore n f).poweredMin = d.poweredMin := rfl
@[simp] theorem Dev.updCore_free (d : Dev) (n : Nat) (f : Core → Core) : (d.updCore n f).free = d.free := rfl

/-! ### Dev.setLc -/

@[simp] theorem Dev.setLc_ms (d : Dev) (n : Nat) (l : LCore) : (d.setLc n l).ms = d.ms := rfl
@[simp] theorem Dev.setLc_lcs (d : Dev) (n : Nat) (l : LCore) : (d.setLc n l).lcs = d.lcs.set n l := rfl
@[simp] theorem Dev.setLc_cores (d : Dev) (n : Nat) (l : LCore) : (d.setLc n l).cores = d.cores := rfl
@[simp] theorem Dev.setLc_comas (d : Dev) (n : Nat) (l : LCore) : (d.setLc n l).comas = d.comas := rfl
@[simp] theorem Dev.setLc_comaOrd (d : Dev) (n : Nat) (l : LCore) : (d.setLc n l).comaOrd = d.comaOrd := rfl
@[simp] theorem Dev.setLc_dies (d : Dev) (n : Nat) (l : LCore) : (d.setLc n l).dies = d.dies := rfl
@[simp] theorem Dev.setLc_segs (d : Dev) (n : Nat) (l : LCore) : (d.setLc n l).segs = d.segs := rfl
@[simp] theorem Dev.setLc_ownerTag (d : Dev) (n : Nat) (l : LCore) : (d.setLc n l).ownerTag = d.ownerTag := rfl
@[simp] theorem Dev.setLc_segFaults (d : Dev) (n : Nat) (l : LCore) : (d.setLc n l).segFaults = d.segFaults := rfl
@[simp] theorem Dev.setLc_plan (d : Dev) (n : Nat) (l : LCore) : (d.setLc n l).plan = d.plan := rfl
@[simp] theorem Dev.setLc_signals (d : Dev) (n : Nat) (l : LCore) : (d.setLc n l).signals = d.signals := rfl
@[simp] theorem Dev.setLc_streamSems (d : Dev) (n : Nat) (l : LCore) : (d.setLc n l).streamSems = d.streamSems := rfl
@[simp] theorem Dev.setLc_lateSignals (d : Dev) (n : Nat) (l : LCore) : (d.setLc n l).lateSignals = d.lateSignals := rfl
@[simp] theorem Dev.setLc_msuPlan (d : Dev) (n : Nat) (l : LCore) : (d.setLc n l).msuPlan = d.msuPlan := rfl
@[simp] theorem Dev.setLc_msus (d : Dev) (n : Nat) (l : LCore) : (d.setLc n l).msus = d.msus := rfl
@[simp] theorem Dev.setLc_ilKey (d : Dev) (n : Nat) (l : LCore) : (d.setLc n l).ilKey = d.ilKey := rfl
@[simp] theorem Dev.setLc_accesses (d : Dev) (n : Nat) (l : LCore) : (d.setLc n l).accesses = d.accesses := rfl
@[simp] theorem Dev.setLc_runs (d : Dev) (n : Nat) (l : LCore) : (d.setLc n l).runs = d.runs := rfl
@[simp] theorem Dev.setLc_health (d : Dev) (n : Nat) (l : LCore) : (d.setLc n l).health = d.health := rfl
@[simp] theorem Dev.setLc_errQ (d : Dev) (n : Nat) (l : LCore) : (d.setLc n l).errQ = d.errQ := rfl
@[simp] theorem Dev.setLc_errDropped (d : Dev) (n : Nat) (l : LCore) : (d.setLc n l).errDropped = d.errDropped := rfl
@[simp] theorem Dev.setLc_errSeq (d : Dev) (n : Nat) (l : LCore) : (d.setLc n l).errSeq = d.errSeq := rfl
@[simp] theorem Dev.setLc_memErr (d : Dev) (n : Nat) (l : LCore) : (d.setLc n l).memErr = d.memErr := rfl
@[simp] theorem Dev.setLc_settings (d : Dev) (n : Nat) (l : LCore) : (d.setLc n l).settings = d.settings := rfl
@[simp] theorem Dev.setLc_moduleFault (d : Dev) (n : Nat) (l : LCore) : (d.setLc n l).moduleFault = d.moduleFault := rfl
@[simp] theorem Dev.setLc_faultN (d : Dev) (n : Nat) (l : LCore) : (d.setLc n l).faultN = d.faultN := rfl
@[simp] theorem Dev.setLc_norms (d : Dev) (n : Nat) (l : LCore) : (d.setLc n l).norms = d.norms := rfl
@[simp] theorem Dev.setLc_clip (d : Dev) (n : Nat) (l : LCore) : (d.setLc n l).clip = d.clip := rfl
@[simp] theorem Dev.setLc_wn (d : Dev) (n : Nat) (l : LCore) : (d.setLc n l).wn = d.wn := rfl
@[simp] theorem Dev.setLc_un (d : Dev) (n : Nat) (l : LCore) : (d.setLc n l).un = d.un := rfl
@[simp] theorem Dev.setLc_stepBase (d : Dev) (n : Nat) (l : LCore) : (d.setLc n l).stepBase = d.stepBase := rfl
@[simp] theorem Dev.setLc_stepWrites (d : Dev) (n : Nat) (l : LCore) : (d.setLc n l).stepWrites = d.stepWrites := rfl
@[simp] theorem Dev.setLc_stepFold (d : Dev) (n : Nat) (l : LCore) : (d.setLc n l).stepFold = d.stepFold := rfl
@[simp] theorem Dev.setLc_stepRef (d : Dev) (n : Nat) (l : LCore) : (d.setLc n l).stepRef = d.stepRef := rfl
@[simp] theorem Dev.setLc_restrict (d : Dev) (n : Nat) (l : LCore) : (d.setLc n l).restrict = d.restrict := rfl
@[simp] theorem Dev.setLc_ownMsgs (d : Dev) (n : Nat) (l : LCore) : (d.setLc n l).ownMsgs = d.ownMsgs := rfl
@[simp] theorem Dev.setLc_time (d : Dev) (n : Nat) (l : LCore) : (d.setLc n l).time = d.time := rfl
@[simp] theorem Dev.setLc_poweredMin (d : Dev) (n : Nat) (l : LCore) : (d.setLc n l).poweredMin = d.poweredMin := rfl
@[simp] theorem Dev.setLc_free (d : Dev) (n : Nat) (l : LCore) : (d.setLc n l).free = d.free := rfl

/-! ### Dev.updLc -/

@[simp] theorem Dev.updLc_ms (d : Dev) (n : Nat) (f : LCore → LCore) : (d.updLc n f).ms = d.ms := rfl
@[simp] theorem Dev.updLc_lcs (d : Dev) (n : Nat) (f : LCore → LCore) : (d.updLc n f).lcs = d.lcs.set n (f (d.lc n)) := rfl
@[simp] theorem Dev.updLc_cores (d : Dev) (n : Nat) (f : LCore → LCore) : (d.updLc n f).cores = d.cores := rfl
@[simp] theorem Dev.updLc_comas (d : Dev) (n : Nat) (f : LCore → LCore) : (d.updLc n f).comas = d.comas := rfl
@[simp] theorem Dev.updLc_comaOrd (d : Dev) (n : Nat) (f : LCore → LCore) : (d.updLc n f).comaOrd = d.comaOrd := rfl
@[simp] theorem Dev.updLc_dies (d : Dev) (n : Nat) (f : LCore → LCore) : (d.updLc n f).dies = d.dies := rfl
@[simp] theorem Dev.updLc_segs (d : Dev) (n : Nat) (f : LCore → LCore) : (d.updLc n f).segs = d.segs := rfl
@[simp] theorem Dev.updLc_ownerTag (d : Dev) (n : Nat) (f : LCore → LCore) : (d.updLc n f).ownerTag = d.ownerTag := rfl
@[simp] theorem Dev.updLc_segFaults (d : Dev) (n : Nat) (f : LCore → LCore) : (d.updLc n f).segFaults = d.segFaults := rfl
@[simp] theorem Dev.updLc_plan (d : Dev) (n : Nat) (f : LCore → LCore) : (d.updLc n f).plan = d.plan := rfl
@[simp] theorem Dev.updLc_signals (d : Dev) (n : Nat) (f : LCore → LCore) : (d.updLc n f).signals = d.signals := rfl
@[simp] theorem Dev.updLc_streamSems (d : Dev) (n : Nat) (f : LCore → LCore) : (d.updLc n f).streamSems = d.streamSems := rfl
@[simp] theorem Dev.updLc_lateSignals (d : Dev) (n : Nat) (f : LCore → LCore) : (d.updLc n f).lateSignals = d.lateSignals := rfl
@[simp] theorem Dev.updLc_msuPlan (d : Dev) (n : Nat) (f : LCore → LCore) : (d.updLc n f).msuPlan = d.msuPlan := rfl
@[simp] theorem Dev.updLc_msus (d : Dev) (n : Nat) (f : LCore → LCore) : (d.updLc n f).msus = d.msus := rfl
@[simp] theorem Dev.updLc_ilKey (d : Dev) (n : Nat) (f : LCore → LCore) : (d.updLc n f).ilKey = d.ilKey := rfl
@[simp] theorem Dev.updLc_accesses (d : Dev) (n : Nat) (f : LCore → LCore) : (d.updLc n f).accesses = d.accesses := rfl
@[simp] theorem Dev.updLc_runs (d : Dev) (n : Nat) (f : LCore → LCore) : (d.updLc n f).runs = d.runs := rfl
@[simp] theorem Dev.updLc_health (d : Dev) (n : Nat) (f : LCore → LCore) : (d.updLc n f).health = d.health := rfl
@[simp] theorem Dev.updLc_errQ (d : Dev) (n : Nat) (f : LCore → LCore) : (d.updLc n f).errQ = d.errQ := rfl
@[simp] theorem Dev.updLc_errDropped (d : Dev) (n : Nat) (f : LCore → LCore) : (d.updLc n f).errDropped = d.errDropped := rfl
@[simp] theorem Dev.updLc_errSeq (d : Dev) (n : Nat) (f : LCore → LCore) : (d.updLc n f).errSeq = d.errSeq := rfl
@[simp] theorem Dev.updLc_memErr (d : Dev) (n : Nat) (f : LCore → LCore) : (d.updLc n f).memErr = d.memErr := rfl
@[simp] theorem Dev.updLc_settings (d : Dev) (n : Nat) (f : LCore → LCore) : (d.updLc n f).settings = d.settings := rfl
@[simp] theorem Dev.updLc_moduleFault (d : Dev) (n : Nat) (f : LCore → LCore) : (d.updLc n f).moduleFault = d.moduleFault := rfl
@[simp] theorem Dev.updLc_faultN (d : Dev) (n : Nat) (f : LCore → LCore) : (d.updLc n f).faultN = d.faultN := rfl
@[simp] theorem Dev.updLc_norms (d : Dev) (n : Nat) (f : LCore → LCore) : (d.updLc n f).norms = d.norms := rfl
@[simp] theorem Dev.updLc_clip (d : Dev) (n : Nat) (f : LCore → LCore) : (d.updLc n f).clip = d.clip := rfl
@[simp] theorem Dev.updLc_wn (d : Dev) (n : Nat) (f : LCore → LCore) : (d.updLc n f).wn = d.wn := rfl
@[simp] theorem Dev.updLc_un (d : Dev) (n : Nat) (f : LCore → LCore) : (d.updLc n f).un = d.un := rfl
@[simp] theorem Dev.updLc_stepBase (d : Dev) (n : Nat) (f : LCore → LCore) : (d.updLc n f).stepBase = d.stepBase := rfl
@[simp] theorem Dev.updLc_stepWrites (d : Dev) (n : Nat) (f : LCore → LCore) : (d.updLc n f).stepWrites = d.stepWrites := rfl
@[simp] theorem Dev.updLc_stepFold (d : Dev) (n : Nat) (f : LCore → LCore) : (d.updLc n f).stepFold = d.stepFold := rfl
@[simp] theorem Dev.updLc_stepRef (d : Dev) (n : Nat) (f : LCore → LCore) : (d.updLc n f).stepRef = d.stepRef := rfl
@[simp] theorem Dev.updLc_restrict (d : Dev) (n : Nat) (f : LCore → LCore) : (d.updLc n f).restrict = d.restrict := rfl
@[simp] theorem Dev.updLc_ownMsgs (d : Dev) (n : Nat) (f : LCore → LCore) : (d.updLc n f).ownMsgs = d.ownMsgs := rfl
@[simp] theorem Dev.updLc_time (d : Dev) (n : Nat) (f : LCore → LCore) : (d.updLc n f).time = d.time := rfl
@[simp] theorem Dev.updLc_poweredMin (d : Dev) (n : Nat) (f : LCore → LCore) : (d.updLc n f).poweredMin = d.poweredMin := rfl
@[simp] theorem Dev.updLc_free (d : Dev) (n : Nat) (f : LCore → LCore) : (d.updLc n f).free = d.free := rfl

/-! ### Dev.updHealth -/

@[simp] theorem Dev.updHealth_ms (d : Dev) (u : Nat) (f : HealthRec → HealthRec) : (d.updHealth u f).ms = d.ms := rfl
@[simp] theorem Dev.updHealth_lcs (d : Dev) (u : Nat) (f : HealthRec → HealthRec) : (d.updHealth u f).lcs = d.lcs := rfl
@[simp] theorem Dev.updHealth_cores (d : Dev) (u : Nat) (f : HealthRec → HealthRec) : (d.updHealth u f).cores = d.cores := rfl
@[simp] theorem Dev.updHealth_comas (d : Dev) (u : Nat) (f : HealthRec → HealthRec) : (d.updHealth u f).comas = d.comas := rfl
@[simp] theorem Dev.updHealth_comaOrd (d : Dev) (u : Nat) (f : HealthRec → HealthRec) : (d.updHealth u f).comaOrd = d.comaOrd := rfl
@[simp] theorem Dev.updHealth_dies (d : Dev) (u : Nat) (f : HealthRec → HealthRec) : (d.updHealth u f).dies = d.dies := rfl
@[simp] theorem Dev.updHealth_segs (d : Dev) (u : Nat) (f : HealthRec → HealthRec) : (d.updHealth u f).segs = d.segs := rfl
@[simp] theorem Dev.updHealth_ownerTag (d : Dev) (u : Nat) (f : HealthRec → HealthRec) : (d.updHealth u f).ownerTag = d.ownerTag := rfl
@[simp] theorem Dev.updHealth_segFaults (d : Dev) (u : Nat) (f : HealthRec → HealthRec) : (d.updHealth u f).segFaults = d.segFaults := rfl
@[simp] theorem Dev.updHealth_plan (d : Dev) (u : Nat) (f : HealthRec → HealthRec) : (d.updHealth u f).plan = d.plan := rfl
@[simp] theorem Dev.updHealth_signals (d : Dev) (u : Nat) (f : HealthRec → HealthRec) : (d.updHealth u f).signals = d.signals := rfl
@[simp] theorem Dev.updHealth_streamSems (d : Dev) (u : Nat) (f : HealthRec → HealthRec) : (d.updHealth u f).streamSems = d.streamSems := rfl
@[simp] theorem Dev.updHealth_lateSignals (d : Dev) (u : Nat) (f : HealthRec → HealthRec) : (d.updHealth u f).lateSignals = d.lateSignals := rfl
@[simp] theorem Dev.updHealth_msuPlan (d : Dev) (u : Nat) (f : HealthRec → HealthRec) : (d.updHealth u f).msuPlan = d.msuPlan := rfl
@[simp] theorem Dev.updHealth_msus (d : Dev) (u : Nat) (f : HealthRec → HealthRec) : (d.updHealth u f).msus = d.msus := rfl
@[simp] theorem Dev.updHealth_ilKey (d : Dev) (u : Nat) (f : HealthRec → HealthRec) : (d.updHealth u f).ilKey = d.ilKey := rfl
@[simp] theorem Dev.updHealth_accesses (d : Dev) (u : Nat) (f : HealthRec → HealthRec) : (d.updHealth u f).accesses = d.accesses := rfl
@[simp] theorem Dev.updHealth_runs (d : Dev) (u : Nat) (f : HealthRec → HealthRec) : (d.updHealth u f).runs = d.runs := rfl
@[simp] theorem Dev.updHealth_health (d : Dev) (u : Nat) (f : HealthRec → HealthRec) : (d.updHealth u f).health = d.health.set u (f (d.health.get u)) := rfl
@[simp] theorem Dev.updHealth_errQ (d : Dev) (u : Nat) (f : HealthRec → HealthRec) : (d.updHealth u f).errQ = d.errQ := rfl
@[simp] theorem Dev.updHealth_errDropped (d : Dev) (u : Nat) (f : HealthRec → HealthRec) : (d.updHealth u f).errDropped = d.errDropped := rfl
@[simp] theorem Dev.updHealth_errSeq (d : Dev) (u : Nat) (f : HealthRec → HealthRec) : (d.updHealth u f).errSeq = d.errSeq := rfl
@[simp] theorem Dev.updHealth_memErr (d : Dev) (u : Nat) (f : HealthRec → HealthRec) : (d.updHealth u f).memErr = d.memErr := rfl
@[simp] theorem Dev.updHealth_settings (d : Dev) (u : Nat) (f : HealthRec → HealthRec) : (d.updHealth u f).settings = d.settings := rfl
@[simp] theorem Dev.updHealth_moduleFault (d : Dev) (u : Nat) (f : HealthRec → HealthRec) : (d.updHealth u f).moduleFault = d.moduleFault := rfl
@[simp] theorem Dev.updHealth_faultN (d : Dev) (u : Nat) (f : HealthRec → HealthRec) : (d.updHealth u f).faultN = d.faultN := rfl
@[simp] theorem Dev.updHealth_norms (d : Dev) (u : Nat) (f : HealthRec → HealthRec) : (d.updHealth u f).norms = d.norms := rfl
@[simp] theorem Dev.updHealth_clip (d : Dev) (u : Nat) (f : HealthRec → HealthRec) : (d.updHealth u f).clip = d.clip := rfl
@[simp] theorem Dev.updHealth_wn (d : Dev) (u : Nat) (f : HealthRec → HealthRec) : (d.updHealth u f).wn = d.wn := rfl
@[simp] theorem Dev.updHealth_un (d : Dev) (u : Nat) (f : HealthRec → HealthRec) : (d.updHealth u f).un = d.un := rfl
@[simp] theorem Dev.updHealth_stepBase (d : Dev) (u : Nat) (f : HealthRec → HealthRec) : (d.updHealth u f).stepBase = d.stepBase := rfl
@[simp] theorem Dev.updHealth_stepWrites (d : Dev) (u : Nat) (f : HealthRec → HealthRec) : (d.updHealth u f).stepWrites = d.stepWrites := rfl
@[simp] theorem Dev.updHealth_stepFold (d : Dev) (u : Nat) (f : HealthRec → HealthRec) : (d.updHealth u f).stepFold = d.stepFold := rfl
@[simp] theorem Dev.updHealth_stepRef (d : Dev) (u : Nat) (f : HealthRec → HealthRec) : (d.updHealth u f).stepRef = d.stepRef := rfl
@[simp] theorem Dev.updHealth_restrict (d : Dev) (u : Nat) (f : HealthRec → HealthRec) : (d.updHealth u f).restrict = d.restrict := rfl
@[simp] theorem Dev.updHealth_ownMsgs (d : Dev) (u : Nat) (f : HealthRec → HealthRec) : (d.updHealth u f).ownMsgs = d.ownMsgs := rfl
@[simp] theorem Dev.updHealth_time (d : Dev) (u : Nat) (f : HealthRec → HealthRec) : (d.updHealth u f).time = d.time := rfl
@[simp] theorem Dev.updHealth_poweredMin (d : Dev) (u : Nat) (f : HealthRec → HealthRec) : (d.updHealth u f).poweredMin = d.poweredMin := rfl
@[simp] theorem Dev.updHealth_free (d : Dev) (u : Nat) (f : HealthRec → HealthRec) : (d.updHealth u f).free = d.free := rfl

/-! ### Dev.sendSignal -/

@[simp] theorem Dev.sendSignal_ms (d : Dev) (g : SigFlight) : (d.sendSignal g).ms = d.ms := rfl
@[simp] theorem Dev.sendSignal_lcs (d : Dev) (g : SigFlight) : (d.sendSignal g).lcs = d.lcs := rfl
@[simp] theorem Dev.sendSignal_cores (d : Dev) (g : SigFlight) : (d.sendSignal g).cores = d.cores := rfl
@[simp] theorem Dev.sendSignal_comas (d : Dev) (g : SigFlight) : (d.sendSignal g).comas = d.comas := rfl
@[simp] theorem Dev.sendSignal_comaOrd (d : Dev) (g : SigFlight) : (d.sendSignal g).comaOrd = d.comaOrd := rfl
@[simp] theorem Dev.sendSignal_dies (d : Dev) (g : SigFlight) : (d.sendSignal g).dies = d.dies := rfl
@[simp] theorem Dev.sendSignal_segs (d : Dev) (g : SigFlight) : (d.sendSignal g).segs = d.segs := rfl
@[simp] theorem Dev.sendSignal_ownerTag (d : Dev) (g : SigFlight) : (d.sendSignal g).ownerTag = d.ownerTag := rfl
@[simp] theorem Dev.sendSignal_segFaults (d : Dev) (g : SigFlight) : (d.sendSignal g).segFaults = d.segFaults := rfl
@[simp] theorem Dev.sendSignal_plan (d : Dev) (g : SigFlight) : (d.sendSignal g).plan = d.plan := rfl
@[simp] theorem Dev.sendSignal_signals (d : Dev) (g : SigFlight) : (d.sendSignal g).signals = d.signals ++ [g] := rfl
@[simp] theorem Dev.sendSignal_streamSems (d : Dev) (g : SigFlight) : (d.sendSignal g).streamSems = d.streamSems := rfl
@[simp] theorem Dev.sendSignal_lateSignals (d : Dev) (g : SigFlight) : (d.sendSignal g).lateSignals = d.lateSignals := rfl
@[simp] theorem Dev.sendSignal_msuPlan (d : Dev) (g : SigFlight) : (d.sendSignal g).msuPlan = d.msuPlan := rfl
@[simp] theorem Dev.sendSignal_msus (d : Dev) (g : SigFlight) : (d.sendSignal g).msus = d.msus := rfl
@[simp] theorem Dev.sendSignal_ilKey (d : Dev) (g : SigFlight) : (d.sendSignal g).ilKey = d.ilKey := rfl
@[simp] theorem Dev.sendSignal_accesses (d : Dev) (g : SigFlight) : (d.sendSignal g).accesses = d.accesses := rfl
@[simp] theorem Dev.sendSignal_runs (d : Dev) (g : SigFlight) : (d.sendSignal g).runs = d.runs := rfl
@[simp] theorem Dev.sendSignal_health (d : Dev) (g : SigFlight) : (d.sendSignal g).health = d.health := rfl
@[simp] theorem Dev.sendSignal_errQ (d : Dev) (g : SigFlight) : (d.sendSignal g).errQ = d.errQ := rfl
@[simp] theorem Dev.sendSignal_errDropped (d : Dev) (g : SigFlight) : (d.sendSignal g).errDropped = d.errDropped := rfl
@[simp] theorem Dev.sendSignal_errSeq (d : Dev) (g : SigFlight) : (d.sendSignal g).errSeq = d.errSeq := rfl
@[simp] theorem Dev.sendSignal_memErr (d : Dev) (g : SigFlight) : (d.sendSignal g).memErr = d.memErr := rfl
@[simp] theorem Dev.sendSignal_settings (d : Dev) (g : SigFlight) : (d.sendSignal g).settings = d.settings := rfl
@[simp] theorem Dev.sendSignal_moduleFault (d : Dev) (g : SigFlight) : (d.sendSignal g).moduleFault = d.moduleFault := rfl
@[simp] theorem Dev.sendSignal_faultN (d : Dev) (g : SigFlight) : (d.sendSignal g).faultN = d.faultN := rfl
@[simp] theorem Dev.sendSignal_norms (d : Dev) (g : SigFlight) : (d.sendSignal g).norms = d.norms := rfl
@[simp] theorem Dev.sendSignal_clip (d : Dev) (g : SigFlight) : (d.sendSignal g).clip = d.clip := rfl
@[simp] theorem Dev.sendSignal_wn (d : Dev) (g : SigFlight) : (d.sendSignal g).wn = d.wn := rfl
@[simp] theorem Dev.sendSignal_un (d : Dev) (g : SigFlight) : (d.sendSignal g).un = d.un := rfl
@[simp] theorem Dev.sendSignal_stepBase (d : Dev) (g : SigFlight) : (d.sendSignal g).stepBase = d.stepBase := rfl
@[simp] theorem Dev.sendSignal_stepWrites (d : Dev) (g : SigFlight) : (d.sendSignal g).stepWrites = d.stepWrites := rfl
@[simp] theorem Dev.sendSignal_stepFold (d : Dev) (g : SigFlight) : (d.sendSignal g).stepFold = d.stepFold := rfl
@[simp] theorem Dev.sendSignal_stepRef (d : Dev) (g : SigFlight) : (d.sendSignal g).stepRef = d.stepRef := rfl
@[simp] theorem Dev.sendSignal_restrict (d : Dev) (g : SigFlight) : (d.sendSignal g).restrict = d.restrict := rfl
@[simp] theorem Dev.sendSignal_ownMsgs (d : Dev) (g : SigFlight) : (d.sendSignal g).ownMsgs = d.ownMsgs := rfl
@[simp] theorem Dev.sendSignal_time (d : Dev) (g : SigFlight) : (d.sendSignal g).time = d.time := rfl
@[simp] theorem Dev.sendSignal_poweredMin (d : Dev) (g : SigFlight) : (d.sendSignal g).poweredMin = d.poweredMin := rfl
@[simp] theorem Dev.sendSignal_free (d : Dev) (g : SigFlight) : (d.sendSignal g).free = d.free := rfl

end Sys2Proof.Machine
end

