-- ==== Sys2Proof/Laws/Issue.lean ====
section
/-! SUPPORT. What the issue of an instruction does once nothing holds it back. -/
namespace Sys2Proof.Machine

/-- The core of a runner is occupied by it, and the runner runs. -/
theorem runner_spec {d : Dev} {core n : Nat} (h : d.runner core = some n) :
    (d.core core).occupied = true ∧ (d.core core).fenced = false ∧ (d.core core).retired = false ∧ (d.core core).lc = n
      ∧ (d.lc n).phase = .running := by
  unfold Dev.runner at h
  dsimp only at h
  split at h
  · next hc =>
    simp only [Bool.and_eq_true, Bool.not_eq_true', beq_iff_eq] at hc
    cases h
    exact ⟨hc.1.1.1, hc.1.1.2, hc.1.2, rfl, hc.2⟩
  · cases h

/-- On a core whose logical core runs, nothing follows. -/
theorem settle_running {d : Dev} {core : Nat} (ho : (d.core core).occupied = true) (hp : (d.lc (d.core core).lc).phase = .running) :
    d.settle core = d := by
  unfold Dev.settle
  simp [ho, hp]

/-- An instruction that nothing holds back is counted, runs, has its flow tested where it goes on, and the core settles. -/
theorem issue_run {d : Dev} {core n : Nat} {w : IWord} {regs ctl : List Nat} (h : d.CanIssue core n w regs ctl) {wait : Bool}
    (hw : wait = false) (late : Bool) (run : Dev → Issuer → Dev) :
    d.issue core w regs ctl wait late run =
      (let d' := run (d.setLc n (d.lc n).counted) ((d.lc n).issuer n)
       let l := d'.lc n
       let goes := l.orbit == (d.lc n).orbit && (match l.phase with
         | .running => !(late && wCond w != 0)
         | .waiting _ _ => true
         | .yielded => true
         | _ => false)
       (if goes then d'.testFlow n w else d').settle core) := by
  have hc : ((ctl ++ (flowRegs w).filter (fun r => !(wDsts w).contains r)).any (fun r => (d.lc n).sPoison.get r)) = false := by
    rw [List.any_eq_false]
    intro r hr
    rw [h.clean r hr]
    decide
  unfold Dev.issue
  rw [h.runner]
  dsimp only
  rw [h.free, hw, h.word]
  simp only [Bool.or_self, Bool.false_eq_true, if_false, Dev.fetched, h.once]
  rw [hc]
  rfl

/-- A flow whose registers are clean moves the program counter. -/
theorem testFlow_clean {d : Dev} {n : Nat} {w : IWord} (h : ∀ r ∈ flowRegs w, (d.lc n).sPoison.get r = false) :
    d.testFlow n w = d.updLc n (fun l => l.flow w) := by
  have : ((flowRegs w).any (fun r => (d.lc n).sPoison.get r)) = false := by
    rw [List.any_eq_false]
    intro r hr
    rw [h r hr]
    decide
  unfold Dev.testFlow
  rw [this]
  rfl

/-- An instruction whose own effect leaves its logical core running in its orbit on its core ends with the program counter
moved by the flow field, and nothing else follows. -/
theorem issue_on {d : Dev} {core n : Nat} {w : IWord} {regs ctl : List Nat} (h : d.CanIssue core n w regs ctl) {wait : Bool}
    (hw : wait = false) {run : Dev → Issuer → Dev} {d' : Dev} (hr : run (d.setLc n (d.lc n).counted) ((d.lc n).issuer n) = d')
    (ho : (d'.core core).occupied = true) (hl : (d'.core core).lc = n) (hp : (d'.lc n).phase = .running)
    (hob : (d'.lc n).orbit = (d.lc n).orbit) (hf : ∀ r ∈ flowRegs w, (d'.lc n).sPoison.get r = false) :
    d.issue core w regs ctl wait false run = d'.setLc n ((d'.lc n).flow w) := by
  rw [issue_run h hw, hr]
  dsimp only
  rw [hp, hob]
  simp only [beq_self_eq_true, Bool.false_and, Bool.not_false, Bool.and_self, if_true]
  rw [testFlow_clean hf]
  apply settle_running
  · exact ho
  · show ((d'.updLc n (fun l => l.flow w)).lc (d'.core core).lc).phase = _
    rw [hl]
    show ((d'.lcs.set n ((d'.lc n).flow w)).get n).phase = _
    rw [Bank.get_set_same]
    exact hp

/-- An instruction whose own effect is a change of the core that leaves its occupation ends so. -/
theorem enqueue_issue {d : Dev} {core n : Nat} {w : IWord} {regs ctl : List Nat} (h : d.CanIssue core n w regs ctl) {wait : Bool}
    (hw : wait = false) {run : Dev → Issuer → Dev} {f : Core → Core}
    (hr : run (d.counting n) ((d.lc n).issuer n) = (d.counting n).updCore core f)
    (hfo : (f (d.core core)).occupied = (d.core core).occupied) (hfl : (f (d.core core)).lc = (d.core core).lc)
    (hd : wDsts w = []) :
    d.issue core w regs ctl wait false run = (d.stepping n w).updCore core f := by
  have hs := runner_spec h.runner
  have hlc : (((d.counting n).updCore core f).lc n) = (d.lc n).counted := by
    show (d.lcs.set n (d.lc n).counted).get n = _
    simp
  have hcr : ((d.counting n).updCore core f).core core = f (d.core core) := by
    show (d.cores.set core (f (d.core core))).get core = _
    simp
  rw [issue_on h hw hr]
  · rw [hlc]
    show Dev.setLc (Dev.updCore (d.setLc n (d.lc n).counted) core f) n _ = Dev.updCore (d.setLc n _) core f
    unfold Dev.setLc Dev.updCore Dev.setCore Dev.core
    simp
  · rw [hcr, hfo]; exact hs.1
  · rw [hcr, hfl]; exact hs.2.2.2.1
  · rw [hlc]; exact hs.2.2.2.2
  · rw [hlc]; rfl
  · rw [hlc]
    intro r hr
    exact h.clean r (by simp [hd, hr])

/-- An instruction that passes its issue checks goes on. -/
theorem checked_ok {d : Dev} {who : Issuer} {core : Nat} {checks : List (Bool × Byte)} {regions : List (View × Bool)} {go : Dev → Dev}
    (h1 : firstFail checks = none) (h2 : issueFault d (.core core) regions = none) : d.checked who core checks regions go = go d := by
  unfold Dev.checked
  rw [h1]
  dsimp only
  rw [h2]

/-- Only a VOP, a MOVE and a TAKE write s registers. -/
theorem wDsts_none {w : IWord} {k : Nat} (h : wOpcode w = k) (h1 : k ≠ 0x10) (h2 : k ≠ 0x20) (h3 : k ≠ 0x50) : wDsts w = [] := by
  unfold wDsts
  rw [h]
  split <;> first | contradiction | rfl

/-- Two changes of the device that agree on it are one change of the state. -/
theorem mapDev_congr {s : State} {f g : Dev → Dev} (h : f s.dev = g s.dev) : s.mapDev f = s.mapDev g := by
  unfold State.mapDev; rw [h]

/-- The later of two writes to a logical core stands. -/
theorem setLc_over {d : Dev} {b : Bank LCore} {n : Nat} {a v : LCore} (h : d.lcs = b.set n a) : d.setLc n v = { d with lcs := b.set n v } := by
  unfold Dev.setLc; rw [h, Bank.set_set]

@[simp] theorem updCore_core (d : Dev) (k : Nat) (f : Core → Core) : (d.updCore k f).core k = f (d.core k) := by
  show (d.cores.set k _).get k = _
  simp

@[simp] theorem updCore_lc (d : Dev) (k n : Nat) (f : Core → Core) : (d.updCore k f).lc n = d.lc n := rfl

@[simp] theorem setLc_lc (d : Dev) (n : Nat) (l : LCore) : (d.setLc n l).lc n = l := by
  show (d.lcs.set n _).get n = _
  simp

@[simp] theorem setLc_core (d : Dev) (n k : Nat) (l : LCore) : (d.setLc n l).core k = d.core k := rfl

theorem counting_lc (d : Dev) (n : Nat) : (d.counting n).lc n = (d.lc n).counted := by
  show (d.lcs.set n _).get n = _
  simp

/-- An instruction whose flow waits for its result, and whose own effect leaves its logical core as it issued: the flow is
tested at once only where there is no condition (R240). -/
theorem enqueue_issue_late {d : Dev} {core n : Nat} {w : IWord} {regs ctl : List Nat} (h : d.CanIssue core n w regs ctl) {wait : Bool}
    (hw : wait = false) {run : Dev → Issuer → Dev} {d' : Dev}
    (hr : run (d.setLc n (d.lc n).counted) ((d.lc n).issuer n) = d')
    (hl : d'.lc n = (d.lc n).counted) (ho : (d'.core core).occupied = true) (hc : (d'.core core).lc = n)
    (hf : ∀ r ∈ flowRegs w, (d.lc n).sPoison.get r = false) :
    d.issue core w regs ctl wait true run = if wCond w = 0 then d'.setLc n ((d.lc n).counted.flow w) else d' := by
  have hs := runner_spec h.runner
  by_cases hz : wCond w = 0
  · rw [if_pos hz]
    rw [issue_run h hw, hr]
    dsimp only
    have hp : (d'.lc n).phase = .running := by rw [hl]; exact hs.2.2.2.2
    rw [hp, hz]
    simp only [hl]
    rw [if_pos (by simp [LCore.counted])]
    rw [testFlow_clean (by rw [hl]; exact hf)]
    rw [settle_running (by exact ho)]
    · show d'.setLc n _ = _
      rw [hl]
    · show ((d'.lcs.set n ((d'.lc n).flow w)).get (d'.core core).lc).phase = _
      rw [hc, Bank.get_set_same]
      exact hp
  · rw [if_neg hz]
    rw [issue_run h hw, hr]
    dsimp only
    have hp : (d'.lc n).phase = .running := by rw [hl]; exact hs.2.2.2.2
    rw [hp]
    have : (!(true && wCond w != 0)) = false := by simp [hz]
    rw [this]
    simp only [Bool.and_false, Bool.false_eq_true, if_false]
    exact settle_running ho (by rw [hc]; exact hp)

theorem counting_phys (d : Dev) (n m : Nat) : ((d.counting n).lc m).phys = (d.lc m).phys := by
  show ((d.lcs.set n _).get m).phys = _
  rw [Bank.get_set]
  split
  · next h => subst h; rfl
  · rfl

end Sys2Proof.Machine
end

