-- ==== Sys2Proof/Laws/Mem.lean ====
section
/-! SUPPORT. The laws of the memory: a read after a write, what a write leaves alone, and that every memory operation keeps
the canonical form. -/
namespace Sys2Proof.Machine

/-! ### Reading after writing -/

@[simp] theorem memGet_set_same (m : Mem) (a : Nat) (v : Byte) : memGet (memSet m a v) a = v := cellGet_set_same _ _ _ _

theorem memGet_set_ne (m : Mem) {a b : Nat} (h : b ≠ a) (v : Byte) : memGet (memSet m a v) b = memGet m b := cellGet_set_ne _ h _ _

theorem memGet_set (m : Mem) (a b : Nat) (v : Byte) : memGet (memSet m a v) b = if b = a then v else memGet m b := by
  by_cases h : b = a
  · subst h; simp
  · simp [h, memGet_set_ne m h]

theorem memGet_clear (m : Mem) (lo hi b : Nat) : memGet (memClear m lo hi) b = if lo ≤ b ∧ b < hi then 0 else memGet m b :=
  cellGet_clear _ _ _ _ _

/-- Bytes outside a stored number keep what they read. -/
theorem memGet_write_outside : ∀ (n : Nat) (m : Mem) (a v b : Nat), (b < a ∨ a + n ≤ b) → memGet (memWrite m a n v) b = memGet m b
  | 0, _, _, _, _, _ => rfl
  | n + 1, m, a, v, b, h => by
    unfold memWrite
    rw [memGet_write_outside n _ _ _ _ (by omega), memGet_set_ne _ (by omega)]

/-- A stored number reads back, modulo its size. -/
theorem memRead_write : ∀ (n : Nat) (m : Mem) (a v : Nat), memRead (memWrite m a n v) a n = v % 256 ^ n
  | 0, _, _, v => by simp [memRead, Nat.mod_one]
  | n + 1, m, a, v => by
    unfold memRead memWrite
    rw [memGet_write_outside n _ _ _ _ (by omega), memGet_set_same, memRead_write n, Nat.pow_succ', Nat.mod_mul]
    simp

theorem memGet_writeList_outside : ∀ (l : List Byte) (m : Mem) (a b : Nat), (b < a ∨ a + l.length ≤ b) →
    memGet (memWriteList m a l) b = memGet m b
  | [], _, _, _, _ => rfl
  | x :: r, m, a, b, h => by
    simp only [List.length_cons] at h
    unfold memWriteList
    rw [memGet_writeList_outside r _ _ _ (by omega), memGet_set_ne _ (by omega)]

theorem memReadList_writeList : ∀ (l : List Byte) (m : Mem) (a : Nat), memReadList (memWriteList m a l) a l.length = l
  | [], _, _ => rfl
  | x :: r, m, a => by
    simp only [List.length_cons, memReadList, memWriteList]
    rw [memGet_writeList_outside r _ _ _ (by omega), memGet_set_same, memReadList_writeList r]

/-- A write of masked bytes leaves every other address alone. -/
theorem memGet_applyWrites_outside : ∀ (l : List WItem) (m : Mem) (b : Nat), (∀ w ∈ l, w.addr ≠ b) →
    memGet (applyWrites m l) b = memGet m b
  | [], _, _, _ => rfl
  | w :: r, m, b, h => by
    unfold applyWrites
    rw [memGet_applyWrites_outside r _ b (fun x hx => h x (List.mem_cons_of_mem _ hx)),
      memGet_set_ne _ (fun e => h w (List.mem_cons_self ..) e.symm)]

theorem wBytes_addr : ∀ (n a v : Nat), ∀ w ∈ wBytes a n v, a ≤ w.addr ∧ w.addr < a + n
  | 0, _, _, w, hw => by cases hw
  | n + 1, a, v, w, hw => by
    rcases List.mem_cons.1 hw with rfl | hw
    · exact ⟨Nat.le_refl _, by simp⟩
    · have := wBytes_addr n (a + 1) (v / 256) w hw; omega

/-- The whole bytes of a number, written as masked bytes, are the number stored. -/
theorem applyWrites_wBytes : ∀ (n : Nat) (m : Mem) (a v : Nat), applyWrites m (wBytes a n v) = memWrite m a n v
  | 0, _, _, _ => rfl
  | n + 1, m, a, v => by
    unfold wBytes applyWrites memWrite
    rw [applyWrites_wBytes n]
    congr 2
    show (memGet m a &&& ~~~(0xFF : Byte)) ||| (BitVec.ofNat 8 v &&& 0xFF) = BitVec.ofNat 8 v
    have h1 : ∀ x y : Byte, (x &&& ~~~(0xFF : Byte)) ||| (y &&& 0xFF) = y := by
      intro x y
      have h : ∀ z : Byte, z &&& 0xFF = z := fun z => BitVec.and_allOnes
      rw [h y]
      simp
    exact h1 _ _

/-! ### The canonical form -/

theorem memSet_wf {m : Mem} (a : Nat) (v : Byte) (h : Memory.wf m = true) : Memory.wf (memSet m a v) = true := cellsWf_set _ _ _ _ h

theorem memClear_wf {m : Mem} (lo hi : Nat) (h : Memory.wf m = true) : Memory.wf (memClear m lo hi) = true := cellsWf_clear _ _ _ _ _ h

theorem memWrite_wf : ∀ (n : Nat) {m : Mem} (a v : Nat), Memory.wf m = true → Memory.wf (memWrite m a n v) = true
  | 0, _, _, _, h => h
  | n + 1, _, a, v, h => memWrite_wf n _ _ (memSet_wf a _ h)

theorem memWriteList_wf : ∀ (l : List Byte) {m : Mem} (a : Nat), Memory.wf m = true → Memory.wf (memWriteList m a l) = true
  | [], _, _, h => h
  | _ :: r, _, a, h => memWriteList_wf r _ (memSet_wf a _ h)

theorem memCopy_wf {m : Mem} (src dst n : Nat) (h : Memory.wf m = true) : Memory.wf (memCopy m src dst n) = true := memWriteList_wf _ _ h

theorem memSetBit_wf {m : Mem} (a i : Nat) (b : Bool) (h : Memory.wf m = true) : Memory.wf (memSetBit m a i b) = true := memSet_wf _ _ h

theorem applyWrites_wf : ∀ (l : List WItem) {m : Mem}, Memory.wf m = true → Memory.wf (applyWrites m l) = true
  | [], _, h => h
  | _ :: r, _, h => applyWrites_wf r (memSet_wf _ _ h)

theorem MemSys.write_wf {s : MemSys} (l : List WItem) (p : Bool) (h : Memory.wf s.mem = true) : Memory.wf (s.write l p).mem = true :=
  applyWrites_wf l h

theorem reset_mem_wf : Memory.wf State.reset.dev.ms.mem = true := rfl

/-! ### Writes of the device -/

@[simp] theorem Dev.pushErr_ms (d : Dev) (a b c e f g : Nat) : (d.pushErr a b c e f g).ms = d.ms := by
  unfold Dev.pushErr
  dsimp only
  split <;> rfl

@[simp] theorem Dev.transient_ms (d : Dev) (a b c e : Nat) : (d.transient a b c e).ms = d.ms := Dev.pushErr_ms ..

@[simp] theorem Dev.memEvent_ms (d : Dev) (a b c : Nat) : (d.memEvent a b c).ms = d.ms := by
  unfold Dev.memEvent
  dsimp only
  split <;> simp

@[simp] theorem Dev.readWord_mem (d : Dev) (w : Nat) : (d.readWord w).ms.mem = d.ms.mem := by
  unfold Dev.readWord
  dsimp only
  repeat' split
  all_goals simp [Dev.markPoison, Dev.updMemErr]

theorem foldl_readWord_mem (l : List Nat) : ∀ (d : Dev), (l.foldl Dev.readWord d).ms.mem = d.ms.mem := by
  induction l with
  | nil => intro d; rfl
  | cons w l ih => intro d; rw [List.foldl_cons, ih, Dev.readWord_mem]

theorem foldl_markPoison_mem (l : List Nat) : ∀ (d : Dev), (l.foldl Dev.markPoison d).ms.mem = d.ms.mem := by
  induction l with
  | nil => intro d; rfl
  | cons w l ih => intro d; rw [List.foldl_cons, ih]; rfl

/-- A write of the device stores its bytes and nothing else. -/
theorem Dev.write_mem (d : Dev) (l : List WItem) (p : Bool) : (d.write l p).ms.mem = applyWrites d.ms.mem l := by
  unfold Dev.write
  dsimp only
  rw [foldl_markPoison_mem]
  show applyWrites _ l = _
  rw [foldl_readWord_mem]
  rfl

/-- A read of the device stores nothing. -/
theorem Dev.touch_mem (d : Dev) (l : List Nat) : (d.touch l).1.ms.mem = d.ms.mem := by
  unfold Dev.touch
  dsimp only
  rw [foldl_readWord_mem]
  rfl

theorem Dev.write_outside (d : Dev) (l : List WItem) (p : Bool) (b : Nat) (h : ∀ w ∈ l, w.addr ≠ b) :
    memGet (d.write l p).ms.mem b = memGet d.ms.mem b := by
  rw [Dev.write_mem]; exact memGet_applyWrites_outside l _ b h

theorem Dev.write_wf {d : Dev} (l : List WItem) (p : Bool) (h : Memory.wf d.ms.mem = true) : Memory.wf (d.write l p).ms.mem = true := by
  rw [Dev.write_mem]; exact applyWrites_wf l h

/-! ### What a read of the device leaves alone -/

@[simp] theorem Dev.pushErr_lcs (d : Dev) (a b c e f g : Nat) : (d.pushErr a b c e f g).lcs = d.lcs := by
  unfold Dev.pushErr
  dsimp only
  split <;> rfl

@[simp] theorem Dev.pushErr_cores (d : Dev) (a b c e f g : Nat) : (d.pushErr a b c e f g).cores = d.cores := by
  unfold Dev.pushErr
  dsimp only
  split <;> rfl

@[simp] theorem Dev.memEvent_lcs (d : Dev) (a b c : Nat) : (d.memEvent a b c).lcs = d.lcs := by
  unfold Dev.memEvent
  dsimp only
  split <;> simp

@[simp] theorem Dev.memEvent_cores (d : Dev) (a b c : Nat) : (d.memEvent a b c).cores = d.cores := by
  unfold Dev.memEvent
  dsimp only
  split <;> simp

@[simp] theorem Dev.transient_lcs (d : Dev) (a b c e : Nat) : (d.transient a b c e).lcs = d.lcs := Dev.pushErr_lcs ..

@[simp] theorem Dev.transient_cores (d : Dev) (a b c e : Nat) : (d.transient a b c e).cores = d.cores := Dev.pushErr_cores ..

@[simp] theorem Dev.readWord_lcs (d : Dev) (w : Nat) : (d.readWord w).lcs = d.lcs := by
  unfold Dev.readWord
  dsimp only
  repeat' split
  all_goals simp [Dev.markPoison, Dev.updMemErr]

@[simp] theorem Dev.readWord_flips (d : Dev) (w : Nat) :
    (d.readWord w).ms.flip1 = d.ms.flip1 ∧ (d.readWord w).ms.flip2 = d.ms.flip2 := by
  unfold Dev.readWord
  dsimp only
  repeat' split
  all_goals simp [Dev.markPoison, Dev.updMemErr]

/-- A core keeps who runs on it. -/
theorem updCore_run (d : Dev) (k n : Nat) (f : Core → Core) (h : ∀ c, (f c).occupied = c.occupied ∧ (f c).lc = c.lc) :
    ((d.updCore k f).core n).occupied = (d.core n).occupied ∧ ((d.updCore k f).core n).lc = (d.core n).lc := by
  show ((d.cores.set k _).get n).occupied = _ ∧ ((d.cores.set k _).get n).lc = _
  rw [Bank.get_set]
  split
  · next e => subst e; exact h _
  · exact ⟨rfl, rfl⟩

theorem updCore_proj {α : Type} (p : Core → α) (d : Dev) (k n : Nat) (f : Core → Core) (h : ∀ c, p (f c) = p c) :
    p ((d.updCore k f).core n) = p (d.core n) := by
  show p ((d.cores.set k _).get n) = _
  rw [Bank.get_set]
  split
  · next e => subst e; exact h _
  · rfl

/-- Reading a word changes nothing of a core but its counts of corrected and uncorrectable words and its record of checks. -/
theorem Dev.readWord_proj {α : Type} (p : Core → α)
    (h1 : ∀ (c : Core) (v : Nat) (i : Nat), p (({ c with eccUncorr := v } : Core).noteCheck 0xA i).notePassed = p c)
    (h2 : ∀ (c : Core) (v : Nat), p ({ c with eccCorr := v } : Core) = p c) (d : Dev) (w n : Nat) :
    p ((d.readWord w).core n) = p (d.core n) := by
  unfold Dev.readWord
  dsimp only
  split
  · split
    · unfold Dev.core
      rw [Dev.transient_cores]
      exact updCore_proj p (d.markPoison w) (w / spSize) n _ (fun c => h1 c _ _)
    · split
      · exact updCore_proj p d _ n _ (fun c => h2 c _)
      · rfl
  · unfold Dev.core
    repeat' split
    all_goals first | rfl | (rw [Dev.memEvent_cores]; rfl)

theorem Dev.readWord_run (d : Dev) (w n : Nat) :
    ((d.readWord w).core n).occupied = (d.core n).occupied ∧ ((d.readWord w).core n).lc = (d.core n).lc :=
  ⟨Dev.readWord_proj (·.occupied) (fun _ _ _ => rfl) (fun _ _ => rfl) d w n, Dev.readWord_proj (·.lc) (fun _ _ _ => rfl) (fun _ _ => rfl) d w n⟩

/-- A write changes nothing of a core but its counts of corrected and uncorrectable words and its record of checks. -/
theorem Dev.write_proj {α : Type} (p : Core → α)
    (h1 : ∀ (c : Core) (v : Nat) (i : Nat), p (({ c with eccUncorr := v } : Core).noteCheck 0xA i).notePassed = p c)
    (h2 : ∀ (c : Core) (v : Nat), p ({ c with eccCorr := v } : Core) = p c) (d : Dev) (l : List WItem) (q : Bool) (n : Nat) :
    p ((d.write l q).core n) = p (d.core n) := by
  have fold : ∀ (ws : List Nat) (d : Dev), p ((ws.foldl Dev.readWord d).core n) = p (d.core n) := by
    intro ws
    induction ws with
    | nil => intro d; rfl
    | cons w ws ih => intro d; rw [List.foldl_cons, ih, Dev.readWord_proj p h1 h2]
  have mark : ∀ (ws : List Nat) (d : Dev), (ws.foldl Dev.markPoison d).cores = d.cores := by
    intro ws
    induction ws with
    | nil => intro d; rfl
    | cons w ws ih => intro d; rw [List.foldl_cons, ih]; rfl
  unfold Dev.write
  dsimp only
  unfold Dev.core at fold ⊢
  rw [mark]
  exact fold _ _

/-! ### Reads and writes of bytes leave the segment tables, the plan and the owner tag alone -/

/-- What the address checks look at. -/
def Dev.checks (d : Dev) : Bank (BitVec 128) × Plan × Byte := (d.segs, d.plan, d.ownerTag)

@[simp] theorem Dev.pushErr_checks (d : Dev) (a b c e f g : Nat) : (d.pushErr a b c e f g).checks = d.checks := by
  unfold Dev.pushErr
  dsimp only
  split <;> rfl

@[simp] theorem Dev.memEvent_checks (d : Dev) (a b c : Nat) : (d.memEvent a b c).checks = d.checks := by
  unfold Dev.memEvent
  dsimp only
  split
  · rw [Dev.pushErr_checks, Dev.pushErr_checks]; rfl
  · rw [Dev.pushErr_checks]; rfl

@[simp] theorem Dev.transient_checks (d : Dev) (a b c e : Nat) : (d.transient a b c e).checks = d.checks :=
  (Dev.pushErr_checks ..).trans rfl

@[simp] theorem Dev.updCore_checks (d : Dev) (k : Nat) (f : Core → Core) : (d.updCore k f).checks = d.checks := rfl
@[simp] theorem Dev.markPoison_checks (d : Dev) (a : Nat) : (d.markPoison a).checks = d.checks := rfl
@[simp] theorem Dev.updMemErr_checks (d : Dev) (k : Nat) (f : MemErr → MemErr) : (d.updMemErr k f).checks = d.checks := rfl

@[simp] theorem Dev.readWord_checks (d : Dev) (w : Nat) : (d.readWord w).checks = d.checks := by
  unfold Dev.readWord
  dsimp only
  repeat' split
  all_goals simp

theorem foldl_readWord_checks (l : List Nat) : ∀ (d : Dev), (l.foldl Dev.readWord d).checks = d.checks := by
  induction l with
  | nil => intro d; rfl
  | cons w l ih => intro d; rw [List.foldl_cons, ih, Dev.readWord_checks]

theorem foldl_markPoison_checks (l : List Nat) : ∀ (d : Dev), (l.foldl Dev.markPoison d).checks = d.checks := by
  induction l with
  | nil => intro d; rfl
  | cons w l ih => intro d; rw [List.foldl_cons, ih]; rfl

@[simp] theorem Dev.touch_checks (d : Dev) (l : List Nat) : (d.touch l).1.checks = d.checks := by
  unfold Dev.touch
  dsimp only
  rw [foldl_readWord_checks]
  rfl

@[simp] theorem Dev.write_checks (d : Dev) (l : List WItem) (p : Bool) : (d.write l p).checks = d.checks := by
  unfold Dev.write
  dsimp only
  rw [foldl_markPoison_checks]
  refine Eq.trans (b := Dev.checks (List.foldl Dev.readWord _ _)) rfl ?_
  rw [foldl_readWord_checks]
  rfl

/-- The address checks look at the segment tables, the plan and the owner tag alone. -/
theorem segCheck_congr {a b : Dev} (h : a.checks = b.checks) (q : Req) (g : Nat) (r w : Bool) (o : Int) (n : Nat) :
    segCheck a q g r w o n = segCheck b q g r w o n := by
  unfold Dev.checks at h
  simp only [Prod.mk.injEq] at h
  unfold segCheck segCheckBase
  rw [h.1, h.2.2]

theorem checkRuns_congr {a b : Dev} (h : a.checks = b.checks) (q : Req) (r w : Bool) (l : List (Nat × Int × Nat)) :
    checkRuns a q r w l = checkRuns b q r w l := by
  induction l with
  | nil => rfl
  | cons x l ih => unfold checkRuns; rw [segCheck_congr h, ih]

theorem viewRuns_congr {a b : Dev} (h : a.checks = b.checks) (v : View) : viewRuns a v = viewRuns b v := by
  unfold Dev.checks at h
  simp only [Prod.mk.injEq] at h
  unfold viewRuns
  rw [h.2.1]

theorem viewFault_congr {a b : Dev} (h : a.checks = b.checks) (q : Req) (v : View) (w : Bool) : viewFault a q v w = viewFault b q v w := by
  unfold viewFault
  rw [viewRuns_congr h, checkRuns_congr h]

theorem rowFault_congr {a b : Dev} (h : a.checks = b.checks) (q : Req) (v : View) (w : Bool) (i : Nat) :
    rowFault a q v w i = rowFault b q v w i := by
  unfold rowFault rowRuns
  simp only [viewRuns_congr h]
  rw [checkRuns_congr h]

theorem regionFault_congr {a b : Dev} (h : a.checks = b.checks) (q : Req) (v : View) (w : Bool) (o n : Nat) :
    regionFault a q v w o n = regionFault b q v w o n := by
  unfold regionFault
  rw [segCheck_congr h]

end Sys2Proof.Machine
end

