-- ==== Sys2Proof/WellFormed.lean ====
section
/-! DEFINITION. Which terms of Instr are commands that the spec lets be sent: the encodings of Tables 8-2 to 8-18 and 17-1,
units and table entries that exist. `exec` has a meaning for the others as well: the spec refuses or stops them by status. -/
namespace Sys2Proof
open Sys2Proof.Machine

/-- The flow fields obey R239, as far as one word shows it. -/
def flowWf (w : IWord) : Bool :=
  (wCond w != 0 || (wFreg w == 0 && wTarget w == 0)) && (wCond w != 1 || wFreg w == 0)
    && ((wCond w != 6 && wCond w != 7) || wFreg w != 63) && (wOpcode w != opHalt || wCond w == 0)

/-- A core instruction word: a listed OPCODE, no reserved bit, flow fields and completion signal as the spec has them (R237,
R239, R279). -/
def wordWf (w : IWord) : Bool :=
  knownOp (wOpcode w) && !reservedSet w && flowWf w && (wOpcode w != opSignal || !signalBad w)

/-- A host command entry: a listed OPCODE, no reserved bit, parameters in their ranges (R520, R521). -/
def entryWf (e : Entry64) : Bool := hostOps.contains (eOp e) && eReservedZero e && eInRange e

/-- A frame header: FRAME, NAK and CREDITS fit their fields (Table 13-2). -/
def headerWf (h : FrameHeader) : Bool :=
  decide (h.frame < 2 ^ 24) && decide (h.credits < 1024) && (match h.nak with
    | some n => decide (n < 2 ^ 24)
    | none => true)

/-- A command the spec lets be sent. -/
def Instr.wf : Instr → Bool
  | .wload _ w => wordWf w && wOpcode w == opWload
  | .shadowSetValid _ => true
  | .wswap _ w => wordWf w && wOpcode w == opWswap
  | .weightSetExchange _ => true
  | .stream _ w => wordWf w && wOpcode w == opStream
  | .arrayStep _ => true
  | .mergeDelivery _ => true
  | .windowDrain _ _ => true
  | .checkRepeat unit _ => unitExists unit.toNat
  | .streamComplete _ => true
  | .drain _ w => wordWf w && wOpcode w == opDrain
  | .vopVector _ w _ => wordWf w && (wOpcode w == opVop && !vpScalar w)
  | .vopScalar _ w => wordWf w && (wOpcode w == opVop && vpScalar w)
  | .move _ w => wordWf w && (wOpcode w == opMove && !mvToSreg w)
  | .moveToSreg _ w => wordWf w && (wOpcode w == opMove && mvToSreg w)
  | .mcast _ w => wordWf w && wOpcode w == opMcast
  | .mcastMemberDelivery _ _ => true
  | .dmake _ w => wordWf w && wOpcode w == opDmake
  | .gather _ w => wordWf w && wOpcode w == opGather
  | .scatter _ w => wordWf w && wOpcode w == opScatter
  | .merge _ w => wordWf w && wOpcode w == opMerge
  | .take _ w => wordWf w && wOpcode w == opTake
  | .takeResult _ => true
  | .signal _ w => wordWf w && wOpcode w == opSignal
  | .signalArrival _ => true
  | .wait _ w => wordWf w && wOpcode w == opWait
  | .fence _ w => wordWf w && wOpcode w == opFence
  | .checkArray _ w => wordWf w && (wOpcode w == opCheck && ckUnit w == 0)
  | .checkRegion _ w => wordWf w && (wOpcode w == opCheck && ckUnit w == 1)
  | .checkImem _ w => wordWf w && (wOpcode w == opCheck && ckUnit w == 2)
  | .ctxsaveYield _ w => wordWf w && (wOpcode w == opCtxsave && !cxAreaEn w)
  | .ctxsaveArea _ w => wordWf w && (wOpcode w == opCtxsave && cxAreaEn w)
  | .ctxrestore _ w => wordWf w && wOpcode w == opCtxrestore
  | .halt _ w => wordWf w && wOpcode w == opHalt
  | .counterBankReload _ _ => true
  | .gatherRows _ _ => true
  | .gatherSeq _ _ => true
  | .gatherCols _ _ => true
  | .route _ _ => true
  | .seqload _ _ => true
  | .scatterRows _ _ => true
  | .scatterSlot _ _ => true
  | .scatterCols _ _ => true
  | .mergeBind _ _ => true
  | .mergeUnbind _ _ => true
  | .slotsum _ _ => true
  | .audit _ _ => true
  | .auditClose _ _ => true
  | .msuListStart _ _ => true
  | .update _ _ => true
  | .updateVec _ _ => true
  | .smul _ _ => true
  | .updatePass2 _ _ => true
  | .normDeadline => true
  | .orbitStart => true
  | .orbitEnd => true
  | .orbitCompletion => true
  | .linkTick _ => true
  | .sendStart _ entry => decide (entry < 65536)
  | .dataFrame _ hdr _ => headerWf hdr
  | .trailerFrame _ hdr _ => headerWf hdr
  | .retryFrame _ hdr _ => headerWf hdr
  | .beDataFrame _ hdr _ => headerWf hdr
  | .beTrailerFrame _ hdr _ => headerWf hdr
  | .transferMissed _ entry => decide (entry < 65536)
  | .regionRelease _ entry => decide (entry < 65536)
  | .controlSlot => true
  | .timeMarker _ _ => true
  | .timeHoldover => true
  | .timeLost => true
  | .linkUp _ _ => true
  | .linkTrainingFail _ => true
  | .linkDown _ => true
  | .keyx _ _ => true
  | .vote _ _ => true
  | .void _ _ => true
  | .retract _ _ => true
  | .commit _ _ => true
  | .bucketStage bucket => decide (bucket < 4096)
  | .encodeCompare bucket _ _ _ => decide (bucket < 4096)
  | .contribReceive _ entry => decide (entry < 65536)
  | .correctReceive _ entry => decide (entry < 65536)
  | .reducedReceive _ entry => decide (entry < 65536)
  | .normRecordReceive _ entry => decide (entry < 65536)
  | .bucketFinalise bucket _ => decide (bucket < 4096)
  | .voteTick => true
  | .voteClose => true
  | .coreWatchdog _ => true
  | .comaWatchdog _ _ => true
  | .msuWatchdog _ _ => true
  | .cpWatchdog _ => true
  | .cpHeartbeat _ => true
  | .halfHeartbeat _ => true
  | .separation => true
  | .domainDrainEnd _ _ => true
  | .domainResetComplete _ => true
  | .escalation => true
  | .hotWindow _ => true
  | .healthWindowExpiry unit => unitExists unit.toNat
  | .healthFlush => true
  | .errorRecordDelivery _ => true
  | .openKey _ _ _ e => entryWf e && eOp e == opOpen
  | .openSecret _ _ _ e => entryWf e && eOp e == opOpen
  | .claim _ _ _ e => entryWf e && eOp e == opOpen
  | .close _ _ _ e => entryWf e && eOp e == opOpen
  | .rotate _ _ _ e => entryWf e && eOp e == opOpen
  | .release _ _ _ e => entryWf e && eOp e == opOpen
  | .loadPlan _ _ _ e => entryWf e && eOp e == opLoad
  | .startOrbits _ _ _ e => entryWf e && eOp e == opStart
  | .writeStepSize _ _ _ e => entryWf e && eOp e == opStep
  | .memTransferWrite _ _ _ e => entryWf e && (eOp e == opMem && !eRead e)
  | .memTransferRead _ _ _ e => entryWf e && (eOp e == opMem && eRead e)
  | .queryIdentity _ _ _ e => entryWf e && (eOp e == opQuery && eItem e == 0x00)
  | .querySpdm _ _ _ e => entryWf e && (eOp e == opQuery && eItem e == 0x01)
  | .queryState _ _ _ e => entryWf e && (eOp e == opQuery && eItem e == 0x10)
  | .queryRegisters _ _ _ e => entryWf e && (eOp e == opQuery && eItem e == 0x11)
  | .queryHealth _ _ _ e => entryWf e && (eOp e == opQuery && eItem e == 0x12)
  | .queryErrors _ _ _ e => entryWf e && (eOp e == opQuery && eItem e == 0x13)
  | .resetDomain _ _ _ e => entryWf e && eOp e == opReset
  | .enterUmbra _ _ _ e => entryWf e && eOp e == opEnter
  | .leaveUmbra _ _ _ e => entryWf e && eOp e == opLeave
  | .sqDoorbell _ _ _ _ => true
  | .cqHeadWrite _ _ _ => true
  | .queueEnable _ _ _ _ _ => true
  | .completionRecord _ => true
  | .efmusPortUp _ => true
  | .efmusPortDown _ => true
  | .portLinkLost _ => true
  | .resetHoldTimeout _ => true
  | .setCap _ => true
  | .emergencyCap _ => true
  | .setHealth _ _ _ => true
  | .setWatchdog _ _ _ _ => true
  | .unitReturn unit _ => unitExists unit.toNat
  | .debugToken _ => true
  | .debugExpiry => true
  | .wake => true
  | .moduleReset => true
  | .readCrash _ => true
  | .readErrors _ => true
  | .regWrite _ _ _ => true
  | .satCountClear _ => true
  | .hotClear _ => true
  | .segFaultClear _ => true
  | .spdmRequest _ => true
  | .firmwareUpdate _ _ _ => true
  | .inputOn => true
  | .railRelease => true
  | .primaryClaim _ _ => true
  | .secureBoot => true
  | .powerUpReady => true
  | .pwrEnRise => true
  | .powerDown => true
  | .brownOut => true
  | .overvoltage => true
  | .resetInN => true
  | .railCycleDone => true
  | .powerControlTick _ _ _ _ => true
  | .budgetDivide _ _ => true
  | .thermalTrip => true
  | .coolingIdChange _ => true
  | .moveCompletion _ => true
  | .vopCompletion _ => true
  | .idleFrame _ hdr => headerWf hdr
  | .resetInNRise => true
  | .eventAcknowledge => true

/-- The instruction word that a core instruction carries. -/
def Instr.word : Instr → Option IWord
  | .wload _ w => some w
  | .shadowSetValid _ => none
  | .wswap _ w => some w
  | .weightSetExchange _ => none
  | .stream _ w => some w
  | .arrayStep _ => none
  | .mergeDelivery _ => none
  | .windowDrain _ _ => none
  | .checkRepeat _ _ => none
  | .streamComplete _ => none
  | .drain _ w => some w
  | .vopVector _ w _ => some w
  | .vopScalar _ w => some w
  | .move _ w => some w
  | .moveToSreg _ w => some w
  | .mcast _ w => some w
  | .mcastMemberDelivery _ _ => none
  | .dmake _ w => some w
  | .gather _ w => some w
  | .scatter _ w => some w
  | .merge _ w => some w
  | .take _ w => some w
  | .takeResult _ => none
  | .signal _ w => some w
  | .signalArrival _ => none
  | .wait _ w => some w
  | .fence _ w => some w
  | .checkArray _ w => some w
  | .checkRegion _ w => some w
  | .checkImem _ w => some w
  | .ctxsaveYield _ w => some w
  | .ctxsaveArea _ w => some w
  | .ctxrestore _ w => some w
  | .halt _ w => some w
  | .counterBankReload _ _ => none
  | .gatherRows _ _ => none
  | .gatherSeq _ _ => none
  | .gatherCols _ _ => none
  | .route _ _ => none
  | .seqload _ _ => none
  | .scatterRows _ _ => none
  | .scatterSlot _ _ => none
  | .scatterCols _ _ => none
  | .mergeBind _ _ => none
  | .mergeUnbind _ _ => none
  | .slotsum _ _ => none
  | .audit _ _ => none
  | .auditClose _ _ => none
  | .msuListStart _ _ => none
  | .update _ _ => none
  | .updateVec _ _ => none
  | .smul _ _ => none
  | .updatePass2 _ _ => none
  | .normDeadline => none
  | .orbitStart => none
  | .orbitEnd => none
  | .orbitCompletion => none
  | .linkTick _ => none
  | .sendStart _ _ => none
  | .dataFrame _ _ _ => none
  | .trailerFrame _ _ _ => none
  | .retryFrame _ _ _ => none
  | .beDataFrame _ _ _ => none
  | .beTrailerFrame _ _ _ => none
  | .transferMissed _ _ => none
  | .regionRelease _ _ => none
  | .controlSlot => none
  | .timeMarker _ _ => none
  | .timeHoldover => none
  | .timeLost => none
  | .linkUp _ _ => none
  | .linkTrainingFail _ => none
  | .linkDown _ => none
  | .keyx _ _ => none
  | .vote _ _ => none
  | .void _ _ => none
  | .retract _ _ => none
  | .commit _ _ => none
  | .bucketStage _ => none
  | .encodeCompare _ _ _ _ => none
  | .contribReceive _ _ => none
  | .correctReceive _ _ => none
  | .reducedReceive _ _ => none
  | .normRecordReceive _ _ => none
  | .bucketFinalise _ _ => none
  | .voteTick => none
  | .voteClose => none
  | .coreWatchdog _ => none
  | .comaWatchdog _ _ => none
  | .msuWatchdog _ _ => none
  | .cpWatchdog _ => none
  | .cpHeartbeat _ => none
  | .halfHeartbeat _ => none
  | .separation => none
  | .domainDrainEnd _ _ => none
  | .domainResetComplete _ => none
  | .escalation => none
  | .hotWindow _ => none
  | .healthWindowExpiry _ => none
  | .healthFlush => none
  | .errorRecordDelivery _ => none
  | .openKey _ _ _ _ => none
  | .openSecret _ _ _ _ => none
  | .claim _ _ _ _ => none
  | .close _ _ _ _ => none
  | .rotate _ _ _ _ => none
  | .release _ _ _ _ => none
  | .loadPlan _ _ _ _ => none
  | .startOrbits _ _ _ _ => none
  | .writeStepSize _ _ _ _ => none
  | .memTransferWrite _ _ _ _ => none
  | .memTransferRead _ _ _ _ => none
  | .queryIdentity _ _ _ _ => none
  | .querySpdm _ _ _ _ => none
  | .queryState _ _ _ _ => none
  | .queryRegisters _ _ _ _ => none
  | .queryHealth _ _ _ _ => none
  | .queryErrors _ _ _ _ => none
  | .resetDomain _ _ _ _ => none
  | .enterUmbra _ _ _ _ => none
  | .leaveUmbra _ _ _ _ => none
  | .sqDoorbell _ _ _ _ => none
  | .cqHeadWrite _ _ _ => none
  | .queueEnable _ _ _ _ _ => none
  | .completionRecord _ => none
  | .efmusPortUp _ => none
  | .efmusPortDown _ => none
  | .portLinkLost _ => none
  | .resetHoldTimeout _ => none
  | .setCap _ => none
  | .emergencyCap _ => none
  | .setHealth _ _ _ => none
  | .setWatchdog _ _ _ _ => none
  | .unitReturn _ _ => none
  | .debugToken _ => none
  | .debugExpiry => none
  | .wake => none
  | .moduleReset => none
  | .readCrash _ => none
  | .readErrors _ => none
  | .regWrite _ _ _ => none
  | .satCountClear _ => none
  | .hotClear _ => none
  | .segFaultClear _ => none
  | .spdmRequest _ => none
  | .firmwareUpdate _ _ _ => none
  | .inputOn => none
  | .railRelease => none
  | .primaryClaim _ _ => none
  | .secureBoot => none
  | .powerUpReady => none
  | .pwrEnRise => none
  | .powerDown => none
  | .brownOut => none
  | .overvoltage => none
  | .resetInN => none
  | .railCycleDone => none
  | .powerControlTick _ _ _ _ => none
  | .budgetDivide _ _ => none
  | .thermalTrip => none
  | .coolingIdChange _ => none
  | .moveCompletion _ => none
  | .vopCompletion _ => none
  | .idleFrame _ _ => none
  | .resetInNRise => none
  | .eventAcknowledge => none

/-- The entry that a host command carries. -/
def Instr.entry : Instr → Option Entry64
  | .wload _ _ => none
  | .shadowSetValid _ => none
  | .wswap _ _ => none
  | .weightSetExchange _ => none
  | .stream _ _ => none
  | .arrayStep _ => none
  | .mergeDelivery _ => none
  | .windowDrain _ _ => none
  | .checkRepeat _ _ => none
  | .streamComplete _ => none
  | .drain _ _ => none
  | .vopVector _ _ _ => none
  | .vopScalar _ _ => none
  | .move _ _ => none
  | .moveToSreg _ _ => none
  | .mcast _ _ => none
  | .mcastMemberDelivery _ _ => none
  | .dmake _ _ => none
  | .gather _ _ => none
  | .scatter _ _ => none
  | .merge _ _ => none
  | .take _ _ => none
  | .takeResult _ => none
  | .signal _ _ => none
  | .signalArrival _ => none
  | .wait _ _ => none
  | .fence _ _ => none
  | .checkArray _ _ => none
  | .checkRegion _ _ => none
  | .checkImem _ _ => none
  | .ctxsaveYield _ _ => none
  | .ctxsaveArea _ _ => none
  | .ctxrestore _ _ => none
  | .halt _ _ => none
  | .counterBankReload _ _ => none
  | .gatherRows _ _ => none
  | .gatherSeq _ _ => none
  | .gatherCols _ _ => none
  | .route _ _ => none
  | .seqload _ _ => none
  | .scatterRows _ _ => none
  | .scatterSlot _ _ => none
  | .scatterCols _ _ => none
  | .mergeBind _ _ => none
  | .mergeUnbind _ _ => none
  | .slotsum _ _ => none
  | .audit _ _ => none
  | .auditClose _ _ => none
  | .msuListStart _ _ => none
  | .update _ _ => none
  | .updateVec _ _ => none
  | .smul _ _ => none
  | .updatePass2 _ _ => none
  | .normDeadline => none
  | .orbitStart => none
  | .orbitEnd => none
  | .orbitCompletion => none
  | .linkTick _ => none
  | .sendStart _ _ => none
  | .dataFrame _ _ _ => none
  | .trailerFrame _ _ _ => none
  | .retryFrame _ _ _ => none
  | .beDataFrame _ _ _ => none
  | .beTrailerFrame _ _ _ => none
  | .transferMissed _ _ => none
  | .regionRelease _ _ => none
  | .controlSlot => none
  | .timeMarker _ _ => none
  | .timeHoldover => none
  | .timeLost => none
  | .linkUp _ _ => none
  | .linkTrainingFail _ => none
  | .linkDown _ => none
  | .keyx _ _ => none
  | .vote _ _ => none
  | .void _ _ => none
  | .retract _ _ => none
  | .commit _ _ => none
  | .bucketStage _ => none
  | .encodeCompare _ _ _ _ => none
  | .contribReceive _ _ => none
  | .correctReceive _ _ => none
  | .reducedReceive _ _ => none
  | .normRecordReceive _ _ => none
  | .bucketFinalise _ _ => none
  | .voteTick => none
  | .voteClose => none
  | .coreWatchdog _ => none
  | .comaWatchdog _ _ => none
  | .msuWatchdog _ _ => none
  | .cpWatchdog _ => none
  | .cpHeartbeat _ => none
  | .halfHeartbeat _ => none
  | .separation => none
  | .domainDrainEnd _ _ => none
  | .domainResetComplete _ => none
  | .escalation => none
  | .hotWindow _ => none
  | .healthWindowExpiry _ => none
  | .healthFlush => none
  | .errorRecordDelivery _ => none
  | .openKey _ _ _ e => some e
  | .openSecret _ _ _ e => some e
  | .claim _ _ _ e => some e
  | .close _ _ _ e => some e
  | .rotate _ _ _ e => some e
  | .release _ _ _ e => some e
  | .loadPlan _ _ _ e => some e
  | .startOrbits _ _ _ e => some e
  | .writeStepSize _ _ _ e => some e
  | .memTransferWrite _ _ _ e => some e
  | .memTransferRead _ _ _ e => some e
  | .queryIdentity _ _ _ e => some e
  | .querySpdm _ _ _ e => some e
  | .queryState _ _ _ e => some e
  | .queryRegisters _ _ _ e => some e
  | .queryHealth _ _ _ e => some e
  | .queryErrors _ _ _ e => some e
  | .resetDomain _ _ _ e => some e
  | .enterUmbra _ _ _ e => some e
  | .leaveUmbra _ _ _ e => some e
  | .sqDoorbell _ _ _ _ => none
  | .cqHeadWrite _ _ _ => none
  | .queueEnable _ _ _ _ _ => none
  | .completionRecord _ => none
  | .efmusPortUp _ => none
  | .efmusPortDown _ => none
  | .portLinkLost _ => none
  | .resetHoldTimeout _ => none
  | .setCap _ => none
  | .emergencyCap _ => none
  | .setHealth _ _ _ => none
  | .setWatchdog _ _ _ _ => none
  | .unitReturn _ _ => none
  | .debugToken _ => none
  | .debugExpiry => none
  | .wake => none
  | .moduleReset => none
  | .readCrash _ => none
  | .readErrors _ => none
  | .regWrite _ _ _ => none
  | .satCountClear _ => none
  | .hotClear _ => none
  | .segFaultClear _ => none
  | .spdmRequest _ => none
  | .firmwareUpdate _ _ _ => none
  | .inputOn => none
  | .railRelease => none
  | .primaryClaim _ _ => none
  | .secureBoot => none
  | .powerUpReady => none
  | .pwrEnRise => none
  | .powerDown => none
  | .brownOut => none
  | .overvoltage => none
  | .resetInN => none
  | .railCycleDone => none
  | .powerControlTick _ _ _ _ => none
  | .budgetDivide _ _ => none
  | .thermalTrip => none
  | .coolingIdChange _ => none
  | .moveCompletion _ => none
  | .vopCompletion _ => none
  | .idleFrame _ _ => none
  | .resetInNRise => none
  | .eventAcknowledge => none

end Sys2Proof
end

