-- ==== Sys2Proof/Laws/PerInstr.lean ====
section
/-! SUPPORT. Statements made of every command, one lemma per constructor: what a well-formed command's encoding holds. -/
namespace Sys2Proof.Laws.Encoding
open Sys2Proof.Machine

/-- A well-formed command's instruction word has a listed OPCODE and no reserved bit (R237); its host entry has a listed OPCODE, no reserved bit
and parameters in range (R520, R521). -/
def Statement (i : Instr) : Prop :=
  i.wf = true →
    (∀ w, i.word = some w → knownOp (wOpcode w) = true ∧ reservedSet w = false ∧ flowWf w = true) ∧
    (∀ e, i.entry = some e → hostOps.contains (eOp e) = true ∧ eReservedZero e = true ∧ eInRange e = true)

theorem none_of {i : Instr} (hw : i.word = none) (he : i.entry = none) : Statement i := by
  intro _
  constructor <;> intro x h <;> simp [hw, he] at h

theorem word_of {i : Instr} {w : IWord} (hw : i.word = some w) (he : i.entry = none) (h : i.wf = true → wordWf w = true) : Statement i := by
  intro hi
  refine ⟨fun w' h' => ?_, fun e h' => by simp [he] at h'⟩
  rw [hw] at h'
  cases h'
  have h := h hi
  simp only [wordWf, Bool.and_eq_true, Bool.not_eq_true'] at h
  exact ⟨h.1.1.1, h.1.1.2, h.1.2⟩

theorem entry_of {i : Instr} {e : Entry64} (hw : i.word = none) (he : i.entry = some e) (h : i.wf = true → entryWf e = true) : Statement i := by
  intro hi
  refine ⟨fun w h' => by simp [hw] at h', fun e' h' => ?_⟩
  rw [he] at h'
  cases h'
  have h := h hi
  simp only [entryWf, Bool.and_eq_true] at h
  exact ⟨h.1.1, h.1.2, h.2⟩

theorem wload (core : Fin 128) (w : IWord) : Statement (.wload core w) := word_of rfl rfl (fun h => (Bool.and_eq_true_iff.1 h).1)
theorem shadowSetValid (core : Fin 128) : Statement (.shadowSetValid core) := none_of rfl rfl
theorem wswap (core : Fin 128) (w : IWord) : Statement (.wswap core w) := word_of rfl rfl (fun h => (Bool.and_eq_true_iff.1 h).1)
theorem weightSetExchange (core : Fin 128) : Statement (.weightSetExchange core) := none_of rfl rfl
theorem stream (core : Fin 128) (w : IWord) : Statement (.stream core w) := word_of rfl rfl (fun h => (Bool.and_eq_true_iff.1 h).1)
theorem arrayStep (core : Fin 128) : Statement (.arrayStep core) := none_of rfl rfl
theorem mergeDelivery (core : Fin 128) : Statement (.mergeDelivery core) := none_of rfl rfl
theorem windowDrain (core : Fin 128) (obs : CheckObs) : Statement (.windowDrain core obs) := none_of rfl rfl
theorem checkRepeat (unit : BitVec 16) (obs : CheckObs) : Statement (.checkRepeat unit obs) := none_of rfl rfl
theorem streamComplete (core : Fin 128) : Statement (.streamComplete core) := none_of rfl rfl
theorem drain (core : Fin 128) (w : IWord) : Statement (.drain core w) := word_of rfl rfl (fun h => (Bool.and_eq_true_iff.1 h).1)
theorem vopVector (core : Fin 128) (w : IWord) (failGroup : Option Nat) : Statement (.vopVector core w failGroup) := word_of rfl rfl (fun h => (Bool.and_eq_true_iff.1 h).1)
theorem vopScalar (core : Fin 128) (w : IWord) : Statement (.vopScalar core w) := word_of rfl rfl (fun h => (Bool.and_eq_true_iff.1 h).1)
theorem move (core : Fin 128) (w : IWord) : Statement (.move core w) := word_of rfl rfl (fun h => (Bool.and_eq_true_iff.1 h).1)
theorem moveToSreg (core : Fin 128) (w : IWord) : Statement (.moveToSreg core w) := word_of rfl rfl (fun h => (Bool.and_eq_true_iff.1 h).1)
theorem mcast (core : Fin 128) (w : IWord) : Statement (.mcast core w) := word_of rfl rfl (fun h => (Bool.and_eq_true_iff.1 h).1)
theorem mcastMemberDelivery (core : Fin 128) (member : Fin 128) : Statement (.mcastMemberDelivery core member) := none_of rfl rfl
theorem dmake (core : Fin 128) (w : IWord) : Statement (.dmake core w) := word_of rfl rfl (fun h => (Bool.and_eq_true_iff.1 h).1)
theorem gather (core : Fin 128) (w : IWord) : Statement (.gather core w) := word_of rfl rfl (fun h => (Bool.and_eq_true_iff.1 h).1)
theorem scatter (core : Fin 128) (w : IWord) : Statement (.scatter core w) := word_of rfl rfl (fun h => (Bool.and_eq_true_iff.1 h).1)
theorem merge (core : Fin 128) (w : IWord) : Statement (.merge core w) := word_of rfl rfl (fun h => (Bool.and_eq_true_iff.1 h).1)
theorem take (core : Fin 128) (w : IWord) : Statement (.take core w) := word_of rfl rfl (fun h => (Bool.and_eq_true_iff.1 h).1)
theorem takeResult (core : Fin 128) : Statement (.takeResult core) := none_of rfl rfl
theorem signal (core : Fin 128) (w : IWord) : Statement (.signal core w) := word_of rfl rfl (fun h => (Bool.and_eq_true_iff.1 h).1)
theorem signalArrival (nth : Nat) : Statement (.signalArrival nth) := none_of rfl rfl
theorem wait (core : Fin 128) (w : IWord) : Statement (.wait core w) := word_of rfl rfl (fun h => (Bool.and_eq_true_iff.1 h).1)
theorem fence (core : Fin 128) (w : IWord) : Statement (.fence core w) := word_of rfl rfl (fun h => (Bool.and_eq_true_iff.1 h).1)
theorem checkArray (core : Fin 128) (w : IWord) : Statement (.checkArray core w) := word_of rfl rfl (fun h => (Bool.and_eq_true_iff.1 h).1)
theorem checkRegion (core : Fin 128) (w : IWord) : Statement (.checkRegion core w) := word_of rfl rfl (fun h => (Bool.and_eq_true_iff.1 h).1)
theorem checkImem (core : Fin 128) (w : IWord) : Statement (.checkImem core w) := word_of rfl rfl (fun h => (Bool.and_eq_true_iff.1 h).1)
theorem ctxsaveYield (core : Fin 128) (w : IWord) : Statement (.ctxsaveYield core w) := word_of rfl rfl (fun h => (Bool.and_eq_true_iff.1 h).1)
theorem ctxsaveArea (core : Fin 128) (w : IWord) : Statement (.ctxsaveArea core w) := word_of rfl rfl (fun h => (Bool.and_eq_true_iff.1 h).1)
theorem ctxrestore (core : Fin 128) (w : IWord) : Statement (.ctxrestore core w) := word_of rfl rfl (fun h => (Bool.and_eq_true_iff.1 h).1)
theorem halt (core : Fin 128) (w : IWord) : Statement (.halt core w) := word_of rfl rfl (fun h => (Bool.and_eq_true_iff.1 h).1)
theorem counterBankReload (die : Fin 4) (parity : Bool) : Statement (.counterBankReload die parity) := none_of rfl rfl
theorem gatherRows (engine : Fin 32) (mismatch : Bool) : Statement (.gatherRows engine mismatch) := none_of rfl rfl
theorem gatherSeq (engine : Fin 32) (mismatch : Bool) : Statement (.gatherSeq engine mismatch) := none_of rfl rfl
theorem gatherCols (engine : Fin 32) (mismatch : Bool) : Statement (.gatherCols engine mismatch) := none_of rfl rfl
theorem route (engine : Fin 32) (mismatch : Bool) : Statement (.route engine mismatch) := none_of rfl rfl
theorem seqload (engine : Fin 32) (mismatch : Bool) : Statement (.seqload engine mismatch) := none_of rfl rfl
theorem scatterRows (engine : Fin 32) (mismatch : Bool) : Statement (.scatterRows engine mismatch) := none_of rfl rfl
theorem scatterSlot (engine : Fin 32) (mismatch : Bool) : Statement (.scatterSlot engine mismatch) := none_of rfl rfl
theorem scatterCols (engine : Fin 32) (mismatch : Bool) : Statement (.scatterCols engine mismatch) := none_of rfl rfl
theorem mergeBind (engine : Fin 32) (mismatch : Bool) : Statement (.mergeBind engine mismatch) := none_of rfl rfl
theorem mergeUnbind (engine : Fin 32) (mismatch : Bool) : Statement (.mergeUnbind engine mismatch) := none_of rfl rfl
theorem slotsum (engine : Fin 32) (mismatch : Bool) : Statement (.slotsum engine mismatch) := none_of rfl rfl
theorem audit (engine : Fin 32) (mismatch : Bool) : Statement (.audit engine mismatch) := none_of rfl rfl
theorem auditClose (engine : Fin 32) (mismatch : Bool) : Statement (.auditClose engine mismatch) := none_of rfl rfl
theorem msuListStart (msu : Fin 16) (sem : Fin 16) : Statement (.msuListStart msu sem) := none_of rfl rfl
theorem update (msu : Fin 16) (mismatch : Bool) : Statement (.update msu mismatch) := none_of rfl rfl
theorem updateVec (msu : Fin 16) (mismatch : Bool) : Statement (.updateVec msu mismatch) := none_of rfl rfl
theorem smul (msu : Fin 16) (mismatch : Bool) : Statement (.smul msu mismatch) := none_of rfl rfl
theorem updatePass2 (msu : Fin 16) (mismatch : Bool) : Statement (.updatePass2 msu mismatch) := none_of rfl rfl
theorem normDeadline : Statement .normDeadline := none_of rfl rfl
theorem orbitStart : Statement .orbitStart := none_of rfl rfl
theorem orbitEnd : Statement .orbitEnd := none_of rfl rfl
theorem orbitCompletion : Statement .orbitCompletion := none_of rfl rfl
theorem linkTick (link : Fin 48) : Statement (.linkTick link) := none_of rfl rfl
theorem sendStart (io : Fin 2) (entry : Nat) : Statement (.sendStart io entry) := none_of rfl rfl
theorem dataFrame (link : Fin 48) (hdr : FrameHeader) (obs : FrameObs) : Statement (.dataFrame link hdr obs) := none_of rfl rfl
theorem trailerFrame (link : Fin 48) (hdr : FrameHeader) (obs : FrameObs) : Statement (.trailerFrame link hdr obs) := none_of rfl rfl
theorem retryFrame (link : Fin 48) (hdr : FrameHeader) (obs : FrameObs) : Statement (.retryFrame link hdr obs) := none_of rfl rfl
theorem beDataFrame (link : Fin 48) (hdr : FrameHeader) (obs : FrameObs) : Statement (.beDataFrame link hdr obs) := none_of rfl rfl
theorem beTrailerFrame (link : Fin 48) (hdr : FrameHeader) (obs : FrameObs) : Statement (.beTrailerFrame link hdr obs) := none_of rfl rfl
theorem transferMissed (io : Fin 2) (entry : Nat) : Statement (.transferMissed io entry) := none_of rfl rfl
theorem regionRelease (io : Fin 2) (entry : Nat) : Statement (.regionRelease io entry) := none_of rfl rfl
theorem controlSlot : Statement .controlSlot := none_of rfl rfl
theorem timeMarker (link : Fin 48) (m : MarkerIn) : Statement (.timeMarker link m) := none_of rfl rfl
theorem timeHoldover : Statement .timeHoldover := none_of rfl rfl
theorem timeLost : Statement .timeLost := none_of rfl rfl
theorem linkUp (link : Fin 48) (rttTicks : BitVec 8) : Statement (.linkUp link rttTicks) := none_of rfl rfl
theorem linkTrainingFail (link : Fin 48) : Statement (.linkTrainingFail link) := none_of rfl rfl
theorem linkDown (link : Fin 48) : Statement (.linkDown link) := none_of rfl rfl
theorem keyx (link : Fin 48) (k : KeyxIn) : Statement (.keyx link k) := none_of rfl rfl
theorem vote (link : Fin 48) (m : CtlMsg) : Statement (.vote link m) := none_of rfl rfl
theorem void (link : Fin 48) (m : CtlMsg) : Statement (.void link m) := none_of rfl rfl
theorem retract (link : Fin 48) (m : CtlMsg) : Statement (.retract link m) := none_of rfl rfl
theorem commit (link : Fin 48) (m : CtlMsg) : Statement (.commit link m) := none_of rfl rfl
theorem bucketStage (bucket : Nat) : Statement (.bucketStage bucket) := none_of rfl rfl
theorem encodeCompare (bucket : Nat) (block : Nat) (mismatch : Bool) (again : Bool) : Statement (.encodeCompare bucket block mismatch again) := none_of rfl rfl
theorem contribReceive (io : Fin 2) (entry : Nat) : Statement (.contribReceive io entry) := none_of rfl rfl
theorem correctReceive (io : Fin 2) (entry : Nat) : Statement (.correctReceive io entry) := none_of rfl rfl
theorem reducedReceive (io : Fin 2) (entry : Nat) : Statement (.reducedReceive io entry) := none_of rfl rfl
theorem normRecordReceive (io : Fin 2) (entry : Nat) : Statement (.normRecordReceive io entry) := none_of rfl rfl
theorem bucketFinalise (bucket : Nat) (mismatch : Option Nat) : Statement (.bucketFinalise bucket mismatch) := none_of rfl rfl
theorem voteTick : Statement .voteTick := none_of rfl rfl
theorem voteClose : Statement .voteClose := none_of rfl rfl
theorem coreWatchdog (core : Fin 128) : Statement (.coreWatchdog core) := none_of rfl rfl
theorem comaWatchdog (engine : Fin 32) (waiting : Bool) : Statement (.comaWatchdog engine waiting) := none_of rfl rfl
theorem msuWatchdog (msu : Fin 16) (waiting : Bool) : Statement (.msuWatchdog msu waiting) := none_of rfl rfl
theorem cpWatchdog (half : Fin 2) : Statement (.cpWatchdog half) := none_of rfl rfl
theorem cpHeartbeat (half : Fin 2) : Statement (.cpHeartbeat half) := none_of rfl rfl
theorem halfHeartbeat (half : Fin 2) : Statement (.halfHeartbeat half) := none_of rfl rfl
theorem separation : Statement .separation := none_of rfl rfl
theorem domainDrainEnd (forced : Bool) (drainUs : Nat) : Statement (.domainDrainEnd forced drainUs) := none_of rfl rfl
theorem domainResetComplete (resetUs : Nat) : Statement (.domainResetComplete resetUs) := none_of rfl rfl
theorem escalation : Statement .escalation := none_of rfl rfl
theorem hotWindow (msu : Fin 16) : Statement (.hotWindow msu) := none_of rfl rfl
theorem healthWindowExpiry (unit : BitVec 16) : Statement (.healthWindowExpiry unit) := none_of rfl rfl
theorem healthFlush : Statement .healthFlush := none_of rfl rfl
theorem errorRecordDelivery (io : Fin 2) : Statement (.errorRecordDelivery io) := none_of rfl rfl
theorem openKey (port : Fin 2) (queue : Fin 2) (handle : W32) (e : Entry64) : Statement (.openKey port queue handle e) := entry_of rfl rfl (fun h => (Bool.and_eq_true_iff.1 h).1)
theorem openSecret (port : Fin 2) (queue : Fin 2) (handle : W32) (e : Entry64) : Statement (.openSecret port queue handle e) := entry_of rfl rfl (fun h => (Bool.and_eq_true_iff.1 h).1)
theorem claim (port : Fin 2) (queue : Fin 2) (handle : W32) (e : Entry64) : Statement (.claim port queue handle e) := entry_of rfl rfl (fun h => (Bool.and_eq_true_iff.1 h).1)
theorem close (port : Fin 2) (queue : Fin 2) (handle : W32) (e : Entry64) : Statement (.close port queue handle e) := entry_of rfl rfl (fun h => (Bool.and_eq_true_iff.1 h).1)
theorem rotate (port : Fin 2) (queue : Fin 2) (handle : W32) (e : Entry64) : Statement (.rotate port queue handle e) := entry_of rfl rfl (fun h => (Bool.and_eq_true_iff.1 h).1)
theorem release (port : Fin 2) (queue : Fin 2) (handle : W32) (e : Entry64) : Statement (.release port queue handle e) := entry_of rfl rfl (fun h => (Bool.and_eq_true_iff.1 h).1)
theorem loadPlan (port : Fin 2) (queue : Fin 2) (handle : W32) (e : Entry64) : Statement (.loadPlan port queue handle e) := entry_of rfl rfl (fun h => (Bool.and_eq_true_iff.1 h).1)
theorem startOrbits (port : Fin 2) (queue : Fin 2) (handle : W32) (e : Entry64) : Statement (.startOrbits port queue handle e) := entry_of rfl rfl (fun h => (Bool.and_eq_true_iff.1 h).1)
theorem writeStepSize (port : Fin 2) (queue : Fin 2) (handle : W32) (e : Entry64) : Statement (.writeStepSize port queue handle e) := entry_of rfl rfl (fun h => (Bool.and_eq_true_iff.1 h).1)
theorem memTransferWrite (port : Fin 2) (queue : Fin 2) (handle : W32) (e : Entry64) : Statement (.memTransferWrite port queue handle e) := entry_of rfl rfl (fun h => (Bool.and_eq_true_iff.1 h).1)
theorem memTransferRead (port : Fin 2) (queue : Fin 2) (handle : W32) (e : Entry64) : Statement (.memTransferRead port queue handle e) := entry_of rfl rfl (fun h => (Bool.and_eq_true_iff.1 h).1)
theorem queryIdentity (port : Fin 2) (queue : Fin 2) (handle : W32) (e : Entry64) : Statement (.queryIdentity port queue handle e) := entry_of rfl rfl (fun h => (Bool.and_eq_true_iff.1 h).1)
theorem querySpdm (port : Fin 2) (queue : Fin 2) (handle : W32) (e : Entry64) : Statement (.querySpdm port queue handle e) := entry_of rfl rfl (fun h => (Bool.and_eq_true_iff.1 h).1)
theorem queryState (port : Fin 2) (queue : Fin 2) (handle : W32) (e : Entry64) : Statement (.queryState port queue handle e) := entry_of rfl rfl (fun h => (Bool.and_eq_true_iff.1 h).1)
theorem queryRegisters (port : Fin 2) (queue : Fin 2) (handle : W32) (e : Entry64) : Statement (.queryRegisters port queue handle e) := entry_of rfl rfl (fun h => (Bool.and_eq_true_iff.1 h).1)
theorem queryHealth (port : Fin 2) (queue : Fin 2) (handle : W32) (e : Entry64) : Statement (.queryHealth port queue handle e) := entry_of rfl rfl (fun h => (Bool.and_eq_true_iff.1 h).1)
theorem queryErrors (port : Fin 2) (queue : Fin 2) (handle : W32) (e : Entry64) : Statement (.queryErrors port queue handle e) := entry_of rfl rfl (fun h => (Bool.and_eq_true_iff.1 h).1)
theorem resetDomain (port : Fin 2) (queue : Fin 2) (handle : W32) (e : Entry64) : Statement (.resetDomain port queue handle e) := entry_of rfl rfl (fun h => (Bool.and_eq_true_iff.1 h).1)
theorem enterUmbra (port : Fin 2) (queue : Fin 2) (handle : W32) (e : Entry64) : Statement (.enterUmbra port queue handle e) := entry_of rfl rfl (fun h => (Bool.and_eq_true_iff.1 h).1)
theorem leaveUmbra (port : Fin 2) (queue : Fin 2) (handle : W32) (e : Entry64) : Statement (.leaveUmbra port queue handle e) := entry_of rfl rfl (fun h => (Bool.and_eq_true_iff.1 h).1)
theorem sqDoorbell (port : Fin 2) (queue : Fin 2) (tail : BitVec 32) (f : Bool) : Statement (.sqDoorbell port queue tail f) := none_of rfl rfl
theorem cqHeadWrite (port : Fin 2) (queue : Fin 2) (head : BitVec 32) : Statement (.cqHeadWrite port queue head) := none_of rfl rfl
theorem queueEnable (port : Fin 2) (queue : Fin 2) (value : W64) (ack : W64) (cq : W64) : Statement (.queueEnable port queue value ack cq) := none_of rfl rfl
theorem completionRecord (port : Fin 2) : Statement (.completionRecord port) := none_of rfl rfl
theorem efmusPortUp (port : Fin 2) : Statement (.efmusPortUp port) := none_of rfl rfl
theorem efmusPortDown (port : Fin 2) : Statement (.efmusPortDown port) := none_of rfl rfl
theorem portLinkLost (port : Fin 2) : Statement (.portLinkLost port) := none_of rfl rfl
theorem resetHoldTimeout (port : Fin 2) : Statement (.resetHoldTimeout port) := none_of rfl rfl
theorem setCap (capW : Nat) : Statement (.setCap capW) := none_of rfl rfl
theorem emergencyCap (capW : Nat) : Statement (.emergencyCap capW) := none_of rfl rfl
theorem setHealth (histLimit : Nat) (histWindow : Nat) (memLimit : Nat) : Statement (.setHealth histLimit histWindow memLimit) := none_of rfl rfl
theorem setWatchdog (coreMs : Nat) (ceMs : Nat) (msuMs : Nat) (cpMs : Nat) : Statement (.setWatchdog coreMs ceMs msuMs cpMs) := none_of rfl rfl
theorem unitReturn (unit : BitVec 16) (level : BitVec 2) : Statement (.unitReturn unit level) := none_of rfl rfl
theorem debugToken (token : BitVec 2560) : Statement (.debugToken token) := none_of rfl rfl
theorem debugExpiry : Statement .debugExpiry := none_of rfl rfl
theorem wake : Statement .wake := none_of rfl rfl
theorem moduleReset : Statement .moduleReset := none_of rfl rfl
theorem readCrash (sequence : W32) : Statement (.readCrash sequence) := none_of rfl rfl
theorem readErrors (sequence : W32) : Statement (.readErrors sequence) := none_of rfl rfl
theorem regWrite (addr : W32) (value : W64) (mask : W64) : Statement (.regWrite addr value mask) := none_of rfl rfl
theorem satCountClear (core : Fin 128) : Statement (.satCountClear core) := none_of rfl rfl
theorem hotClear (msu : Fin 16) : Statement (.hotClear msu) := none_of rfl rfl
theorem segFaultClear (unit : Fin 6) : Statement (.segFaultClear unit) := none_of rfl rfl
theorem spdmRequest (request : List Byte) : Statement (.spdmRequest request) := none_of rfl rfl
theorem firmwareUpdate (io : Fin 2) (isCp : Bool) (image : List Byte) : Statement (.firmwareUpdate io isCp image) := none_of rfl rfl
theorem inputOn : Statement .inputOn := none_of rfl rfl
theorem railRelease : Statement .railRelease := none_of rfl rfl
theorem primaryClaim (selA : Bool) (selB : Bool) : Statement (.primaryClaim selA selB) := none_of rfl rfl
theorem secureBoot : Statement .secureBoot := none_of rfl rfl
theorem powerUpReady : Statement .powerUpReady := none_of rfl rfl
theorem pwrEnRise : Statement .pwrEnRise := none_of rfl rfl
theorem powerDown : Statement .powerDown := none_of rfl rfl
theorem brownOut : Statement .brownOut := none_of rfl rfl
theorem overvoltage : Statement .overvoltage := none_of rfl rfl
theorem resetInN : Statement .resetInN := none_of rfl rfl
theorem railCycleDone : Statement .railCycleDone := none_of rfl rfl
theorem powerControlTick (half : Fin 2) (drawW : Nat) (temps : Temps) (meter : MeterIn) : Statement (.powerControlTick half drawW temps meter) := none_of rfl rfl
theorem budgetDivide (drawN : Nat) (drawS : Nat) : Statement (.budgetDivide drawN drawS) := none_of rfl rfl
theorem thermalTrip : Statement .thermalTrip := none_of rfl rfl
theorem coolingIdChange (code : BitVec 3) : Statement (.coolingIdChange code) := none_of rfl rfl
theorem moveCompletion (core : Fin 128) : Statement (.moveCompletion core) := none_of rfl rfl
theorem vopCompletion (core : Fin 128) : Statement (.vopCompletion core) := none_of rfl rfl
theorem idleFrame (link : Fin 48) (hdr : FrameHeader) : Statement (.idleFrame link hdr) := none_of rfl rfl
theorem resetInNRise : Statement .resetInNRise := none_of rfl rfl
theorem eventAcknowledge : Statement .eventAcknowledge := none_of rfl rfl

end Sys2Proof.Laws.Encoding
end

