-- ==== Sys2Proof/Laws/Word.lean ====
section
/-! SUPPORT. Bits of a word after some of them are replaced. -/
namespace Sys2Proof

theorem getLsbD_setBits {w : Nat} (x : BitVec w) (hi lo v i : Nat) (h : i < w) :
    (setBits x hi lo v).getLsbD i = if lo ≤ i ∧ i ≤ hi then v.testBit (i - lo) else x.getLsbD i := by
  unfold setBits
  simp only [BitVec.getLsbD_or, BitVec.getLsbD_and, BitVec.getLsbD_not, BitVec.getLsbD_ofNat, Nat.testBit_shiftLeft,
    Nat.testBit_two_pow_sub_one, Nat.testBit_mod_two_pow]
  by_cases h1 : lo ≤ i
  · by_cases h2 : i ≤ hi
    · have a : i - lo < hi + 1 - lo := by omega
      simp [h, h1, h2, a]
    · have a : ¬ (i - lo < hi + 1 - lo) := by omega
      simp [h, h1, h2, a]
  · have a : ¬ (lo ≤ i ∧ i ≤ hi) := fun c => h1 c.1
    simp [h, h1]

/-- A bit outside the replaced field stays. -/
theorem bitOf_setBits_ne {w : Nat} (x : BitVec w) (hi lo v i : Nat) (h : i < w) (hn : i < lo ∨ hi < i) :
    bitOf (setBits x hi lo v) i = bitOf x i := by
  unfold bitOf
  rw [getLsbD_setBits x hi lo v i h, if_neg (by omega)]

/-- A one-bit field reads as what was written. -/
theorem bitOf_setBits_same {w : Nat} (x : BitVec w) (i : Nat) (b : Bool) (h : i < w) :
    bitOf (setBits x i i (if b then 1 else 0)) i = b := by
  unfold bitOf
  rw [getLsbD_setBits x i i _ i h, if_pos ⟨Nat.le_refl _, Nat.le_refl _⟩, Nat.sub_self]
  cases b <;> decide

theorem testBit_bitsOf {w : Nat} (x : BitVec w) (hi lo i : Nat) :
    (bitsOf x hi lo).testBit i = (decide (i < hi + 1 - lo) && x.getLsbD (lo + i)) := by
  unfold bitsOf
  rw [Nat.testBit_mod_two_pow, Nat.testBit_shiftRight]
  rfl

/-- A field reads as what was written, modulo its width. -/
theorem bitsOf_setBits_same {w : Nat} (x : BitVec w) (hi lo v : Nat) (h : hi < w) :
    bitsOf (setBits x hi lo v) hi lo = v % 2 ^ (hi + 1 - lo) := by
  apply Nat.eq_of_testBit_eq
  intro i
  rw [testBit_bitsOf, Nat.testBit_mod_two_pow]
  by_cases hi' : i < hi + 1 - lo
  · rw [getLsbD_setBits x hi lo v (lo + i) (by omega), if_pos (by omega)]
    simp [hi']
  · simp [hi']

/-- A field that the replaced one does not overlap stays. -/
theorem bitsOf_setBits_ne {w : Nat} (x : BitVec w) (hi lo v hi' lo' : Nat) (h : hi' < w) (hn : hi' < lo ∨ hi < lo') :
    bitsOf (setBits x hi lo v) hi' lo' = bitsOf x hi' lo' := by
  apply Nat.eq_of_testBit_eq
  intro i
  rw [testBit_bitsOf, testBit_bitsOf]
  by_cases hi'' : i < hi' + 1 - lo'
  · rw [getLsbD_setBits x hi lo v (lo' + i) (by omega), if_neg (by omega)]
  · simp [hi'']

end Sys2Proof
end

