-- ==== Sys2Proof/Tests/Slice0.lean ====
section
/-! SUPPORT. Tests on fixed values, each from the words of the rule that it names: the well-formedness checks refuse an ill-formed
command each; and, for every statement of Obligations, states and operands that meet its hypotheses, clause by clause. -/
set_option Elab.async false
namespace Sys2Proof.Tests
open Sys2Proof Sys2Proof.Machine

/-- A number whose fields, from their lowest bits on, hold the values given. -/
def fields (l : List (Nat × Nat)) : Nat := l.foldl (fun n f => n + f.2 * 2 ^ f.1) 0
def iw (l : List (Nat × Nat)) : IWord := BitVec.ofNat 128 (fields l)
/-- A writable descriptor of Table 9-1: segment, offset, format, layout, and the extents and strides of its dimensions. -/
def tensor (seg off fmt layout : Nat) (ext0 : Nat) (dims : List (Nat × Nat)) : Desc :=
  BitVec.ofNat 256 (fields ([(244, seg), (209, off), (205, fmt), (203, layout), (200, dims.length + 1), (195, 1), (168, ext0), (164, 1)]
    ++ (dims.zipIdx.flatMap (fun x => [(32 * x.2 + 18, x.1.1), (32 * x.2 + 4, x.1.2)]))))
/-- A segment entry of Table 9-9: tier, length in units of 128 B, base; readable and writable. -/
def segment (tier limit base : Nat) : BitVec 128 := BitVec.ofNat 128 (fields [(127, 1), (104, 1), (103, 1), (96, tier), (48, limit), (0, base)])
def tens (d : Desc) : DReg := ⟨true, .tensor, d⟩

/-- Logical core 0 runs on core 0; segment 0 is its scratchpad, 1 a part of tier 1 from the first context area on, 2 the buffer of
its die. d0: 8 × 32 FP32; d1: 8 × 32 of format 1; d2 and d3: 32 FP32; d4: the context area; d5 a header; d6: 64 bytes of 8 bits. -/
def core0 : State :=
  { State.reset with dev := { State.reset.dev with
      segs := (((Bank.const 0).set 0 (segment 0 12288 0)).set 1 (segment 2 65536 0)).set 2 (segment 1 65536 0)
      cores := State.reset.dev.cores.set 0 { Core.init with occupied := true }
      lcs := State.reset.dev.lcs.set 0 { LCore.unbound with
        bound := true, phase := .running
        d := ((((((Bank.const DReg.empty).set 0 (tens (tensor 0 0 0 0 32 [(8, 1)]))).set 1 (tens (tensor 0 1024 1 0 32 [(8, 1)]))).set 2
          (tens (tensor 0 0 0 0 32 []))).set 3 (tens (tensor 0 256 0 0 32 []))).set 4 (tens (tensor 1 0 0 0 32768 [(56, 1024)]))).set 5
            ⟨true, .header, BitVec.ofNat 256 (fields [(0, 0x05)])⟩ } } }
/-- The same with one word changed. -/
def onCore (f : Core → Core) : State := core0.mapDev (·.updCore 0 f)
def onLc (f : LCore → LCore) : State := core0.mapDev (·.updLc 0 f)

/-- What CanIssue asks, as a check. -/
def issues (s : State) (w : IWord) (regs ctl : List Nat) : Bool :=
  let d := s.dev
  d.runner 0 == some 0 && !(d.core 0).interlocked (regs ++ flowRegs w) && !d.ms.flip1.get (imemFlip 0 (d.lc 0).pc)
    && !d.ms.flip2.get (imemFlip 0 (d.lc 0).pc)
    && (ctl ++ (flowRegs w).filter (fun r => !(wDsts w).contains r)).all (fun r => !(d.lc 0).sPoison.get r)
theorem canIssue {s : State} {w : IWord} {regs ctl : List Nat} (h : issues s w regs ctl = true) : s.dev.CanIssue (0 : Fin 128) 0 w regs ctl := by
  simp only [issues, Bool.and_eq_true, beq_iff_eq, Bool.not_eq_true', List.all_eq_true] at h
  exact ⟨h.1.1.1.1, h.1.1.1.2, h.1.1.2, h.1.2, h.2⟩
/-- The issue checks pass. -/
def passes (s : State) (checks : Dev → LCore → List (Bool × Byte)) (regions : LCore → List (View × Bool)) : Bool :=
  let d := s.dev.counting 0
  (firstFail (checks d (s.dev.lc 0).counted)).isNone && (issueFault d (.core 0) (regions (s.dev.lc 0))).isNone

/-! Witnesses for the core instructions. -/

def wWload : IWord := iw [(0, 0x01), (8, 1), (18, 3)]
def wStream : IWord := iw [(0, 0x03), (8, 1), (16, 0), (25, 4), (31, 5)]
def wDrain : IWord := iw [(0, 0x04), (12, 1), (8, 2), (13, 2), (27, 6)]
def streamed : State :=
  (onLc (fun l => { l with s := l.s.set 4 (BitVec.ofNat 64 (fields [(0, 8), (32, 32), (42, 32)])) })).mapDev (·.updDie 0 (fun k =>
    { k with limits := k.limits.set 0 ⟨8, 32, 32⟩ }))

theorem witness_ArrayInstructionsIssue :
    (wOpcode wWload = opWload ∧ core0.dev.CanIssue (0 : Fin 128) 0 wWload [wlTsreg wWload] []
      ∧ passes core0 (fun d l => wloadChecks d 0 l wWload) (fun l => [(l.view (wlWdesc wWload), false)]) = true)
    ∧ core0.dev.CanIssue (0 : Fin 128) 0 (iw [(0, 0x02)]) [] []
    ∧ (streamed.dev.CanIssue (0 : Fin 128) 0 wStream [stTsreg wStream, stShapeReg wStream] [stShapeReg wStream]
      ∧ passes streamed (fun d l => streamChecks d 0 l wStream) (fun l => streamRegions l.counted wStream) = true)
    ∧ (core0.dev.CanIssue (0 : Fin 128) 0 wDrain [drPreg wDrain] []
      ∧ passes core0 (fun d l => drainChecks d 0 l wDrain) (fun _ => []) = true
      ∧ drainFault (core0.dev.counting 0) 0 (core0.dev.lc 0).counted wDrain = none)
    ∧ core0.dev.CanIssue (0 : Fin 128) 0 (iw [(0, 0x70)]) [] [] ∧ ckUnit (iw [(0, 0x70)]) = 0 ∧ (core0.dev.core 0).arrayQ.length < 8 :=
  ⟨⟨by decide, canIssue (by decide +kernel), by decide +kernel⟩, canIssue (by decide +kernel),
    ⟨canIssue (by decide +kernel), by decide +kernel⟩, ⟨canIssue (by decide +kernel), by decide +kernel, by decide +kernel⟩,
    canIssue (by decide +kernel), by decide +kernel, by decide⟩

def wVop : IWord := iw [(0, 0x10), (16, 2), (20, 2), (24, 3)]
def wMove : IWord := iw [(0, 0x20), (8, 3), (12, 2)]
/-- A load of the last two s registers, 62 and 63. -/
def wLoadS : IWord := iw [(0, 0x20), (17, 1), (12, 2), (24, 1), (18, 62)]
def wMcast : IWord := iw [(0, 0x21), (8, 2), (12, 3)]

theorem witness_MoveAndVectorInstructionsIssue :
    (core0.dev.CanIssue (0 : Fin 128) 0 wVop [] [] ∧ passes core0 (fun d l => vopChecks d l wVop) (fun l => vopRegions l.counted wVop) = true)
    ∧ (core0.dev.CanIssue (0 : Fin 128) 0 wMove [] [] ∧ passes core0 (fun d l => moveChecks d l wMove)
      (fun l => [(l.view (mvDsrc wMove), false), (l.view (mvDdst wMove), true)]) = true)
    ∧ (core0.dev.CanIssue (0 : Fin 128) 0 wLoadS (mvRegs wLoadS) [] ∧ passes core0 (fun _ l => sregChecks l wLoadS) (fun _ => []) = true
      ∧ (let l := core0.dev.lc 0
         let d := core0.dev.counting 0
         segCheck d (.core 0) (l.view (mvDsrc wLoadS)).seg true false ((l.view (mvDsrc wLoadS)).firstByte d) (8 * (mvNwords wLoadS + 1)) = none)
      ∧ mvRegs wLoadS = [62, 63])
    ∧ (core0.dev.CanIssue (0 : Fin 128) 0 wMcast [] [] ∧ passes core0 (fun d l => mcastChecks d l wMcast)
      (fun l => [(l.view (mcDsrc wMcast), false), (l.view (mcDdst wMcast), true)]) = true)
    ∧ vpScalar wVop = false ∧ mvToSreg wMove = false ∧ mvToSreg wLoadS = true :=
  ⟨⟨canIssue (by decide +kernel), by decide +kernel⟩, ⟨canIssue (by decide +kernel), by decide +kernel⟩,
    ⟨canIssue (by decide +kernel), by decide +kernel, by decide +kernel, by decide⟩, ⟨canIssue (by decide +kernel), by decide +kernel⟩,
    by decide, by decide, by decide⟩

/-- core0 with the header of an OP and a COUNT in d5, and a tensor operand in d2. -/
def withHdr (op : Nat) : State := onLc (fun l => { l with d := l.d.set 5 ⟨true, .header, BitVec.ofNat 256 (fields [(0, op), (32, 8)])⟩ })
def wComa (op masks : Nat) : IWord := iw [(0, op), (8, 5), (12, 2), (16, 2), (20, 2), (24, masks)]

theorem witness_ComaInstructionsSubmit :
    (∀ op ∈ [(0x40, 0x01, 7, 1), (0x41, 0x11, 7, 2), (0x42, 0x23, 5, 3)],
      let s := withHdr op.2.1
      let w := wComa op.1 op.2.2.1
      issues s w [] [] = true ∧ wOpcode w = op.1 ∧ firstFail (comaChecks (s.dev.lc 0).counted w op.2.2.2) = none
      ∧ (s.dev.coma (s.dev.engineOf 0 0)).queue.length < 16 ∧ (s.dev.coma (s.dev.engineOf 0 0)).retired = false
      ∧ (s.dev.coma (s.dev.engineOf 0 0)).fenced = false) := by decide +kernel

def wAdd : IWord := iw [(0, 0x10), (8, 1), (16, 1), (22, 2), (28, 3)]
/-- DMAKE of a header from four s registers, with the last register that it may name. -/
def wDmake : IWord := iw [(0, 0x30), (8, 7), (12, 3), (15, 60)]

theorem witness_RegisterInstructions :
    (core0.dev.CanIssue (0 : Fin 128) 0 wAdd (scDst wAdd :: scSources wAdd) [] ∧ vpScalar wAdd = true
      ∧ scalarResult (core0.dev.lc 0) wAdd = some (0, false))
    ∧ (core0.dev.CanIssue (0 : Fin 128) 0 wDmake (dmRegs wDmake) (dmRegs wDmake)
      ∧ ((dmakeResult (core0.dev.counting 0) 0 (core0.dev.lc 0).counted wDmake).toOption.isSome = true)) :=
  ⟨⟨canIssue (by decide +kernel), by decide, by decide +kernel⟩, canIssue (by decide +kernel), by decide +kernel⟩

def wTake : IWord := iw [(0, 0x50), (8, 1), (20, 63), (26, 1)]
def wSignal : IWord := iw [(0, 0x60), (29, 1)]
def wWait : IWord := iw [(0, 0x61), (8, 31), (13, 1)]

theorem witness_SynchronisationInstructions :
    (core0.dev.CanIssue (0 : Fin 128) 0 wTake [tkDst wTake] []
      ∧ (((core0.dev.die 0).counters.get (tkCounter wTake)).value (core0.dev.lc 0).orbit).toNat + tkInc wTake ≤ 0xFFFFFFFF)
    ∧ (core0.dev.CanIssue (0 : Fin 128) 0 wSignal [] [] ∧ sgInRange wSignal = true ∧ sgIncReg wSignal = false)
    ∧ (let s := onLc (fun l => { l with sems := l.sems.set 31 1 })
       s.dev.CanIssue (0 : Fin 128) 0 wWait [] [] ∧ wtAmount (s.dev.lc 0) wWait ≤ (s.dev.lc 0).sem 0 (wtSem wWait) ∧ wtAmount (s.dev.lc 0) wWait ≠ 0)
    ∧ (core0.dev.CanIssue (0 : Fin 128) 0 (iw [(0, 0x62)]) [] [] ∧ (core0.dev.core 0).allDone 0 (core0.dev.lc 0).seq = true) :=
  ⟨⟨canIssue (by decide +kernel), by decide +kernel⟩, ⟨canIssue (by decide +kernel), by decide, by decide⟩,
    ⟨canIssue (by decide +kernel), by decide +kernel, by decide +kernel⟩, canIssue (by decide +kernel), by decide +kernel⟩

theorem scan_clean (f1 f2 : Bank Bool) (h : ∀ a, f2.get a = false) (n : Nat) : (imemScan f1 f2 0 n).2 = none := by
  induction n with
  | zero => rfl
  | succ n ih => simp [imemScan, h, ih]

theorem witness_CheckInstructions :
    (let w := iw [(0, 0x70), (8, 1), (12, 2)]
     let v := (core0.dev.lc 0).view (ckDreg w)
     core0.dev.CanIssue (0 : Fin 128) 0 w [] [] ∧ (core0.dev.lc 0).tensorOk (ckDreg w) = true ∧ core0.dev.inPad v = true
       ∧ issueFault (core0.dev.counting 0) (.core 0) [(v, false)] = none)
    ∧ (let w := iw [(0, 0x70), (8, 2)]
       let s := core0.mapDev (fun d => { d with ms := { d.ms with flip1 := d.ms.flip1.set (imemFlip 0 16383) true } })
       s.dev.CanIssue (0 : Fin 128) 0 w [] [] ∧ (imemScan s.dev.ms.flip1 s.dev.ms.flip2 0 16384).2 = none) :=
  ⟨⟨canIssue (by decide +kernel), by decide +kernel, by decide +kernel, by decide +kernel⟩, canIssue (by decide +kernel),
    scan_clean _ _ (fun _ => rfl) 16384⟩

def wYield : IWord := iw [(0, 0x80)]
def wSave : IWord := iw [(0, 0x80), (8, 1), (12, 4)]
def wRestore : IWord := iw [(0, 0x81), (12, 4)]
/-- Logical core 5 is ready for core 0 too. -/
def core05 : State := core0.mapDev (·.updLc 5 (fun l => { l with bound := true, phase := .yielded, orbit := 0 }))
/-- A valid context image of die 0 stands in the area that d4 names. -/
def imaged : State := core0.mapDev (fun d => { d with ms := { d.ms with mem := memWrite d.ms.mem (t1Base + 4) 1 1 } })

theorem witness_ContextInstructions :
    (core0.dev.CanIssue (0 : Fin 128) 0 wYield [] [] ∧
      (core0.dev.setLc 0 { (core0.dev.lc 0).counted.flow wYield with phase := .yielded }).nextReady 0 0 = some 0)
    ∧ (core05.dev.CanIssue (0 : Fin 128) 0 wYield [] [] ∧ (core05.dev.core 0).quiet = true ∧
      (core05.dev.setLc 0 { (core05.dev.lc 0).counted.flow wYield with phase := .yielded }).nextReady 0 0 = some 5)
    ∧ (core0.dev.CanIssue (0 : Fin 128) 0 wSave [] [] ∧ (core0.dev.core 0).quiet = true ∧ (core0.dev.lc 0).tensorOk (cxDreg wSave) = true
      ∧ (ctxAreaOf (core0.dev.counting 0) ((core0.dev.lc 0).view (cxDreg wSave))).isSome = true
      ∧ issueFault (core0.dev.counting 0) (.core 0) [((core0.dev.lc 0).view (cxDreg wSave), true)] = none)
    ∧ (imaged.dev.CanIssue (0 : Fin 128) 0 wRestore [] [] ∧ (imaged.dev.core 0).allDone 0 (imaged.dev.lc 0).seq = true
      ∧ ctxAreaOf (imaged.dev.counting 0) ((imaged.dev.lc 0).view 4) = some t1Base ∧ (imaged.dev.counting 0).imageOk t1Base 0 = true
      ∧ issueFault (imaged.dev.counting 0) (.core 0) [((imaged.dev.lc 0).view 4, false)] = none
      ∧ ((imaged.dev.counting 0).touchRange t1Base (t1Base + ctxSize)).2 = false)
    ∧ (core0.dev.CanIssue (0 : Fin 128) 0 (iw [(0, 0xF0)]) [] [] ∧ (core0.dev.core 0).allDone 0 (core0.dev.lc 0).seq = true) :=
  ⟨⟨canIssue (by decide +kernel), by decide +kernel⟩, ⟨canIssue (by decide +kernel), by decide +kernel, by decide +kernel⟩,
    ⟨canIssue (by decide +kernel), by decide +kernel, by decide +kernel, by decide +kernel, by decide +kernel⟩,
    ⟨canIssue (by decide +kernel), by decide +kernel, by decide +kernel, by decide +kernel, by decide +kernel, by decide +kernel⟩,
    canIssue (by decide +kernel), by decide +kernel⟩

/-! Witnesses for what happens in a core. -/

def issuer0 : Issuer := ⟨0, 0, 0, 0⟩
/-- A STREAM of one row and a step of it with its windows closed. -/
def stream1 (w : IWord) (next : Nat) : StreamRun :=
  { id := 0, who := issuer0, entry := mkEntry issuer0 w 0 0 false (tensor 0 1024 1 0 32 [(8, 1)]) 0 0, mode := 1, m := 1, n := 1, k := 1
    epi := 0, next := next, drained := 0, lastTag := Bank.const 0, finished := Bank.const false, feedFail := false, ended := false
    held := false, poison := false, status := 0 }
def step1 (due : Nat) : OpenStep :=
  { stream := 0, idx := 0, row := 0, acts := Bank.const 0, ascales := Bank.const 0x7F
    wins := (Bank.const ⟨0, false, 0, 0, .none⟩).set 0 ⟨0, true, 0, due, .none⟩, check := 0, lostSum := 0, poison := false }
def queuedSwap : State := onCore (fun c => { c with arrayQ := [mkEntry issuer0 (iw [(0, 0x02)]) 0 0 false 0 0 0] })
/-- The sets exchanged, with another WSWAP waiting. -/
def swapped : State := queuedSwap.mapDev (·.updCore 0 (fun c => { c with active := c.shadow, shadow := c.active }))

theorem witness_WeightSetEvents :
    (onCore (fun c => { c with load := some ⟨issuer0, WeightSet.blank, [], false⟩ })).dev.core 0
      = { core0.dev.core 0 with load := some ⟨issuer0, WeightSet.blank, [], false⟩ }
    ∧ (queuedSwap.dev.core 0).canExchange = true ∧ (swapped.dev.core 0).active = (queuedSwap.dev.core 0).shadow
    ∧ (swapped.dev.core 0).shadow = (queuedSwap.dev.core 0).active ∧ (swapped.dev.core 0).canExchange = true := by decide +kernel

def plainW : IWord := iw [(0, 0x03)]
def feedW : IWord := iw [(0, 0x03), (22, 1)]
def handW : IWord := iw [(0, 0x03), (24, 1)]
def bound0 : State := (onCore (fun c => { c with streams := [stream1 plainW 1], steps := [step1 1] })).mapDev (·.updComa 0 (fun e =>
  { e with bindings := [⟨0, 0, none, none⟩] }))
def closedStep (w : IWord) : State := onCore (fun c => { c with streams := [stream1 w 1], steps := [step1 0], handoff := List.replicate 7 ⟨Bank.const 0, false⟩ })

/-- A STREAM with a step to start while 15 are open. -/
def starting (w : IWord) : State := onCore (fun c => { c with streams := [stream1 w 0], steps := List.replicate 15 (step1 1) })
def mayStep (w : IWord) : Bool :=
  let p := (starting w).dev.pump 0
  !p.holding 0 && !(p.core 0).fenced && !(p.core 0).retired && (p.core 0).canStep && nextStarter (p.core 0).streams == some (stream1 w 0)
def mayDrain (w : IWord) : Bool :=
  let c := (closedStep w).dev.core 0
  c.steps == [step1 0] && findStream (step1 0).stream c.streams == some (stream1 w 1) && !(step1 0).isOpen && c.pendingRepeat.isNone && !c.fenced
    && !c.retired && decide (c.handoff.length < 8)

theorem witness_StreamEvents :
    mayStep plainW = true ∧ stFeed plainW = false ∧ mayStep feedW = true ∧ stFeed feedW = true
    ∧ (bound0.dev.boundEngine 0 = some 0 ∧ (bound0.dev.coma 0).fenced = false ∧ (bound0.dev.coma 0).retired = false)
    ∧ mayDrain plainW = true ∧ mayDrain handW = true ∧ stHandoff handW = true
    ∧ (finishedStream [{ stream1 plainW 1 with drained := 1 }]).isSome = true := by
  refine ⟨?_, ?_, ?_, ?_, ⟨?_, ?_, ?_⟩, ?_, ?_, ?_, ?_⟩ <;> decide +kernel

/-- A VOP that is done, a MOVE that has copied, an MCAST that holds its copy for logical core 127. -/
def doneVop : VecRun :=
  { who := issuer0, word := iw [(0, 0x10), (16, 2), (20, 2), (24, 3)], sval := 0, sPoison := false, dd := 0, da := 0, db := 0, dc := 0
    failGroup := none, rows := 0, done := true, held := false, status := 0 }
def copied (op : Nat) (members : List Nat) : MoveRun := ⟨issuer0, iw [(0, op)], tensor 0 0 0 0 32 [], tensor 0 0 0 0 32 [], true, [], false, members⟩

theorem witness_QueueCompletions :
    (((onCore (fun c => { c with vecQ := [doneVop] })).dev.vpump 0).core 0).vecQ = [doneVop]
    ∧ (((onCore (fun c => { c with moveQ := [copied 0x20 []] })).dev.mpump 0).core 0).moveQ = [copied 0x20 []] ∧ isMcast (iw [(0, 0x20)]) = false
    ∧ (let m := (onCore (fun c => { c with moveQ := [copied 0x21 [0, 127]] })).dev.mpump 0
       (m.core 0).moveQ = [copied 0x21 [0, 127]] ∧ isMcast (iw [(0, 0x21)]) = true ∧ [0, 127].contains 127 = true
       ∧ m.runs? 0 = true ∧ m.runs? 127 = false ∧ imgHeld m.ms.mem (ctxArea 127) < 16)
    ∧ ((onCore (fun c => { c with takes := [⟨issuer0, 63, 5, iw [(0, 0x50)]⟩] })).dev.core 0).takes = [⟨issuer0, 63, 5, iw [(0, 0x50)]⟩] := by
  decide +kernel

def flight : SigFlight := ⟨none, 0, 0, 0, 31, 1, 0⟩
/-- A run of orbit n at slot and time 0. -/
def run0 (n : Nat) : OrbitRun :=
  { num := n, slot := 0, start := 0, reason := 0, reasonUnit := 0, reasonStatus := 0, stop := none, ended := false, voteDue := false
    voteSent := false, votePass := false, closed := false, passed := false, votes := Bank.const 0, voidSeen := false, voided := false
    persistent := none, deadline := false, skips := false, held := false, stale := false, fallbacks := 0, corrected := 0
    degraded := false, probe := false, retracted := 0, outcome := 0, stepValue := 0, epoch := 1, stepFold := 0, updated := false
    normClosed := false, endStatus := none, completed := false }

theorem witness_SignalAndCounterEvents :
    (let s := core0.mapDev (fun d => { d with signals := [flight, { flight with sem := 0 }] })
     s.dev.signals[1]? = some { flight with sem := 0 } ∧ s.dev.released { flight with sem := 0 } = true)
    ∧ (let s := State.reset.mapDev (fun d => { d with runs := [run0 1] })
       lastOfParity 1 s.dev.runs = some 1 ∧ ∀ i ∈ s.dev.dieCores 3, (s.dev.lc i).overWith 1 = true) := by decide +kernel

theorem witness_CheckRepeatPasses :
    (let c := (onCore (fun c => { c with streams := [{ stream1 plainW 1 with held := true }], steps := [step1 0], pendingRepeat := some (.step 0 0) })).dev.core 0
     c.pendingRepeat = some (.step 0 0) ∧ (findStream 0 c.streams).isSome = true ∧ findStep 0 0 c.steps = some (step1 0) ∧ c.fenced = false ∧ c.retired = false)
    ∧ (∀ r ∈ [RepeatScope.group 0, .array], ((onCore (fun c => { c with pendingRepeat := some r })).dev.core 0).pendingRepeat = some r) := by
  decide +kernel

/-! Witnesses for Coma commands: engine 0 holds one command, of a header's fields and three operands. -/

def cmd (h : List (Nat × Nat)) (a b c : Desc) : ComaCmd := ⟨issuer0, 0, BitVec.ofNat 256 (fields h), some a, some b, some c⟩
def engine (c : ComaCmd) : State :=
  core0.mapDev (fun d => { d.updComa 0 (fun e => { e with queue := [c] }) with
    dies := d.dies.upd 0 (fun k => { k with seqTable := k.seqTable.set 0 (BitVec.ofNat 128 (fields [(63, 1), (24, 2)])) }) })
/-- What ComaReady asks of engine 0, as a check. -/
def ready (c : ComaCmd) (op : Nat) : Bool :=
  let d := (engine c).dev
  (d.coma 0).queue == [c] && hOp c.hdr == op && !(d.coma 0).fenced && !(d.coma 0).retired && !d.seqWait 0 c
    && !(d.health.get (unitComa 0)).failedOrbit && !(d.coma 0).pendingRepeat
theorem comaReady {c : ComaCmd} {op : Nat} (h : ready c op = true) : (engine c).dev.ComaReady 0 op c := by
  simp only [ready, Bool.and_eq_true, beq_iff_eq, Bool.not_eq_true'] at h
  exact ⟨⟨[], h.1.1.1.1.1.1⟩, h.1.1.1.1.1.2, ⟨h.1.1.1.1.2, h.1.1.1.2⟩, h.1.1.2, h.1.2, h.2⟩

def rows8 : Desc := tensor 0 0 0 0 32 [(8, 1)]
def listAt : Desc := tensor 0 4096 0 0 32 []
def rowsTo : Desc := tensor 0 8192 0 0 32 [(8, 1)]
def cRows : ComaCmd := cmd [(0, 0x01), (32, 2)] rows8 listAt rowsTo
def cSeq : ComaCmd := cmd [(0, 0x02), (32, 8)] rows8 listAt rowsTo
def cFeed : ComaCmd := cmd [(0, 0x01), (21, 1), (32, 2)] rows8 listAt rowsTo

def gathers (c : ComaCmd) (ob : Option View) (l : List (Nat × Nat)) : Bool :=
  let d := (engine c).dev
  let q : Req := .coma 0 (d.padOf c)
  !hFeed c.hdr && hCount c.hdr != 0 && c.aligned && rowsOk c.a c.c && ob.all (·.wr) && (gatherIndices d q 0 c).toOption == some l
    && l.all (fun e => e.1 == sentinel || (decide (e.1 < c.a.comaRows) && (rowFault d q c.a false e.1).isNone))
    && (List.range l.length).all (fun i => (rowFault d q c.c true i).isNone && ob.all (fun o => (regionFault d q o true (4 * i) 4).isNone))

theorem witness_GatherCommands :
    gathers cRows none [(0, 0), (0, 0)] = true ∧ (engine cRows).dev.ComaReady 0 0x01 cRows
    ∧ gathers cSeq (some (viewOf listAt)) [(0, 0), (1, 1)] = true ∧ (engine cSeq).dev.ComaReady 0 0x02 cSeq
    ∧ hFeed cFeed.hdr = true ∧ (engine cFeed).dev.ComaReady 0 0x01 cFeed :=
  ⟨by decide +kernel, comaReady (by decide +kernel), by decide +kernel, comaReady (by decide +kernel), by decide, comaReady (by decide +kernel)⟩

def slots3 : Desc := tensor 0 8192 0 0 32 [(2, 1), (4, 2)]
def cScatter : ComaCmd := cmd [(0, 0x11), (32, 1)] rows8 listAt rowsTo
def cSlot : ComaCmd := cmd [(0, 0x12), (32, 1), (80, 2)] rows8 listAt slots3
def cSum : ComaCmd := cmd [(0, 0x23), (32, 4), (80, 2)] slots3 listAt rows8

def scatters (c : ComaCmd) : Bool :=
  let d := (engine c).dev
  let q : Req := .coma 0 (d.padOf c)
  let l : List (Nat × Nat) := [(0, 0)]
  hCount c.hdr != 0 && c.aligned && (readList d q c.b c.hdr).toOption == some l && (rowFault d q c.a false 0).isNone && (rowFault d q c.c true 0).isNone
    && decide (0 < c.c.comaRows)

theorem witness_ScatterCommands :
    (scatters cScatter = true ∧ rowsOk cScatter.a cScatter.c = true ∧ (engine cScatter).dev.ComaReady 0 0x11 cScatter)
    ∧ (scatters cSlot = true ∧ cSlot.a.fmt = 0 ∧ cSlot.a.layout = 0 ∧ slotBuf cSlot.c (hSlots cSlot.hdr) = true ∧ cSlot.a.comaLen = cSlot.c.inner
      ∧ (engine cSlot).dev.ComaReady 0 0x12 cSlot)
    ∧ (slotBuf cSum.a (hSlots cSum.hdr) = true ∧ cSum.c.layout = 0 ∧ cSum.c.wr = true ∧ cSum.c.comaLen = cSum.a.inner
      ∧ hCount cSum.hdr = cSum.a.comaRows ∧ cSum.aligned = true ∧ (engine cSum).dev.ComaReady 0 0x23 cSum
      ∧ ∀ i < 4, rowFault (engine cSum).dev (.coma 0 0) cSum.a true i = none ∧ rowFault (engine cSum).dev (.coma 0 0) cSum.c true i = none) := by
  refine ⟨⟨?_, ?_, comaReady ?_⟩, ⟨?_, ?_, ?_, ?_, ?_, comaReady ?_⟩, ?_, ?_, ?_, ?_, ?_, ?_, comaReady ?_, ?_⟩ <;> decide +kernel

/-- The first of eight columns is selected away; the source is native. -/
def cCols : ComaCmd := cmd [(0, 0x03), (32, 8)] rows8 listAt rowsTo
def cSpread : ComaCmd := cmd [(0, 0x13), (32, 32)] rows8 listAt rowsTo
def cRoute : ComaCmd := cmd [(0, 0x04), (32, 8), (64, 32), (80, 8), (96, 1)] rows8 listAt (tensor 0 8192 0 0 32 [(32, 1)])
/-- A compressed source: no column of it is selected. -/
def cTiles : ComaCmd := cmd [(0, 0x03), (32, 8)] (tensor 0 0 1 2 32 [(8, 1)]) listAt (tensor 0 8 1 2 32 [(8, 1)])

def columns (c : ComaCmd) : Bool :=
  let d := (engine c).dev
  let q : Req := .coma 0 (d.padOf c)
  hCount c.hdr != 0 && c.aligned && c.c.wr && (regionFault d q c.b false 0 ((hCount c.hdr + 7) / 8)).isNone && (viewFault d q c.a false).isNone
    && (viewFault d q c.c true).isNone

theorem witness_ColumnAndRouteCommands :
    (columns cCols = true ∧ (engine cCols).dev.ComaReady 0 0x03 cCols ∧ cCols.a.fmt = cCols.c.fmt ∧ cCols.a.layout = 0 ∧ cCols.c.layout = 0
      ∧ cCols.a.rank = 2 ∧ cCols.c.rank = 2 ∧ hCount cCols.hdr = (cCols.a.dims.getD 1 ⟨1, 0, 0, 0⟩).view ∧ cCols.a.inner = cCols.c.inner)
    ∧ (columns cTiles = true ∧ (engine cTiles).dev.ComaReady 0 0x03 cTiles ∧ cTiles.a.layout = 2 ∧ cTiles.c.layout = 2
      ∧ packSound (engine cTiles).dev 0 cTiles.a (selection (engine cTiles).dev 0 cTiles.b 8) = true
      ∧ (packTiles (engine cTiles).dev 0 cTiles.a cTiles.c (selection (engine cTiles).dev 0 cTiles.b 8)).1 = true)
    ∧ (columns cSpread = true ∧ (engine cSpread).dev.ComaReady 0 0x13 cSpread ∧ cSpread.a.rows = cSpread.c.rows ∧ hCount cSpread.hdr = cSpread.c.inner)
    ∧ (columns cRoute = true ∧ (engine cRoute).dev.ComaReady 0 0x04 cRoute ∧ hTopk cRoute.hdr = 8 ∧ cRoute.a.inner = hExperts cRoute.hdr
      ∧ hCount cRoute.hdr = cRoute.a.rows ∧ hExperts cRoute.hdr * routeStride (hCapacity cRoute.hdr) ≤ viewBytes (engine cRoute).dev cRoute.c
      ∧ regionFault (engine cRoute).dev (.coma 0 0) cRoute.c true 0 (hExperts cRoute.hdr * routeStride (hCapacity cRoute.hdr)) = none) := by
  refine ⟨⟨?_, comaReady ?_, ?_, ?_, ?_, ?_, ?_, ?_, ?_⟩, ⟨?_, comaReady ?_, ?_, ?_, ?_, ?_⟩, ⟨?_, comaReady ?_, ?_, ?_⟩, ?_, comaReady ?_, ?_, ?_, ?_, ?_, ?_⟩
    <;> decide +kernel

def cLoad : ComaCmd := cmd [(0, 0x05)] rows8 listAt rowsTo
def cBind : ComaCmd := cmd [(0, 0x21), (96, 65536)] rows8 listAt rowsTo
def cUnbind : ComaCmd := cmd [(0, 0x22)] rows8 listAt rowsTo

theorem seqBad_zeros (n : Nat) : seqBad (List.replicate n 0) = false := by
  induction n with
  | zero => rfl
  | succ n ih => rw [List.replicate_succ, seqBad, ih]; rfl

theorem witness_TableCommands :
    ((engine cLoad).dev.ComaReady 0 0x05 cLoad ∧ cLoad.aligned = true ∧ regionFault (engine cLoad).dev (.coma 0 0) cLoad.a false 0 32768 = none
      ∧ seqBad (List.replicate 2048 0) = false)
    ∧ ((engine cBind).dev.ComaReady 0 0x21 cBind ∧ storeUsed ((engine cBind).dev.coma 0).bindings + 2 * hShare cBind.hdr = 131072
      ∧ ∀ j < 8, ((engine cBind).dev.coma j).bindings = [])
    ∧ ((engine cUnbind).dev.ComaReady 0 0x22 cUnbind ∧ ((engine cUnbind).dev.core 0).steps = []) := by
  refine ⟨⟨comaReady ?_, ?_, ?_, seqBad_zeros 2048⟩, ⟨comaReady ?_, ?_, ?_⟩, comaReady ?_, ?_⟩ <;> decide +kernel

/-- Parameters at the start of tier 1, clear or with ENABLED set. -/
def audited (c : ComaCmd) (on : Bool) : Dev :=
  let d := (engine c).dev
  if on then { d with ms := { d.ms with mem := memWrite d.ms.mem (t1Base + 8) 1 0x80 } } else d
def half8 : Desc := tensor 0 0 1 0 32 [(8, 1)]
def cAudit : ComaCmd := cmd [(0, 0x24), (128, 8)] half8 listAt half8
def cClose : ComaCmd := cmd [(0, 0x25)] half8 listAt half8
def params (c : ComaCmd) (on : Bool) : Bool :=
  let d := audited c on
  let p := auditParams d (hParam c.hdr)
  (paramFault d (.coma 0 0) false (hParam c.hdr) 64).isNone && hParam c.hdr % 64 == 0 && !p.reserved && decide (p.shift ≤ 16) && p.enabled == on

theorem witness_AuditCommands :
    params cAudit false = true ∧ params cAudit true = true ∧ params cClose false = true ∧ params cClose true = true
    ∧ (engine cAudit).dev.ComaReady 0 0x24 cAudit ∧ (engine cClose).dev.ComaReady 0 0x25 cClose
    ∧ (let d := audited cAudit true
       let p := auditParams d 0
       cAudit.aligned = true ∧ is16 cAudit.a.fmt = true ∧ is16 cAudit.c.fmt = true ∧ hColFirst cAudit.hdr + hColCount cAudit.hdr
         = (cAudit.a.dims.getD 1 ⟨1, 0, 0, 0⟩).view ∧ p.passRows = 0 ∧ p.chunkRows % p.rows = 0 ∧ viewFault d (.coma 0 0) cAudit.a false = none
         ∧ viewFault d (.coma 0 0) cAudit.c false = none ∧ regionFault d (.coma 0 0) cAudit.b false 0 1 = none
         ∧ ∀ r ∈ auditRuns p cAudit.a.inner 8, paramFault d (.coma 0 0) false r.1 r.2 = none)
    ∧ (let p := auditParams (audited cClose true) 0
       p.record % 32 = 0 ∧ paramFault (audited cClose true) (.coma 0 0) true p.record 32 = none) := by
  refine ⟨?_, ?_, ?_, ?_, comaReady ?_, comaReady ?_, ?_, ?_⟩ <;> decide +kernel

/-! Witnesses for the memory-side units and the orbits. -/

/-- A plan in force over core0: segment 3 is FROZEN; views 0 to 3 lie in tier 1, 4 in the FROZEN segment. Command 0 is UPDATE, 1
UPDATE_VEC, 2 SMUL; command 3 updates the FROZEN view. List 0 of unit 0 starts at one signal. -/
def frozen : BitVec 128 := BitVec.ofNat 128 (fields [(127, 1), (105, 1), (104, 1), (103, 1), (96, 2), (48, 65536), (0, 65536)])
def planned : State := core0.mapDev (fun d => { d with
  segs := d.segs.set 3 frozen
  plan := { d.plan with
    installed := true, modules := 2, descCount := 6
    descs := (((((d.plan.descs.set 0 (tensor 1 0 1 0 32 [(1, 1)])).set 1 (tensor 1 1024 0 0 32 [(1, 1)])).set 2 (tensor 1 2048 0 0 32 [(1, 1)])).set 3
      (tensor 1 4096 0 0 32 [(1, 1)])).set 4 (tensor 3 0 1 0 32 [(1, 1)])).set 5 (tensor 1 8192 1 0 32 [(1, 1)])
    weights := (d.plan.weights.set 0 (BitVec.ofNat 256 (fields [(64, 0), (80, 0xFFFF), (96, 0xFFFF), (112, 1)]))).set 1
      (BitVec.ofNat 256 (fields [(64, 4), (80, 0xFFFF), (96, 0xFFFF), (112, 1)])) }
  msuPlan := { d.msuPlan with
    normDesc := Bank.const 3
    lists := d.msuPlan.lists.set 0 ⟨1, 0, 0, 1⟩
    cmds := (((d.msuPlan.cmds.set 0 (BitVec.ofNat 512 (fields [(0, 0x01), (96, 2), (112, 0xFFFF), (128, 0xFFFF), (144, 0xFFFF)]))).set 1
      (BitVec.ofNat 512 (fields [(0, 0x02), (64, 0), (80, 1), (96, 2), (112, 0xFFFF), (128, 0xFFFF), (144, 0xFFFF)]))).set 2
      (BitVec.ofNat 512 (fields [(0, 0x10), (64, 0), (80, 5), (96, 2), (336, 1)]))).set 3
      (BitVec.ofNat 512 (fields [(0, 0x01), (64, 1), (96, 2), (112, 0xFFFF), (128, 0xFFFF), (144, 0xFFFF)])) } })
/-- A list of unit 0 is at command c. -/
def atCmd (c : Nat) : State := planned.mapDev (·.updMsu 0 (fun m => { m with runs := [⟨0, c, 1⟩] }))
def passOne (c : Nat) (op : Nat) : Bool :=
  let d := (atCmd c).dev
  let o := d.updOps (d.ucmd c)
  (firstRunFault d (.msu 0) true o.targets).isNone && (firstRunFault d (.msu 0) false [o.g]).isNone && d.headCmd op (d.msu 0).runs == some (0, c)
    && (d.msu 0).pass2.isEmpty && !(d.msu 0).repeatUpd && !(d.msu 0).fenced && !(d.msu 0).dead

theorem witness_MemorySideUnitCommands :
    (let d := (planned.mapDev (·.updMsu 0 (fun m => { m with sems := m.sems.set 0 1 }))).dev
     (d.msuList 0 0).count = 1 ∧ (d.msu 0).ran.get 0 = false ∧ (d.msuList 0 0).threshold = ((d.msu 0).sems.get (msuSemKey (d.msu 0).orbit 0)).toNat)
    ∧ passOne 0 opUpdate = true ∧ frozenFault (atCmd 0).dev ((atCmd 0).dev.updOps ((atCmd 0).dev.ucmd 0)).targets = none
    ∧ passOne 1 opUpdateVec = true ∧ frozenFault (atCmd 1).dev ((atCmd 1).dev.updOps ((atCmd 1).dev.ucmd 1)).targets = none
    ∧ passOne 3 opUpdate = true ∧ (frozenFault (atCmd 3).dev ((atCmd 3).dev.updOps ((atCmd 3).dev.ucmd 3)).targets).isSome = true
    ∧ (atCmd 3).dev.msuPlan.strict = false
    ∧ (let d := (atCmd 2).dev
       let e := d.ucmd 2
       let w := d.listView (ueWDesc e)
       let x := d.listView (ueGDesc e)
       let y := d.listView (ueMaster e)
       d.headCmd opSmul (d.msu 0).runs = some (0, 2) ∧ (d.msu 0).repeatMul = false ∧ smulBad w x y (ueNFirst e) (ueNCount e) (ueAcc e) = false
         ∧ firstRunFault d (.msu 0) false [w, x] = none ∧ firstRunFault d (.msu 0) true [y] = none ∧ frozenFault d [y] = none
         ∧ paramFault d (.msu 0) false (ueTscale e) 8 = none ∧ w.inner ≠ 0) := by
  refine ⟨?_, ?_, ?_, ?_, ?_, ?_, ?_, ?_, ?_⟩ <;> decide +kernel

/-- Pass 2 of command c is due: of one patch of 32 × 32, or of two. -/
def passTwo (c patch : Nat) (skip : Bool) : State := planned.mapDev (fun d => { d.updMsu 0 (fun m => { m with
  pass2 := [c], skipped := m.skipped.set c skip, patch := patch }) with
    runs := [run0 0], plan := { d.plan with descs := (d.plan.descs.set 5 (tensor 1 0 1 0 64 [(1, 2)])).set 1 (tensor 1 1024 0 0 64 [(1, 2)])
                                            weights := d.plan.weights.set 0 (BitVec.ofNat 256 (fields [(64, 5), (80, 0xFFFF), (96, 0xFFFF), (112, 1)])) } })
def patches (c : Nat) : Nat :=
  let d := (passTwo c 0 false).dev
  patchCount (d.updOps (d.ucmd c)) (ueRule (d.ucmd c)) (rbBlock (d.msuPlan.rules.get (ueBlock (d.ucmd c))))

theorem witness_UpdatePassTwo :
    ((passTwo 0 0 true).dev.msu 0).pass2 = [0] ∧ (findRun ((passTwo 0 0 true).dev.msu 0).p2Orbit (passTwo 0 0 true).dev.runs).isSome = true
    ∧ ((passTwo 0 0 true).dev.msu 0).skipped.get 0 = true ∧ ((passTwo 0 0 false).dev.msu 0).skipped.get 0 = false ∧ patches 0 = 2
    ∧ ((passTwo 0 1 false).dev.msu 0).patch + 1 = patches 0 ∧ ((passTwo 0 0 false).dev.msu 0).patch + 1 < patches 0
    ∧ ((passTwo 0 0 true).dev.msu 0).fenced = false ∧ ((passTwo 0 0 true).dev.msu 0).repeatUpd = false := by
  refine ⟨?_, ?_, ?_, ?_, ?_, ?_, ?_, ?_, ?_⟩ <;> decide +kernel

/-- The module runs one orbit. -/
def running (r : OrbitRun) : State := planned.mapDev (fun d => { d with runs := [r] })
def start0 (count begun : Nat) : StartCmd := ⟨0, 0, 0, 0, count, begun, 0, false⟩
/-- An orbit that meets the four conditions of R234, on a module with no logical core bound. -/
def endedRun : OrbitRun := { run0 0 with ended := true, closed := true, outcome := 1, updated := true }
def complete : State :=
  { State.reset with dev := { State.reset.dev with runs := [endedRun] }, fab := { State.reset.fab with start := some (start0 1 1) } }
def armed : State := { State.reset with fab := { State.reset.fab with start := some (start0 2 0) } }

theorem witness_OrbitEvents :
    ((running { run0 0 with closed := true }).dev.exchRun = some { run0 0 with closed := true }
      ∧ (running { run0 0 with closed := true }).dev.plan.installed = true ∧ (running { run0 0 with closed := true }).dev.recordsIn = false)
    ∧ (running (run0 0)).dev.curRun = some (run0 0)
    ∧ (complete.dev.oldestRun = some endedRun ∧ complete.orbitDone endedRun = true)
    ∧ ((doOrbitEnd (doNormDeadlineAt armed)).dev.runs = [] ∧ (doOrbitEnd (doNormDeadlineAt armed)).barred = none
      ∧ (((doOrbitEnd (doNormDeadlineAt armed)).atStartSlot (start0 2 0)).dev.rebindAll).isSome = true) := by
  refine ⟨⟨?_, ?_, ?_⟩, ?_, ⟨?_, ?_⟩, ?_, ?_, ?_⟩ <;> decide +kernel

/-! Entries with their MAC. Bytes 48 to 63 of an entry enter no check but the MAC's own. -/
def session0 : Session := ⟨1, 5, 3, 0, 0, 0, 0, Bank.const 0⟩

/-- Two entries agree in bytes 0 to 47. -/
def Alike (e f : Entry64) : Prop := e.setWidth 384 = f.setWidth 384
theorem alike_mod {e f : Entry64} (h : Alike e f) : e.toNat % 2 ^ 384 = f.toNat % 2 ^ 384 := by
  have k := congrArg BitVec.toNat h
  simpa only [BitVec.toNat_setWidth] using k
theorem alike_bit {e f : Entry64} (h : Alike e f) (i : Nat) (hi : i < 384) : bitOf e i = bitOf f i := by
  have k := congrArg (fun x => x.getLsbD i) h
  simpa [bitOf, BitVec.getLsbD_setWidth, hi] using k
theorem alike_bits {e f : Entry64} (h : Alike e f) (hi lo : Nat) (k : hi < 384) : bitsOf e hi lo = bitsOf f hi lo := by
  apply Nat.eq_of_testBit_eq
  intro i
  simp only [bitsOf, Nat.testBit_mod_two_pow, Nat.testBit_shiftRight]
  by_cases c : i < hi + 1 - lo
  · have := alike_bit h (lo + i) (by omega)
    simpa [c, bitOf, BitVec.getLsbD] using this
  · simp [c]
theorem alike_setBits {e f : Entry64} (h : Alike e f) (hi lo v : Nat) : Alike (setBits e hi lo v) (setBits f hi lo v) := by
  unfold Alike at *
  simp only [setBits, BitVec.setWidth_or, BitVec.setWidth_and, h]
theorem alike_fold (l : List (Nat × Nat)) {e f : Entry64} (h : Alike e f) :
    Alike (l.foldl (fun x r => setBits x r.1 r.2 0) e) (l.foldl (fun x r => setBits x r.1 r.2 0) f) := by
  induction l generalizing e f with
  | nil => exact h
  | cons r l ih => exact ih (alike_setBits h _ _ _)

/-- What the checks and the waiting of a command read of its entry, and what its meaning reads. -/
theorem alike_op {e f : Entry64} (h : Alike e f) : eOp e = eOp f := alike_bits h _ _ (by decide)
theorem alike_reserved {e f : Entry64} (h : Alike e f) : eReservedZero e = eReservedZero f := by
  unfold eReservedZero
  rw [alike_op h, alike_mod (alike_fold _ h)]
theorem alike_range {e f : Entry64} (h : Alike e f) : eInRange e = eInRange f := by
  have k := alike_bits h
  unfold eInRange
  simp (disch := decide) only [eOp, eb, eLen32, eCount, eConvert, eFormat, eOffset, eLength, eItem, eIndex, eReplyLen, eKind, eDomain,
    alike_bit h, k]
  rfl
theorem alike_fence {e f : Entry64} (h : Alike e f) (s : State) : s.hostFenced e = s.hostFenced f := by
  simp (disch := decide) only [State.hostFenced, eOp, eb, eKind, alike_bits h]
theorem alike_always {e f : Entry64} (h : Alike e f) : eAlways e = eAlways f := by
  simp (disch := decide) only [eAlways, eOp, eb, eKind, alike_bits h]
set_option exponentiation.threshold 512 in
theorem alike_mac {e f : Entry64} (h : Alike e f) (x : Session) (k n : Nat) : x.mac k n e = x.mac k n f := by
  have g (n : Nat) (a b : Nat) (k : a % 256 ^ n = b % 256 ^ n) : leBytes n a = leBytes n b := by
    induction n generalizing a b with
    | zero => rfl
    | succ n ih =>
      simp only [leBytes, List.cons.injEq]
      rw [Nat.pow_succ] at k
      constructor
      · apply BitVec.eq_of_toNat_eq
        simp only [BitVec.toNat_ofNat]
        have := congrArg (· % 256) k
        simpa using this
      · apply ih
        have := congrArg (· / 256) k
        simpa [Nat.mod_mul_left_div_self] using this
  unfold Session.mac
  rw [g 48 e.toNat f.toNat (by rw [show (256 : Nat) ^ 48 = 2 ^ 384 from (Nat.pow_mul 2 8 48).symm]; exact alike_mod h)]

/-- The entry of `b` in bytes 0 to 47, with the MAC that the first command of queue 0 of port 0 needs. -/
def signed (x : Session) (b : Entry64) : Entry64 :=
  BitVec.ofNat 512 (b.toNat % 2 ^ 384 + 2 ^ 384 * leNat (x.mac 0 (x.cmdNumber.get 0) b))
theorem mac_length (x : Session) (k n : Nat) (e : Entry64) : (x.mac k n e).length = 16 := by
  simp [Session.mac, hmac384_length]
set_option exponentiation.threshold 512 in
theorem signed_toNat (x : Session) (b : Entry64) :
    (signed x b).toNat = b.toNat % 2 ^ 384 + 2 ^ 384 * leNat (x.mac 0 (x.cmdNumber.get 0) b) := by
  have h1 : b.toNat % 2 ^ 384 < 2 ^ 384 := Nat.mod_lt _ (by decide)
  have h2 := leNat_lt (x.mac 0 (x.cmdNumber.get 0) b)
  rw [mac_length, show (256 : Nat) ^ 16 = 2 ^ 128 by decide] at h2
  rw [signed, BitVec.toNat_ofNat, Nat.mod_eq_of_lt]
  have : (2 : Nat) ^ 512 = 2 ^ 384 * 2 ^ 128 := by decide
  rw [this]
  generalize (2 : Nat) ^ 384 = P at *
  generalize leNat (x.mac 0 (x.cmdNumber.get 0) b) = L at *
  generalize (2 : Nat) ^ 128 = R at *
  have : P * (L + 1) ≤ P * R := Nat.mul_le_mul_left _ h2
  rw [Nat.mul_add, Nat.mul_one] at this
  omega
theorem signed_alike (x : Session) (b : Entry64) : Alike (signed x b) b := by
  apply BitVec.eq_of_toNat_eq
  simp only [BitVec.toNat_setWidth, signed_toNat, Nat.add_mul_mod_self_left, Nat.mod_mod]
set_option exponentiation.threshold 512 in
theorem signed_mac (x : Session) (b : Entry64) : x.mac 0 (x.cmdNumber.get 0) (signed x b) = macOf (signed x b) := by
  rw [alike_mac (signed_alike x b), macOf, eb, bitsOf, signed_toNat, Nat.shiftRight_eq_div_pow,
    Nat.add_mul_div_left _ _ (Nat.two_pow_pos _ : 0 < 2 ^ (8 * 48)), Nat.div_eq_of_lt (Nat.mod_lt _ (by decide)), Nat.zero_add, Nat.mod_eq_of_lt]
  · have := leBytes_leNat (x.mac 0 (x.cmdNumber.get 0) b)
    rw [mac_length] at this
    exact this.symm
  · have := leNat_lt (x.mac 0 (x.cmdNumber.get 0) b)
    rw [mac_length] at this
    simpa using this

/-- A command passes every check but the MAC's. -/
def hostReady (s : State) (b : Entry64) : Bool :=
  (s.port 0).state == 2 && s.hst.waiting.isEmpty && !s.resetPending 0 && !s.hostFenced b && eReservedZero b && eInRange b
    && (!s.pwr.umbra || eAlways b)
theorem fetches_signed {s : State} {x : Session} {b : Entry64} (k : s.sec.session = some x) (r : hostReady s b = true) :
    s.Fetches 0 0 0 (signed x b) := by
  simp only [hostReady, Bool.and_eq_true, beq_iff_eq, List.isEmpty_iff, Bool.not_eq_true', Bool.or_eq_true] at r
  obtain ⟨⟨⟨⟨⟨⟨r1, r2⟩, r3⟩, r4⟩, r5⟩, r6⟩, r7⟩ := r
  have h := signed_alike x b
  refine ⟨r1, r2, r3, (alike_fence h s).trans r4, ⟨(alike_reserved h).trans r5, (alike_range h).trans r6⟩, ?_, ?_⟩
  · rw [k]; exact signed_mac x b
  · intro u
    rw [alike_always h]
    rcases r7 with r7 | r7
    · rw [u] at r7; exact absurd r7 (by decide)
    · exact r7
/-- A command that runs while no session is open. -/
theorem fetches_open {s : State} {e : Entry64} (k : s.sec.session = none) (r : hostReady s e = true) (x : eExempt e = true) :
    s.Fetches 0 0 0 e := by
  simp only [hostReady, Bool.and_eq_true, beq_iff_eq, List.isEmpty_iff, Bool.not_eq_true', Bool.or_eq_true] at r
  obtain ⟨⟨⟨⟨⟨⟨r1, r2⟩, r3⟩, r4⟩, r5⟩, r6⟩, r7⟩ := r
  refine ⟨r1, r2, r3, r4, ⟨r5, r6⟩, ?_, ?_⟩
  · rw [k]; exact x
  · intro u
    rcases r7 with r7 | r7
    · rw [u] at r7; exact absurd r7 (by decide)
    · exact r7

/-- A port that is UP, on a module that is ready. -/
def hosted (s : State) : State :=
  { s with hst := { s.hst with ports := s.hst.ports.set 0 { s.port 0 with state := 2, keyed := true } } }
def withSession (s : State) : State := { s with sec := { s.sec with session := some session0 } }
def awake : State := hosted (withSession State.reset)
def entry (l : List (Nat × Nat)) : Entry64 := BitVec.ofNat 512 (fields l)
/-- The base point of P-384 as a public key. -/
def basePub : List Byte := 0x04 :: (beBytes 48 p384g.1 ++ beBytes 48 p384g.2)
def mac0 (l : List (Nat × Nat)) : Entry64 := signed session0 (entry l)
theorem mac0_alike (l : List (Nat × Nat)) : Alike (mac0 l) (entry l) := signed_alike _ _
theorem mac0_bits (l : List (Nat × Nat)) (hi lo : Nat) (k : hi < 384) : bitsOf (mac0 l) hi lo = bitsOf (entry l) hi lo :=
  alike_bits (mac0_alike l) hi lo k
theorem mac0_op (l : List (Nat × Nat)) (op : Nat) (k : eOp (entry l) = op) : eOp (mac0 l) = op := (alike_op (mac0_alike l)).trans k

/-! Witnesses for links, transfers and control messages. -/

/-- A schedule entry of Table 13-7 on link 0 of IOA, from tick 8 on, one payload frame, 100 ticks of slack. -/
def sched (stream : Nat) (recv : Bool) (class_ endpoint region : Nat) : BitVec 256 :=
  BitVec.ofNat 256 (fields [(225, 8), (219, boolNat recv), (217, class_), (215, endpoint), (205, stream), (168, 1), (152, 100), (136, 0), (119, region)])
def upLink : Link := { Link.init with state := 2, credits := 512, keys := some (1, 2), heard := true }
/-- The orbit of `running`, with the six entries of the schedule: three scheduled SENDs, one at best effort, two RECEIVEs. -/
def fabric (time : Nat) : State :=
  let s := running (run0 0)
  { s with
    dev := { s.dev with time := time }
    fab := { s.fab with
      sched := s.fab.sched.set 0 { SchedPlan.none with
        orbitTicks := 100000, rttMax := 1, root := 0, count := 6
        topo := SchedPlan.none.topo.set 0 (BitVec.ofNat 32 (fields [(31, 1), (16, 1), (8, 3)]))
        entries := (((((SchedPlan.none.entries.set 0 (sched 0 false 0 0 0)).set 1 (sched 1 false 0 1 0)).set 2 (sched 2 false 0 2 0)).set 3
          (sched 3 false 1 0 0)).set 4 (sched 4 true 0 1 0)).set 5 (sched 5 true 1 1 1) }
      links := s.fab.links.set 0 upLink } }
/-- One transfer of the orbit has come to the stage given. -/
def withXfer (x : Xfer) : State := { fabric 640 with fab := { (fabric 640).fab with xfers := [x] } }
def sending (i next : Nat) (trailer : Bool) (naks : List Nat) : Xfer :=
  { Xfer.blank 0 i (run0 0) with stage := .running, next := next, trailer := trailer, naks := naks }
def header (frame : Nat) (nak : Option Nat) : FrameHeader := ⟨frame, nak, 1, 0⟩
def trainable : Bool :=
  let l := State.reset.link 47
  l.state != 2 && l.state != 3 && !l.stuck && !l.fenced && State.reset.pwr.ready && decide (l.trainFails < 2)

theorem witness_LinkStateEvents :
    trainable = true ∧ (let s := State.reset.updLink 47 (fun l => { l with trainFails := 2 })
      (s.link 47).state = 1 ∧ 2 = (s.link 47).trainFails ∧ (s.link 47).stuck = false)
    ∧ (fabric 640).link 0 = upLink ∧ (header 0 none).nak = none
    ∧ (let s := withXfer (sending 0 1 false [])
       let x := sending 0 1 false []
       s.dev.curRun = some (run0 0) ∧ s.nakTarget 0 (run0 0) = some x ∧ x.again.get 0 = false ∧ x.naks.contains 0 = false ∧ 0 < x.next
         ∧ seLength (s.entry 0 0) = 1) := by
  refine ⟨?_, ⟨?_, ?_, ?_⟩, ?_, ?_, ?_, ?_, ?_, ?_, ?_, ?_⟩ <;> decide +kernel

/-- What the start of a SEND asks, with one signal on its stream. -/
def mayStart (i endpoint : Nat) : Bool :=
  let s := (fabric 0).mapDev (fun d => { d with streamSems := d.streamSems.set (streamKey 0 0 i) 1 })
  let r := run0 0
  let e := s.entry 0 i
  let s1 := s.advanceTo (r.start + tickT * seOffset e)
  let tick := (s1.dev.time - r.start) / tickT
  s.dev.curRun == some r && s.active 0 i && !seRecv e && (s.xfer 0 i r).stage == .waiting && s1.dev.streamSems.get (streamKey 0 r.num (seStream e)) == 1
    && (!seSched e || decide (seLength e + 1 + s.rttMax 0 ≤ usableBefore (seEnd e) - usableBefore tick)) && s1.mayUse (s1.linkOf 0 i)
    && !s1.earlierWaits 0 i tick r && !(s1.fab.regs.get 0).fenced && seEndpoint e == endpoint
    && !(s1.dev.touch (addrRun (s1.dev.frameAddr e 0) (512 * seLength e))).2
/-- What a tick of link 0 asks. -/
def mayTick (s : State) (x : Option Xfer) : Bool :=
  let r := run0 0
  (s.link 0).state == 2 && !(s.link 0).fenced && (s.link 0).lastTick != some (s.dev.time / tickT) && s.dev.curRun == some r
    && r.tickAt s.dev.time 0 == some 8 && isUsable (s.dev.time / tickT) && s.mayUse 0 && !(s.fab.regs.get 0).fenced && s.sendNow 0 8 r == x

theorem witness_SendEvents :
    mayStart 0 0 = true ∧ mayStart 1 1 = true ∧ mayStart 2 2 = true ∧ mayStart 3 0 = true
    ∧ (planned.updLink 0 (fun _ => upLink)).dev.curRun = none
    ∧ (isUsable ((fabric 560).dev.time / tickT) = false ∧ (run0 0).tickAt 560 0 = some 7) ∧ mayTick (fabric 640) none = true
    ∧ mayTick (withXfer (sending 0 0 false [])) (some (sending 0 0 false [])) = true
    ∧ mayTick (withXfer (sending 0 1 false [])) (some (sending 0 1 false [])) = true
    ∧ mayTick (withXfer (sending 0 1 true [1])) (some (sending 0 1 true [1])) = true ∧ seLength ((fabric 640).entry 0 0) = 1 := by
  refine ⟨?_, ?_, ?_, ?_, ?_, ⟨?_, ?_⟩, ?_, ?_, ?_, ?_, ?_⟩ <;> decide +kernel

/-- A frame finds its entry, and the transfer lacks it. -/
def mayTake (schd : Bool) (i frame : Nat) : Bool :=
  let s := (fabric 640).noteHeader 0 (header frame none)
  let g := s.firstFrame (s.xfer 0 i (run0 0))
  s.recvEntry 0 schd (run0 0) == some i && g.2.stage == .running && decide (frame ≤ seLength (s.entry 0 i)) && !g.2.got.get frame

theorem witness_ReceiveEvents :
    (fabric 640).dev.curRun = some (run0 0) ∧ (fabric 640).link 0 = upLink ∧ mayTake true 4 0 = true ∧ mayTake true 4 1 = true
    ∧ mayTake false 5 0 = true ∧ mayTake false 5 1 = true ∧ (fabric 640).recvEntry 0 true (run0 0) = some 4
    ∧ ((fabric 640).firstFrame ((fabric 640).xfer 0 4 (run0 0))).2.stage = .running := by
  refine ⟨?_, ?_, ?_, ?_, ?_, ?_, ?_, ?_⟩ <;> decide +kernel

def consumed : Xfer := { Xfer.blank 0 4 (run0 0) with stage := .consumed, held := true }

theorem witness_TransferEnds :
    ((fabric 640).dev.curRun = some (run0 0) ∧ (fabric 640).active 0 0 = true ∧ seRecv ((fabric 640).entry 0 0) = false
      ∧ ((fabric 640).xfer 0 0 (run0 0)).signalled = false ∧ ((fabric 640).xfer 0 0 (run0 0)).stage = .waiting
      ∧ (fabric 640).active 0 4 = true ∧ seRecv ((fabric 640).entry 0 4) = true)
    ∧ (withXfer consumed).fab.xfers.find? (fun x => x.io == 0 && x.entry == 4 && x.held && x.stage == .consumed) = some consumed := by
  refine ⟨⟨?_, ?_, ?_, ?_, ?_, ?_, ?_⟩, ?_⟩ <;> decide +kernel

def marker : MarkerIn := ⟨1600, 800, 960, 1, 3, 2, 0, 0, 1, 1760, false⟩
/-- Module 1 of the plan of `fabric`, whose time parent is link 0, in the time state given. -/
def member (st : Nat) : State :=
  let s := fabric 640
  { s with dev := { s.dev with plan := { s.dev.plan with modIndex := 1 } }
           fab := { s.fab with tb := { s.fab.tb with state := st }
                               links := s.fab.links.set 0 { upLink with outMarker := some ⟨0, 0, 0, 0, 0, 0, 0, 0, 0⟩ } } }
def hearing (m : MarkerIn) (s : State) : State :=
  (s.advanceTo m.recvTime.toNat).updLink 0 (fun l => { l with
    heard := true, peerModule := m.peerModule.toNat, peerLink := m.peerLink.toNat, peerDigest := m.digest
    echoSend := m.sendTime, echoRecv := m.recvTime, marked := true, delay := exchDelay 1600 1760 800 960 })

/-- Link 0 with a session and no keys. -/
def keyless : State :=
  let s := fabric 640
  { s with sec := { s.sec with session := some session0 }
           fab := { s.fab with links := s.fab.links.set 0 { upLink with keys := none, peerDigest := digest64 s.dev.plan.digest } } }
def keyRecord : KeyxIn :=
  ⟨1, 3, 0, 0, false, BitVec.ofNat 776 (leNat basePub), BitVec.ofNat 384 (leNat (keyless.keyxMac (keyxIds 1 3 0 0) basePub))⟩

theorem witness_ControlSlotAndTime :
    ({ marker with tagBad := true }.tagBad = true ∧ marker.tagBad = false ∧ ((fabric 640).link 0).keys.isSome = true
      ∧ ((fabric 640).link 0).fenced = false)
    ∧ (((fabric 640).link 0).state = 2 ∧ (hearing marker (fabric 640)).takesTime 0 marker = false)
    ∧ ((hearing marker (member 1)).takesTime 0 marker = true ∧ ((member 1).link 0).outMarker.isSome = true)
    ∧ ((member 2).fab.tb.state = 2 ∧ (member 2).isRoot = false ∧ (member 2).dev.plan.installed = true)
    ∧ ((member 3).fab.tb.state = 3 ∧ { member 3 with dev := { (member 3).dev with runs := [] } }.dev.curRun = none ∧ (member 3).dev.curRun = some (run0 0))
    ∧ (keyless.keyxDue 0 = true ∧ tpValid (keyless.topo 0 0) = true ∧ tpModule (keyless.topo 0 0) = 1 ∧ tpLink (keyless.topo 0 0) = 3
      ∧ (ecPoint basePub).isSome = true ∧ leBytes 97 keyRecord.ephPub.toNat = basePub
      ∧ keyless.keyxMac (keyxIds 1 3 0 0) basePub = leBytes 48 keyRecord.hmac.toNat) := by
  refine ⟨⟨?_, ?_, ?_, ?_⟩, ⟨?_, ?_⟩, ⟨?_, ?_⟩, ⟨?_, ?_, ?_⟩, ⟨?_, ?_, ?_⟩, ?_, ?_, ?_, ?_, ?_, leBytes_word _ (by decide) (by decide),
    (leBytes_word _ (hmac384_length _ _) (by decide)).symm⟩ <;> decide +kernel

/-- An orbit of `fabric` whose vote has closed. -/
def voted (passed : Bool) : State := (fabric 640).mapDev (fun d => { d with runs := [{ run0 0 with closed := true, passed := passed }] })

theorem witness_ControlMessages :
    (fabric 640).dev.curRun = some (run0 0) ∧ (fabric 640).link 0 = upLink ∧ (fabric 640).fab.seen = [] ∧ (run0 0).closed = false
    ∧ ((voted true).dev.curRun.map (·.passed)) = some true ∧ ((voted false).dev.curRun.map (·.passed)) = some false
    ∧ ((voted false).dev.curRun.map (·.closed)) = some true ∧ (⟨1, 0, 0⟩ : CtlMsg).orbit.toNat = 0 := by
  refine ⟨?_, ?_, ?_, ?_, ?_, ?_, ?_, ?_⟩ <;> decide +kernel

/-! Witnesses for the gradient reduction. -/

/-- `fabric` with one bucket of one block, owned by a module, EXACT or ARRIVAL, signalled once. -/
def bucketed (owner : Nat) (arrival : Bool) : State :=
  let s := fabric 640
  { s with
    dev := { s.dev with plan := { s.dev.plan with arrival := arrival }, streamSems := s.dev.streamSems.set (streamKey 0 0 9) 1 }
    fab := { s.fab with redPlan := { s.fab.redPlan with
      present := true, count := 1
      buckets := s.fab.redPlan.buckets.set 0 (BitVec.ofNat 256 (fields [(13, owner), (32, 1), (96, 1), (112, 3), (128, 9), (144, 0x3FF), (160, 0x3FF),
        (176, 0x3FF)])) } } }
/-- The bucket staged, as BucketStaging has it. -/
def stagedAs (s : State) : State :=
  let r := run0 0
  let b := s.bucket 0
  let io := bkDie b
  let key := streamKey io r.num (bkStageSem b)
  let s1 := s.mapDev (fun d => { d with streamSems := d.streamSems.set key (BitVec.ofNat 16 ((s.dev.streamSems.get key).toNat - 1)) })
  let x := encodeAll r.probe 0 (bkBlocks b) 0 s1
  let image := contribPayload r.probe 0 s.me r.num x.2.1
  let s2 := (x.1.addSaturated io x.2.2).mapDev (fun d => d.write ((List.range image.length).map (fun i =>
    (⟨x.1.areaAddr 0 + i, 0xFF, byteAt image i⟩ : WItem))) false)
  let s3 := if x.2.1.any (·.poison) then s2.mapDev (·.voteVoid r.num rsPoison (unitColl io) 0) else s2
  s3.updBk 0 (fun y => { y with staged := true })
def mayStage (s : State) : Bool :=
  s.dev.curRun == some (run0 0) && s.contributes 0 s.me && decide (0 < s.fab.redPlan.count)
    && (s.dev.streamSems.get (streamKey 0 0 (bkStageSem (s.bucket 0)))).toNat == 1 && !(s.fab.regs.get 0).fenced && !(s.run 0).staged
def stagedBucket (owner : Nat) : State := (bucketed owner false).updBk 0 (fun y => { y with staged := true })

theorem witness_BucketStaging :
    (mayStage (bucketed 0 true) = true ∧ (stagedAs (bucketed 0 true)).owns 0 = true ∧ (stagedAs (bucketed 0 true)).mode = true)
    ∧ (mayStage (bucketed 0 false) = true ∧ (stagedAs (bucketed 0 false)).owns 0 = true ∧ (stagedAs (bucketed 0 false)).mode = false
      ∧ ((stagedAs (bucketed 0 false)).run 0).finalised = false)
    ∧ (mayStage (bucketed 1 false) = true ∧ (stagedAs (bucketed 1 false)).owns 0 = false)
    ∧ ((stagedBucket 1).run 0).staged = true ∧ ((stagedBucket 1).run 0).compared.get 0 = false ∧ bkBlocks ((stagedBucket 1).bucket 0) = 1
    ∧ (stagedBucket 1).blockLeft 0 0 (run0 0) = false := by
  refine ⟨⟨?_, ?_, ?_⟩, ⟨?_, ?_, ?_, ?_⟩, ⟨?_, ?_⟩, ?_, ?_, ?_, ?_⟩ <;> decide +kernel

/-- A transfer from module 1 has passed on an entry, with a header of a KIND and one byte 0x01 as scale where asked. -/
def passed (s : State) (i kind scale : Nat) : State :=
  { s with fab := { s.fab with
    xfers := [{ Xfer.blank 0 i (run0 0) with stage := .passed }]
    rxMem := s.fab.rxMem.set 0 (BitVec.ofNat 4096 (fields [(28, kind), (32, 1), (8 * 128, scale)])) } }
def arrives (s : State) (kind : Nat) : Bool :=
  match s.passedXfer 0 4 with
  | some (x, p) => s.dev.curRun == some (run0 0) && x.slot == 0 && x.orbit == 0 && hdrBucket p == 0 && hdrOrigin p == 1 && hdrOrbit p == 0
      && hdrKind p == kind && seEndpoint (s.entry 0 4) == 1 && decide (0 < s.fab.redPlan.count) && !(s.run 0).finalised && !(s.run 0).added.get 1
      && s.contributes 0 1 && hdrProbe p == false
  | none => false
/-- The scales of the contribution agree, as ReductionReceive asks it. -/
def agreeing (s : State) : Bool :=
  match s.passedXfer 0 4 with
  | some (_, p) => (s.relay 0 (seStream (s.entry 0 4)) p (run0 0)).scalesAgree 0 [contribBlock 1 p 0]
  | none => false
def committed : State := (passed (bucketed 0 true) 4 1 0).updBk 0 (fun y => { y with commits := y.commits.set 1 true })
/-- The same with a NORM entry. -/
def normEntry : State :=
  let s := passed (bucketed 0 false) 4 0 0
  { s with fab := { s.fab with sched := s.fab.sched.upd 0 (fun p => { p with entries := p.entries.set 4 (sched 4 true 0 2 0) }) } }

theorem witness_ReductionReceive :
    arrives (passed (bucketed 0 false) 4 1 0) 1 = true ∧ agreeing (passed (bucketed 0 false) 4 1 0) = true
    ∧ arrives (passed (bucketed 0 false) 4 1 1) 1 = true ∧ agreeing (passed (bucketed 0 false) 4 1 1) = false
    ∧ (passed (bucketed 0 false) 4 1 0).owns 0 = true ∧ (passed (bucketed 0 false) 4 1 0).mode = false
    ∧ arrives committed 1 = true ∧ committed.mode = true ∧ (committed.run 0).commits.get 1 = true
    ∧ arrives (passed (bucketed 0 true) 4 1 0) 1 = true ∧ ((passed (bucketed 0 true) 4 1 0).run 0).commits.get 1 = false
    ∧ arrives (passed (bucketed 0 false) 4 2 0) 2 = true ∧ arrives (passed (bucketed 1 false) 4 3 0) 3 = true
    ∧ (passed (bucketed 1 false) 4 3 0).owns 0 = false ∧ arrives (passed (bucketed 0 false) 4 4 0) 4 = true
    ∧ (normEntry.passedXfer 0 4).isSome = true ∧ seEndpoint (normEntry.entry 0 4) = 2 := by
  refine ⟨?_, ?_, ?_, ?_, ?_, ?_, ?_, ?_, ?_, ?_, ?_, ?_, ?_, ?_, ?_, ?_, ?_⟩ <;> decide +kernel

theorem witness_FinaliseAndVote :
    ((bucketed 0 false).dev.curRun = some (run0 0) ∧ (bucketed 0 false).owns 0 = true ∧ ((bucketed 0 false).run 0).finalised = false
      ∧ ((bucketed 0 false).fab.regs.get 0).fenced = false ∧ ((bucketed 0 false).run 0).repeating = false)
    ∧ (((bucketed 0 false).updBk 0 (fun y => { y with repeating := true })).run 0).repeating = true
    ∧ (bucketed 0 false).dev.exchRun = some (run0 0) ∧ (run0 0).voteDue = false ∧ (run0 0).voteSent = false ∧ (run0 0).closed = false := by
  refine ⟨⟨?_, ?_, ?_, ?_, ?_⟩, ?_, ?_, ?_, ?_, ?_⟩ <;> decide +kernel

/-! Witnesses for recovery and health. -/

def runningCmd : State := { planned with fab := { planned.fab with start := some (start0 2 1) } }

theorem witness_Watchdogs :
    (runningCmd.runState = 2 ∧ runningCmd.dev.unfinished 0 = true ∧ runningCmd.fencedDom 0 0 = false ∧ (runningCmd.dev.core 0).fenced = false
      ∧ (runningCmd.dev.core 0).retired = false)
    ∧ (((engine cRows).dev.coma 0).queue ≠ [] ∧ (engine cRows).fencedDom 1 0 = false ∧ ((engine cRows).dev.coma 0).fenced = false)
    ∧ ((atCmd 0).dev.msuBusy 0 = true ∧ (atCmd 2).dev.smulBusy 0 = true ∧ (atCmd 0).fencedDom 2 0 = false ∧ ((atCmd 0).dev.msu 0).fenced = false)
    ∧ State.reset.running = true ∧ State.reset.fencedDom 4 1 = false := by
  refine ⟨⟨?_, ?_, ?_, ?_, ?_⟩, ⟨?_, ?_, ?_⟩, ⟨?_, ?_, ?_, ?_⟩, ?_, ?_⟩ <;> decide +kernel

theorem witness_HeartbeatsAndSeparation :
    State.reset.running = true ∧ State.reset.fencedDom 4 0 = false ∧ (State.reset.fab.regs.get 0).separated = false := by decide +kernel

/-- A recovery of a domain. -/
def recovery (kind cause stage : Nat) : Recovery :=
  { kind := kind, index := 0, cause := cause, unit := 0, stage := stage, fenceTime := 0, orbit := 0, forced := false, drainUs := 0
    truncated := false, waiters := [], escalated := [], poweredMin := 0, digest := 0, regs := Bank.const 0, sealedBy := none, sample := []
    resetTime := 0 }

theorem witness_RecoverySteps :
    (∀ r ∈ [recovery 5 1 1, recovery 0 1 1, recovery 0 4 1], takeStage 1 [r] = some (r, []))
    ∧ (recovery 5 1 1).kind = 5 ∧ (recovery 0 1 1).kind ≠ 5 ∧ (recovery 0 1 1).cause ≠ 4 ∧ (recovery 0 4 1).kind ≠ 5 ∧ (recovery 0 4 1).cause = 4
    ∧ (∀ r ∈ [recovery 0 1 2, recovery 4 1 2], takeStage 2 [r] = some (r, []) ∧ 10000 ≤ 10000) := by
  decide +kernel

/-- 16 windows of the watch, the last of them imbalanced. -/
def hot : State :=
  { State.reset with dev := { (State.reset.dev.updMsu 0 (fun m => { m with hotRun := 99 })) with accesses := State.reset.dev.accesses.set 5 1000000 } }

theorem witness_HotChannelWindow :
    let m := hot.dev.msu 0
    (0 < hotRunLimit m.hotConfig ∧ hotRunLimit m.hotConfig ≤ m.hotRun + 1 ∧ hotSet m.hotStatus = false)
    ∧ (match execHotWindow 0 hot with
      | .next t => decide (hotSet (t.dev.msu 0).hotStatus = true ∧ bitsOf (t.dev.msu 0).hotStatus 12 8 = 5)
      | _ => false) = true := by
  decide +kernel

/-- An error record in a queue, and a unit with an open window. -/
def ailing : State :=
  let s := State.reset
  { s with
    dev := { s.dev.pushErr 0x03 0x00 0 0 0 0 with health := s.dev.health.set 0x1003 { (s.dev.health.get 0x1003) with windowOpen := true } }
    pwr := { s.pwr with moonletUp := true } }

theorem witness_HealthEvents :
    (ailing.dev.health.get 0x1003).windowOpen = true ∧ (0x1003 : BitVec 16).toNat / 4096 < 8 ∧ ailing.dev.health.wf = true
    ∧ (ailing.dev.errQ.get 0).length = 1 ∧ ailing.pwr.moonletUp = true := by
  refine ⟨?_, ?_, ?_, ?_, ?_⟩ <;> decide +kernel

/-! Witnesses for host commands. -/

theorem alike_runs {e f : Entry64} (h : Alike e f) : memRuns e = memRuns f := by
  simp (disch := decide) only [memRuns, eConvert, eSegment, eFormat, eOffset, eLength, eScaleSeg, eScaleOff, eb, alike_bit h, alike_bits h]
  rfl
theorem alike_shared {e f : Entry64} (h : Alike e f) (s : State) : s.sharedMem e = s.sharedMem f := by
  simp (disch := decide) only [State.sharedMem, eSegment, eConvert, eScaleSeg, alike_bit h, alike_bits h]
theorem alike_read {e f : Entry64} (h : Alike e f) : eRead e = eRead f := alike_bit h _ (by decide)

theorem witness_ResetAndUmbra :
    (awake.Fetches 0 0 0 (mac0 [(0, 0x40), (64, 5)]) ∧ eOp (mac0 [(0, 0x40), (64, 5)]) = opReset ∧ eKind (mac0 [(0, 0x40), (64, 5)]) = 5)
    ∧ (awake.Fetches 0 0 0 (mac0 [(0, 0x40), (80, 127)]) ∧ eOp (mac0 [(0, 0x40), (80, 127)]) = opReset ∧ eKind (mac0 [(0, 0x40), (80, 127)]) ≠ 5)
    ∧ (awake.Fetches 0 0 0 (mac0 [(0, 0x50)]) ∧ eOp (mac0 [(0, 0x50)]) = opEnter ∧ awake.fab.start = none ∧ awake.pwr.state = .running)
    ∧ (awake.Fetches 0 0 0 (mac0 [(0, 0x51)]) ∧ eOp (mac0 [(0, 0x51)]) = opLeave) :=
  ⟨⟨fetches_signed rfl (by decide +kernel), mac0_op _ _ (by decide +kernel), (mac0_bits _ _ _ (by decide)).trans (by decide +kernel)⟩,
    ⟨fetches_signed rfl (by decide +kernel), mac0_op _ _ (by decide +kernel), by rw [show eKind (mac0 _) = _ from mac0_bits _ _ _ (by decide)]; decide +kernel⟩,
    ⟨fetches_signed rfl (by decide +kernel), mac0_op _ _ (by decide +kernel), by decide +kernel, by decide +kernel⟩,
    ⟨fetches_signed rfl (by decide +kernel), mac0_op _ _ (by decide +kernel)⟩⟩

/-- A QUERY of an ITEM, with a reply of 64 B at host address 0. -/
def query (item : Nat) : List (Nat × Nat) := [(0, 0x30), (64, item), (192, 64)]

theorem witness_Queries :
    (∀ item ∈ [0x00, 0x01, 0x10, 0x11, 0x12, 0x13], awake.Fetches 0 0 0 (mac0 (query item)) ∧ eOp (mac0 (query item)) = opQuery
      ∧ eItem (mac0 (query item)) = item)
    ∧ (hosted State.reset).Fetches 0 0 0 (entry (query 0)) := by
  refine ⟨fun item k => ?_, fetches_open rfl (by decide +kernel) (by decide +kernel)⟩
  have h : ∀ item ∈ [0x00, 0x01, 0x10, 0x11, 0x12, 0x13], hostReady awake (entry (query item)) = true ∧ eOp (entry (query item)) = opQuery
    ∧ eItem (entry (query item)) = item := by decide +kernel
  exact ⟨fetches_signed rfl (h item k).1, mac0_op _ _ (h item k).2.1, (mac0_bits _ _ _ (by decide)).trans (h item k).2.2⟩

/-- 64 B of segment 1, which is tier 2, read or written at host address 0; the same beyond the segment. -/
def transfer (rd offset : Nat) : List (Nat × Nat) := [(0, 0x20), (128, offset), (192, 64), (256, 1), (272, rd)]
/-- Segment 1 is HOST_SHARED, and an orbit runs or not. -/
def sharing (run : Bool) : State :=
  let s := hosted (withSession (if run then runningCmd else planned))
  s.mapDev (fun d => { d with segs := d.segs.set 1 (segment 2 65536 0 ||| (1 <<< 106)) })
def mayMove (run : Bool) (rd offset : Nat) (fault : Bool) : Bool :=
  hostReady (sharing run) (entry (transfer rd offset)) && eOp (entry (transfer rd offset)) == opMem && eRead (entry (transfer rd offset)) == (rd == 1)
    && (decide ((sharing run).runState ≠ 2) || (sharing run).sharedMem (entry (transfer rd offset))) && ((sharing run).runState == 2) == run
    && (checkRuns (sharing run).dev (.host 0) (rd == 1) (!(rd == 1)) (memRuns (entry (transfer rd offset)))).isSome == fault
theorem moves {run : Bool} {rd offset : Nat} {fault : Bool} (h : mayMove run rd offset fault = true) (k : (sharing run).sec.session = some session0) :
    let s := sharing run
    let e := mac0 (transfer rd offset)
    s.Fetches 0 0 0 e ∧ eOp e = opMem ∧ (s.runState ≠ 2 ∨ s.sharedMem e = true) ∧ eRead e = (rd == 1) ∧ (s.runState == 2) = run
      ∧ ((s.taken 0 0 0 e).memFault (hostRun 0 0 0 e)).isSome = fault := by
  simp only [mayMove, Bool.and_eq_true, beq_iff_eq, Bool.or_eq_true, decide_eq_true_eq] at h
  obtain ⟨⟨⟨⟨⟨h1, h2⟩, h3⟩, h4⟩, h5⟩, h6⟩ := h
  have a := mac0_alike (transfer rd offset)
  refine ⟨fetches_signed k h1, mac0_op _ _ h2, ?_, (alike_read a).trans h3, h5, ?_⟩
  · rw [alike_shared a]; exact h4
  · show (checkRuns (sharing run).dev (.host 0) (eRead (mac0 (transfer rd offset))) (!eRead (mac0 (transfer rd offset)))
      (memRuns (mac0 (transfer rd offset)))).isSome = fault
    rw [alike_runs a, alike_read a, h3]
    exact h6

theorem witness_MemoryTransfers :
    mayMove false 0 0 false = true ∧ mayMove true 0 0 false = true ∧ mayMove false 1 0 false = true ∧ mayMove true 1 64 false = true
    ∧ mayMove false 0 8388608 true = true ∧ mayMove false 1 8388607 true = true
    ∧ (sharing false).sec.session = some session0 ∧ (sharing true).sec.session = some session0 := by
  refine ⟨?_, ?_, ?_, ?_, ?_, ?_, ?_, ?_⟩ <;> decide +kernel

/-- Fenced: half 0 is fenced; shut: no session is open; asleep: the module is in Umbra. -/
def fencedHalf : State := { awake with recs := [recovery 4 2 1] }
def shut : State := hosted State.reset
def asleep : State := { awake with pwr := { awake.pwr with umbra := true, ready := false } }
def start1 : List (Nat × Nat) := [(0, 0x11), (128, 1)]

theorem witness_HostCommandRefusals :
    (∀ s ∈ [fencedHalf, shut, awake, asleep], (s.port 0).state = 2 ∧ s.hst.waiting = [] ∧ s.resetPending (qKey 0 0) = false)
    ∧ (fencedHalf.hostFenced (entry start1) = true ∧ eOp (entry start1) = opStart)
    ∧ (shut.hostFenced (entry start1) = false ∧ shut.sec.session = none)
    ∧ (awake.hostFenced (entry start1) = false ∧ awake.sec.session = some session0
      ∧ ¬ (session0.mac 0 0 (entry start1) = macOf (entry start1) ∧ session0.mac 0 0 (entry ((384, 1) :: start1)) = macOf (entry ((384, 1) :: start1))))
    ∧ (awake.hostFenced (mac0 [(0, 0x11)]) = false ∧ session0.mac 0 0 (mac0 [(0, 0x11)]) = macOf (mac0 [(0, 0x11)])
      ∧ (eReservedZero (mac0 [(0, 0x11)]) && eInRange (mac0 [(0, 0x11)])) = false)
    ∧ (asleep.hostFenced (mac0 start1) = false ∧ session0.mac 0 0 (mac0 start1) = macOf (mac0 start1) ∧ eReservedZero (mac0 start1) = true
      ∧ eInRange (mac0 start1) = true ∧ asleep.pwr.umbra = true ∧ eAlways (mac0 start1) = false) := by
  have al : Alike (entry start1) (entry ((384, 1) :: start1)) := by unfold Alike; decide +kernel
  refine ⟨by decide +kernel, ⟨by decide +kernel, by decide +kernel⟩, ⟨by decide +kernel, rfl⟩, ⟨by decide +kernel, rfl, fun h => ?_⟩, ⟨?_, signed_mac _ _, ?_⟩,
    ⟨?_, signed_mac _ _, ?_, ?_, rfl, ?_⟩⟩
  · have k := h.1.symm.trans ((alike_mac al session0 0 0).trans h.2)
    exact absurd k (by decide +kernel)
  · rw [alike_fence (mac0_alike _)]; decide +kernel
  · rw [alike_reserved (mac0_alike _), alike_range (mac0_alike _)]; decide +kernel
  · rw [alike_fence (mac0_alike _)]; decide +kernel
  · rw [alike_reserved (mac0_alike _)]; decide +kernel
  · rw [alike_range (mac0_alike _)]; decide +kernel
  · rw [alike_always (mac0_alike _)]; decide +kernel

theorem slice (a b c : List Byte) (i n : Nat) (ha : a.length = i) (hb : b.length = n) : ((a ++ (b ++ c)).drop i).take n = b := by
  subst ha hb
  simp

/-! Witnesses for the adapter, the ports and the management interface. -/

/-- A completion record whose flags have bit 15, that nothing follows. -/
def record0 : CompRec := ⟨0, 0, 0, 0x12, 0x8000, 0, 0, 0, 0⟩
/-- Queue 0 of port 0: rings of 16 entries, one handle outstanding, records that wait and that the port holds. -/
def ringed (on fetchErr : Bool) (waiting hold : List CompRec) (head : Nat) : State :=
  let s := awake.updQueue 0 (fun x => { x with
    sqBase := BitVec.ofNat 64 (fields [(0, 4), (4, boolNat on), (12, 1)]), cqBase := BitVec.ofNat 64 (fields [(0, 4), (12, 2)])
    fetchErr := fetchErr, waiting := waiting, cqTail := 15, cqHead := BitVec.ofNat 32 head, outstanding := [⟨0, 0x12, false⟩] })
  { s with hst := { s.hst with ports := s.hst.ports.set 0 { s.port 0 with hold := hold } } }

theorem witness_AdapterRings :
    (let x := (ringed true false [] [] 8).queue 0
     qEnabled x = true ∧ x.fetchErr = false ∧ x.sqHead < sqSize x ∧ x.waiting = [])
    ∧ qEnabled ((ringed false false [] [] 8).queue 0) = false ∧ ((ringed true true [] [] 8).queue 0).fetchErr = true
    ∧ ((ringed true false [record0] [] 8).queue 0).waiting = [record0]
    ∧ (((ringed true false [record0] [] 0).updQueue 0 (fun y => { y with cqHead := 8 })).queue 0).full = false
    ∧ bitOf (16 : W64) 4 = true ∧ bitOf (0 : W64) 4 = false
    ∧ (let s := ringed true false [] [record0] 8
       let x := s.queue 0
       (s.port 0).state = 2 ∧ (s.port 0).hold = [record0] ∧ qKey (hPort record0.handle) (hQueue record0.handle) = 0
         ∧ x.outstanding.any (fun o => o.handle == record0.handle) = true ∧ bitOf record0.flags 15 = true ∧ x.full = false ∧ x.waiting = []) := by
  refine ⟨?_, ?_, ?_, ?_, ?_, ?_, ?_, ?_⟩ <;> decide +kernel

/-- Port 0 is DOWN, with a command and a module reset outstanding. -/
def dropped : State :=
  (State.reset.updPort 0 (fun x => { x with state := 0 })).updQueue 0 (fun x => { x with outstanding := [⟨0, 0x12, false⟩, ⟨1, 0x40, true⟩] })

theorem witness_EfmusPorts :
    (dropped.port 0).state ≠ 2 ∧ (dropped.port 0).lost = false ∧ (awake.port 0).state = 2
    ∧ (∀ k ∈ [0, 1], ∀ o ∈ (dropped.queue k).outstanding, ∀ o' ∈ (dropped.queue k).outstanding, o.kind5 ≠ o'.kind5 → o.handle ≠ o'.handle)
    ∧ (dropped.queue 0).outstanding.length = 2 := by
  refine ⟨?_, ?_, ?_, ?_, ?_⟩ <;> decide +kernel

def returnable (state level : Nat) : State :=
  State.reset.mapDev (fun d => { d with health := d.health.set 0x0003 { (d.health.get 0x0003) with state := state, level := level } })

theorem witness_Settings :
    State.reset.pwr.moonletUp = true ∧ unitExists (0x802F : BitVec 16).toNat = true
    ∧ ((returnable 1 1).dev.health.get 3).state = 1 ∧ 0 < ((returnable 1 1).dev.health.get 3).level
    ∧ ((returnable 2 3).dev.health.get 3).state = 2 ∧ 3 ≤ ((returnable 2 3).dev.health.get 3).level
    ∧ (State.reset.dev.health.get 3).state = 0 := by
  refine ⟨?_, ?_, ?_, ?_, ?_, ?_, ?_⟩ <;> decide +kernel

/-- A module with one crash record, in its second firmware bank. -/
def crashed : State :=
  let s := State.reset.crash (recovery 0 1 2) 0x31 5
  { s with sec := { s.sec with fw := s.sec.fw.upd 1 (fun b => { b with usedB := true }) } }

theorem witness_ManagementReads :
    (crashed.moon.crashes.find? (fun c => c.hdr.sequence == (0 : W32).toNat)).isSome = true
    ∧ crashed.moon.crashes.find? (fun c => c.hdr.sequence == (1 : W32).toNat) = none ∧ crashed.pwr.state = .running
    ∧ (crashed.sec.fw.get 1).usedB = true ∧ (crashed.sec.fw.get 3).usedB = false := by
  refine ⟨?_, ?_, ?_, ?_, ?_⟩ <;> decide +kernel

theorem witness_ClearsAndRegisterWrites :
    (∃ b, blockOf (0x00000140 : W32).toNat = some b) ∧ State.reset.regRefused (0x00000140 : W32).toNat = false ∧ State.reset.pwr.railsOk = true
    ∧ State.reset.regRefused (0xFFFFFFFF : W32).toNat = true := by
  refine ⟨Option.isSome_iff_exists.1 (by decide +kernel), ?_, ?_, ?_⟩ <;> decide +kernel

/-! Debug tokens: the serial number that a token names is a digest of a key that the spec does not give, so that the token is built
from it. -/

theorem leNat_append (a b : List Byte) : leNat (a ++ b) = leNat a + 256 ^ a.length * leNat b := by
  induction a with
  | nil => simp [leNat]
  | cons x a ih =>
    simp only [List.cons_append, leNat, ih, List.length_cons, Nat.pow_succ]
    rw [Nat.mul_add, ← Nat.add_assoc, Nat.mul_comm (256 ^ a.length) 256, Nat.mul_assoc]
/-- The number in a run of bytes of a string. -/
theorem leNat_slice (l : List Byte) (a n : Nat) (h : a + n ≤ l.length) : leNat l / 256 ^ a % 256 ^ n = leNat ((l.drop a).take n) := by
  have e : l = l.take a ++ ((l.drop a).take n ++ (l.drop a).drop n) := by
    rw [List.take_append_drop, List.take_append_drop]
  have h1 : (l.take a).length = a := by simp; omega
  have h2 : ((l.drop a).take n).length = n := by simp; omega
  have b1 := leNat_lt (l.take a)
  have b2 := leNat_lt ((l.drop a).take n)
  rw [h1] at b1
  rw [h2] at b2
  have k : leNat l = leNat (l.take a) + 256 ^ a * (leNat ((l.drop a).take n) + 256 ^ n * leNat ((l.drop a).drop n)) := by
    have k := congrArg leNat e
    rwa [leNat_append, leNat_append, h1, h2] at k
  rw [k, Nat.add_mul_div_left _ _ (Nat.pow_pos (by decide)), Nat.div_eq_of_lt b1, Nat.zero_add, Nat.add_mul_mod_self_left, Nat.mod_eq_of_lt b2]
/-- A field of whole bytes of a token made from its bytes. -/
def tokenOf (l : List Byte) : BitVec 2560 := BitVec.ofNat 2560 (leNat l)
set_option exponentiation.threshold 2560 in
theorem token_bits (l : List Byte) (h : l.length = 320) (a n hi lo : Nat) (k : a + n ≤ 320) (k1 : 8 * a ≤ lo) (k2 : hi < 8 * (a + n)) :
    bitsOf (tokenOf l) hi lo = leNat ((l.drop a).take n) / 2 ^ (lo - 8 * a) % 2 ^ (hi + 1 - lo) := by
  have p (n : Nat) : (256 : Nat) ^ n = 2 ^ (8 * n) := (Nat.pow_mul 2 8 n).symm
  have b := leNat_lt l
  have e : (tokenOf l).toNat = leNat l := by
    rw [tokenOf, BitVec.toNat_ofNat]
    exact Nat.mod_eq_of_lt (by rwa [p, h] at b)
  rw [bitsOf, e, ← leNat_slice l a n (by omega), p, p]
  apply Nat.eq_of_testBit_eq
  intro i
  simp only [Nat.testBit_mod_two_pow, Nat.testBit_shiftRight, Nat.testBit_div_two_pow]
  by_cases c : i < hi + 1 - lo
  · have c1 : i + (lo - 8 * a) < 8 * n := by omega
    have c2 : i + (lo - 8 * a) + 8 * a = lo + i := by omega
    simp [c, c1, c2]
  · simp [c]
theorem token_field (l : List Byte) (h : l.length = 320) (a b : Nat) (k : b < 320) (kab : a ≤ b) :
    tkField (tokenOf l) a b = (l.drop a).take (b + 1 - a) := by
  unfold tkField
  have p : (256 : Nat) ^ (b + 1 - a) = 2 ^ (8 * (b + 1 - a)) := (Nat.pow_mul 2 8 _).symm
  have c := leNat_lt ((l.drop a).take (b + 1 - a))
  rw [show ((l.drop a).take (b + 1 - a)).length = b + 1 - a by simp; omega, p] at c
  rw [token_bits l h a (b + 1 - a) (8 * b + 7) (8 * a) (by omega) (by omega) (by omega), Nat.sub_self, Nat.pow_zero, Nat.div_one,
    show 8 * b + 7 + 1 - 8 * a = 8 * (b + 1 - a) by omega, Nat.mod_eq_of_lt c]
  have z := leBytes_leNat ((l.drop a).take (b + 1 - a))
  rwa [show ((l.drop a).take (b + 1 - a)).length = b + 1 - a by simp; omega] at z

/-- An owner with a secret, and the nonce 5. -/
def owned : State := { State.reset with sec := { State.reset.sec with owner := some ⟨0, 1, 0⟩, nonce := some 5 } }
/-- A token of SIGNER 1 for that module: one minute of the first right. -/
def tokenHead : List Byte :=
  [1, 0, 1, 0, 1, 0, 0, 0] ++ (owned.sec.serial owned.primaryIo ++ (bytes384 5 ++ ([1, 0, 0, 0] ++ List.replicate 20 0)))
def tokenBytes : List Byte :=
  tokenHead ++ (hmac384 ((⟨0, 1, 0⟩ : Owner).derived "aq9 debug") (sha384 tokenHead) ++ List.replicate 144 0)
def token : BitVec 2560 := tokenOf tokenBytes
theorem serial_length : (owned.sec.serial owned.primaryIo).length = 48 := sha384_length _
theorem bytes384_length (x : BitVec 384) : (bytes384 x).length = 48 := leBytes_length _ _
theorem tokenHead_length : tokenHead.length = 128 := by
  simp only [tokenHead, List.length_append, serial_length, bytes384_length, List.length_replicate, List.length_cons, List.length_nil]
theorem tokenBytes_length : tokenBytes.length = 320 := by
  simp only [tokenBytes, List.length_append, tokenHead_length, hmac384_length, List.length_replicate]
theorem token_head : tkField token 0 127 = tokenHead :=
  (token_field tokenBytes tokenBytes_length 0 127 (by decide) (by decide)).trans (slice [] tokenHead _ 0 128 rfl tokenHead_length)
theorem token_serial : tkField token 8 55 = owned.sec.serial owned.primaryIo := by
  refine (token_field tokenBytes tokenBytes_length 8 55 (by decide) (by decide)).trans ?_
  rw [tokenBytes, tokenHead, List.append_assoc, List.append_assoc]
  exact slice _ _ _ 8 48 rfl serial_length
theorem token_nonce : tkField token 56 103 = bytes384 5 := by
  refine (token_field tokenBytes tokenBytes_length 56 103 (by decide) (by decide)).trans ?_
  rw [tokenBytes, tokenHead, List.append_assoc, List.append_assoc, List.append_assoc, ← List.append_assoc]
  exact slice _ _ _ 56 48 (by rw [List.length_append, serial_length]; rfl) (bytes384_length 5)
theorem token_mac : tkField token 128 175 = hmac384 ((⟨0, 1, 0⟩ : Owner).derived "aq9 debug") (sha384 tokenHead) :=
  (token_field tokenBytes tokenBytes_length 128 175 (by decide) (by decide)).trans (slice _ _ _ 128 48 tokenHead_length (hmac384_length _ _))
theorem token_first (hi lo : Nat) (h : hi < 64) : bitsOf token hi lo = bitsOf (0x0000000100010001 : W64) hi lo := by
  rw [token, token_bits tokenBytes tokenBytes_length 0 8 hi lo (by decide) (by omega) (by omega)]
  have : (tokenBytes.drop 0).take 8 = [1, 0, 1, 0, 1, 0, 0, 0] := by
    rw [tokenBytes, tokenHead, List.append_assoc]
    exact slice [] [1, 0, 1, 0, 1, 0, 0, 0] _ 0 8 rfl rfl
  rw [this]
  simp only [bitsOf, Nat.shiftRight_eq_div_pow, Nat.mul_zero, Nat.sub_zero]
  rfl
theorem token_last (hi lo : Nat) (h : hi < 1024) (k : 832 ≤ lo) : bitsOf token hi lo = 1 / 2 ^ (lo - 832) % 2 ^ (hi + 1 - lo) := by
  rw [token, token_bits tokenBytes tokenBytes_length 104 24 hi lo (by decide) (by omega) (by omega)]
  have : (tokenBytes.drop 104).take 24 = [1, 0, 0, 0] ++ List.replicate 20 0 := by
    rw [tokenBytes, tokenHead, List.append_assoc, List.append_assoc, List.append_assoc, ← List.append_assoc, ← List.append_assoc]
    exact slice _ _ _ 104 24 (by simp only [List.length_append, serial_length, bytes384_length]; rfl) rfl
  rw [this]
  rfl
theorem leNat_leBytes (n x : Nat) : leNat (leBytes n x) = x % 256 ^ n := by
  induction n generalizing x with
  | zero => simp [leBytes, leNat, Nat.mod_one]
  | succ n ih =>
    rw [leBytes, leNat, BitVec.toNat_ofNat, ih, show (256 : Nat) ^ (n + 1) = 256 * 256 ^ n from Nat.pow_succ', Nat.mod_mul]
set_option exponentiation.threshold 384 in
theorem of384_bytes (x : BitVec 384) : of384 (bytes384 x) = x := by
  apply BitVec.eq_of_toNat_eq
  have p : (256 : Nat) ^ 48 = 2 ^ 384 := (Nat.pow_mul 2 8 48).symm
  rw [of384, bytes384, leNat_leBytes, p, BitVec.toNat_ofNat, Nat.mod_mod, Nat.mod_eq_of_lt x.isLt]
theorem token_rest : bitsOf token 2559 (8 * 224) = 0 := by
  rw [token, token_bits tokenBytes tokenBytes_length 224 96 2559 (8 * 224) (by decide) (by decide) (by decide)]
  have : (tokenBytes.drop 224).take 96 = List.replicate 96 0 := by
    rw [tokenBytes, show List.replicate 144 (0 : Byte) = List.replicate 48 0 ++ (List.replicate 96 0 ++ []) from rfl, ← List.append_assoc, ← List.append_assoc]
    exact slice _ _ [] 224 96 (by simp only [List.length_append, tokenHead_length, hmac384_length, List.length_replicate]) (List.length_replicate ..)
  rw [this]
  decide +kernel

/-- The token passes every check. -/
theorem token_ok : owned.tokenOk token = true := by
  have rights : tkRights token = 1 := by rw [tkRights, token_first _ _ (by decide)]; decide +kernel
  have signer : tkSigner token = 1 := by rw [tkSigner, token_first _ _ (by decide)]; decide +kernel
  have duration : tkDuration token = 1 := by
    rw [tkDuration, token_last _ _ (by decide) (by decide)]
    decide +kernel
  have form : tkForm token = true := by
    rw [tkForm, signer, duration, token_rest, token_first _ _ (by decide), token_first _ _ (by decide), token_first _ _ (by decide),
      token_last _ _ (by decide) (by decide)]
    decide +kernel
  have sign : tkSigned token ⟨0, 1, 0⟩ = true := by
    unfold tkSigned
    rw [signer, rights, token_head, token_mac]
    simp only [beq_self_eq_true]
    decide +kernel
  rw [State.tokenOk, form, token_serial, token_nonce, rights, of384_bytes, show owned.sec.opened = some ⟨0, 1, 0⟩ from rfl]
  simp only [sign, beq_self_eq_true]
  decide +kernel

/-- A debug session with rights to firmware; a module asleep; a module without its input; one that is powering up. -/
def debugging : State := { State.reset with sec := { State.reset.sec with debug := 8, debugUntil := 5 } }
def sleeping : State := { State.reset with pwr := { State.reset.pwr with umbra := true, ready := false } }
def cold : State := { State.reset with pwr := { State.reset.pwr with state := .unpowered, ready := false, railsOk := false } }
def powering : State := { State.reset with pwr := { State.reset.pwr with state := .powering, ready := false } }

/-- A token with the fourth right holds also a signature under Bamkar's key, which the spec does not give: where both hold, it
passes too. -/
theorem token_firmware (s : State) (t : BitVec 2560) (o : Owner) (h1 : s.sec.opened = some o) (h2 : tkSigned t o = true) (h3 : tkForm t = true)
    (h4 : tkField t 8 55 = s.sec.serial s.primaryIo) (h5 : s.sec.nonce = some (of384 (tkField t 56 103))) (h6 : s.runState = 0) :
    s.tokenOk t = true := by
  simp [State.tokenOk, h1, h2, h3, h4, h5, h6]

theorem witness_DebugAndModuleReset :
    (owned.pwr.ready = true ∧ owned.tokenOk token = true ∧ bitOf (tkRights token) 3 = false)
    ∧ (State.reset.tokenOk 0 = false) ∧ debugging.sec.debug ≠ 0
    ∧ (sleeping.pwr.umbra = true ∧ sleeping.pwr.state = .running ∧ sleeping.hst.waiting = []) ∧ State.reset.pwr.state = .running
    ∧ powering.pwr.state = .powering ∧ cold.pwr.state ≠ .running ∧ cold.pwr.state ≠ .powering := by
  refine ⟨⟨rfl, token_ok, by rw [tkRights, token_first _ _ (by decide)]; decide +kernel⟩, ?_, ?_, ⟨?_, ?_, ?_⟩, ?_, ?_, ?_, ?_⟩ <;> decide +kernel

/-! Witnesses for power, for values and for the whole block. -/

def standby (en latch : Bool) : State :=
  { State.reset with pwr := { State.reset.pwr with state := .standby, ready := false, railsOk := false, moonletUp := true, pwrEn := en, tripLatch := latch } }

theorem fw_boots (v : Nat) (h : Config.imageVersion [] = some v) : FwBanks.init.boot = some { FwBanks.init with usedB := false, booted := v } := by
  unfold FwBanks.boot
  dsimp only [FwBanks.init]
  rw [h]
  simp
theorem fw_fails (h : Config.imageVersion [] = none) : FwBanks.init.boot = none := by
  unfold FwBanks.boot
  dsimp only [FwBanks.init]
  rw [h]

theorem witness_StartUp :
    cold.pwr.state = .unpowered ∧ ((standby true false).pwr.state = .standby ∧ (standby true false).pwr.pwrEn = true)
    ∧ ((standby false false).pwr.pwrEn = false ∧ (standby false false).pwr.moonletUp = true)
    ∧ (classOf (standby true false).pwr.coolingNow ≠ 3 ∧ (standby true false).pwr.tripLatch = false ∧ (standby true false).pwr.faultBoot = false
      ∧ (standby true false).pwr.faultRail = false)
    ∧ (standby true true).pwr.tripLatch = true ∧ powering.pwr.state = .powering ∧ powering.sec.bootOk = true
    ∧ (∀ v, Config.imageVersion [] = some v → (bootAll [0, 1, 2, 3] powering.sec.fw).isSome = true)
    ∧ (Config.imageVersion [] = none → bootAll [0, 1, 2, 3] powering.sec.fw = none) := by
  refine ⟨?_, ⟨?_, ?_⟩, ⟨?_, ?_⟩, ⟨?_, ?_, ?_, ?_⟩, ?_, ?_, ?_, fun v h => ?_, fun h => ?_⟩
  case refine_13 =>
    have k : powering.sec.fw = Bank.const FwBanks.init := rfl
    rw [k]
    have g (k : Nat) : (Bank.const FwBanks.init).get k = FwBanks.init := rfl
    simp only [bootAll, g, fw_boots v h, Bank.get_set, show (1 : Nat) ≠ 0 by decide, show (2 : Nat) ≠ 0 by decide, show (2 : Nat) ≠ 1 by decide,
      show (3 : Nat) ≠ 0 by decide, show (3 : Nat) ≠ 1 by decide, show (3 : Nat) ≠ 2 by decide, if_false, Option.isSome_some]
  case refine_14 =>
    rw [show powering.sec.fw = Bank.const FwBanks.init from rfl, bootAll, show (Bank.const FwBanks.init).get 0 = FwBanks.init from rfl, fw_fails h]
  all_goals decide +kernel

/-- RESET_IN_N is low, or a rail cycle runs, or has failed. -/
theorem witness_RailsOff :
    State.reset.pwr.railsOk = true ∧ State.reset.pwr.state ≠ .unpowered ∧ (State.reset.pwr.state = .running) ∧ powering.pwr.state = .powering
    ∧ (cold.pwr.state ≠ .running ∧ cold.pwr.state ≠ .powering) ∧ State.reset.pwr.resetInN = true
    ∧ ((standby true false).pwr.state = .standby ∧ (standby true false).pwr.railsOk = false)
    ∧ (let s : State := { cold with pwr := { cold.pwr with state := .inReset, cycling := true } }
       s.pwr.resetInN = true ∧ s.pwr.state = .inReset ∧ s.pwr.cycling = true)
    ∧ (∀ n : Nat, ({ powering with pwr := { powering.pwr with railFails := n } } : State).pwr.railFails = n ∧ powering.pwr.resetInN = true)
    ∧ (0b111 : BitVec 3) ≠ State.reset.pwr.coolingNow := by
  refine ⟨?_, ?_, ?_, ?_, ?_, ?_, ?_, ?_, fun n => ⟨rfl, ?_⟩, ?_⟩ <;> decide +kernel

theorem witness_PowerControl :
    State.reset.pwr.ready = true ∧ State.reset.runState = 0 ∧ runningCmd.pwr.ready = true ∧ runningCmd.runState ≠ 0
    ∧ (State.reset.fab.regs.get 0).separated = false ∧ 8 ≤ min State.reset.pwr.cap State.reset.envelope
    ∧ powerLevel (State.reset.pwr.halves.get 0) ≤ 39 := by
  refine ⟨?_, ?_, ?_, ?_, ?_, ?_, ?_⟩ <;> decide +kernel

/-- A logical core with one s register poisoned. -/
def tainted (r : Nat) : State := onLc (fun l => { l with sPoison := l.sPoison.set r true, phys := 0 })
def mayTaint (r : Nat) : Bool :=
  let d := (tainted r).dev
  d.runner (0 : Fin 128) == some 0 && (d.core 0).takes.isEmpty && (d.core 0).moveQ.isEmpty && !d.ms.flip1.get (imemFlip 0 (d.lc 0).pc)
    && !d.ms.flip2.get (imemFlip 0 (d.lc 0).pc) && (d.lc 0).sPoison.get r && (d.lc 0).phys == 0 && decide ((d.core 0).arrayQ.length < 8)

theorem witness_PoisonedControl :
    (∀ r ∈ [0, 4, 60, 63], mayTaint r = true)
    ∧ (wOpcode wStream = opStream ∧ 4 = stShapeReg wStream) ∧ (wOpcode wDmake = opDmake ∧ 60 ∈ dmRegs wDmake ∧ 63 ∈ dmRegs wDmake)
    ∧ (wOpcode (iw [(0, 0x60), (45, 1), (46, 63)]) = opSignal ∧ sgIncReg (iw [(0, 0x60), (45, 1), (46, 63)]) = true
      ∧ 63 = sgIncreg (iw [(0, 0x60), (45, 1), (46, 63)]))
    ∧ (wOpcode (iw [(0, 0x61), (29, 1), (30, 63)]) = opWait ∧ wtCntReg (iw [(0, 0x61), (29, 1), (30, 63)]) = true
      ∧ 63 = wtCntreg (iw [(0, 0x61), (29, 1), (30, 63)]))
    ∧ (wOpcode (iw [(0, 0x02), (119, 63), (125, 7)]) = opWswap ∧ 63 ∈ flowRegs (iw [(0, 0x02), (119, 63), (125, 7)])
      ∧ 0 ∈ flowRegs (iw [(0, 0x02), (119, 63), (125, 7)]))
    ∧ findRun ((onLc (fun l => l)).dev.lc 0).orbit (running (run0 ((onLc (fun l => l)).dev.lc 0).orbit)).dev.runs
      = some (run0 ((onLc (fun l => l)).dev.lc 0).orbit) := by
  refine ⟨?_, ⟨?_, ?_⟩, ⟨?_, ?_, ?_⟩, ⟨?_, ?_, ?_⟩, ⟨?_, ?_, ?_⟩, ⟨?_, ?_, ?_⟩, ?_⟩ <;> decide +kernel

/-- A command at the front of the queue; an empty queue. -/
def queued : State := { owned with pending := [.hotWindow 0, .eventAcknowledge] }

theorem witness_StepRunsTheFront : queued.pending = .hotWindow 0 :: [.eventAcknowledge] := rfl
theorem witness_EmptyQueueTick : State.reset.pending = [] := rfl

theorem owned_legal : owned.Inv := by
  refine ⟨⟨fun h => HalfPwr.init_legal, by decide, by decide⟩, by decide, fun o h => ?_, (by intro o h; cases h), by decide, rfl, fun k => ?_⟩
  · cases h; decide
  · show (0 : Nat) ≤ 64
    decide
theorem witness_StepKeepsInvariant : queued.Inv ∧ ∃ t, Machine.step queued = .next t := ⟨owned_legal, ⟨_, rfl⟩⟩
theorem witness_FrameOfEveryRow :
    owned.Inv ∧ touches .inputOn = .module ∧ (∃ t, exec .inputOn owned = .next t)
    ∧ touches (.wload 0 wWload) = .dies ∧ (∃ t, exec (.wload 0 wWload) core0 = .next t)
    ∧ touches (.hotWindow 0) = .services ∧ (∃ t, exec (.hotWindow 0) owned = .next t) :=
  ⟨owned_legal, by decide, ⟨_, rfl⟩, by decide, ⟨_, rfl⟩, by decide, ⟨_, rfl⟩⟩
theorem witness_WrongCommandsStop :
    wOpcode 0 ≠ opWload ∧ wOpcode 0 ≠ opStream ∧ wOpcode 0 ≠ opVop ∧ wOpcode 0 ≠ opMove ∧ wOpcode 0 ≠ opTake ∧ wOpcode 0 ≠ opHalt
    ∧ (eOp (entry (query 0)) ∈ hostOps ∧ eOp (entry (query 0)) ≠ opLoad ∧ eOp (entry (query 0)) ≠ opReset)
    ∧ (∃ t, exec (.wload 0 wWload) core0 = .next t) := by
  refine ⟨?_, ?_, ?_, ?_, ?_, ?_, ⟨?_, ?_, ?_⟩, ⟨_, rfl⟩⟩ <;> decide +kernel
theorem witness_MemoryCells :
    (∀ i ∈ wBytes 16 2 0x1234, i.addr ≠ 15 ∧ i.addr ≠ 18) ∧ Memory.wf State.reset.dev.ms.mem = true := by decide +kernel
theorem witness_Windows : (0 : Int) = 69 - 69 + (0 : Nat) ∧ (-5 : Int) = 69 - 69 - (5 : Nat) := by
  decide

/-! Sessions. A message is built from the keys that it leads to: its tag is that of 32 or 161 zero bytes under K_ENC. -/

theorem cellGet_image (lo hi a : Nat) (l : List (Nat × Byte)) :
    cellGet (0 : Byte) a ((cellsIn l lo hi).map (fun c => (c.1 - lo, c.2))) = if lo + a < hi then cellGet (0 : Byte) (lo + a) l else 0 := by
  induction l with
  | nil => simp [cellsIn, cellGet]
  | cons c l ih =>
    obtain ⟨k, v⟩ := c
    unfold cellsIn at ih ⊢
    rw [List.filter_cons]
    by_cases h : lo ≤ k ∧ k < hi
    · rw [if_pos (by simp [h.1, h.2]), List.map_cons]
      simp only [cellGet]
      by_cases e : k - lo = a
      · rw [if_pos e, if_pos (by omega), if_pos (by omega)]
      · rw [if_neg e, ih, if_neg (show ¬ k = lo + a by omega)]
    · rw [if_neg (by simp only [Bool.and_eq_true, decide_eq_true_eq]; exact h), ih]
      simp only [cellGet]
      by_cases e : lo + a < hi
      · rw [if_pos e, if_pos e, if_neg (show ¬ k = lo + a by omega)]
      · rw [if_neg e, if_neg e]
theorem readList_slice (l : List Byte) : ∀ (n : Nat) (m : Mem) (p a : Nat), (∀ i < n, memGet m (p + i) = l.getD (a + i) 0) → a + n ≤ l.length →
    memReadList m p n = (l.drop a).take n := by
  intro n
  induction n with
  | zero => intro m p a _ _; simp [memReadList]
  | succ n ih =>
    intro m p a h k
    have h0 := h 0 (by omega)
    have ka : a < l.length := by omega
    rw [Nat.add_zero, Nat.add_zero, List.getD_eq_getElem?_getD, List.getElem?_eq_getElem ka, Option.getD_some] at h0
    rw [memReadList, ih m (p + 1) (a + 1) (fun i hi => ?_) (by omega), List.drop_eq_getElem_cons ka, List.take_succ_cons, h0]
    have := h (i + 1) (by omega)
    rwa [show p + (i + 1) = p + 1 + i by omega, show a + (i + 1) = a + 1 + i by omega] at this
theorem writeList_getD : ∀ (l : List Byte) (m : Mem) (p i : Nat), i < l.length → memGet (memWriteList m p l) (p + i) = l.getD i 0 := by
  intro l
  induction l with
  | nil => intro m p i h; simp at h
  | cons b l ih =>
    intro m p i h
    cases i with
    | zero =>
      rw [memWriteList, Nat.add_zero, memGet_writeList_outside _ _ _ _ (Or.inl (by omega))]
      exact memGet_set_same m p b
    | succ i =>
      rw [memWriteList, show p + (i + 1) = p + 1 + i by omega, ih _ _ _ (by simpa using h)]
      rfl

/-- A message in host memory, from address 0 on. -/
def holding (s : State) (msg : List Byte) : State := s.mapDev (fun d => { d with ms := { d.ms with mem := memWriteList [] hostBase msg } })
theorem holding_field (s : State) (msg : List Byte) (len a b : Nat) (h : msg.length = len) (k : b < len) (kab : a ≤ b) :
    ((holding s msg).image 0 len).field a b = (msg.drop a).take (b + 1 - a) := by
  refine readList_slice msg _ _ _ _ (fun i hi => ?_) (by omega)
  show cellGet (0 : Byte) (a + i) ((cellsIn _ (hostBase + 0) (hostBase + 0 + len)).map _) = _
  rw [cellGet_image, if_pos (by omega)]
  exact writeList_getD msg _ _ _ (by omega)
theorem num_field (m : Img) (a n : Nat) : m.num a n = leNat (memReadList m.mem a n) := by
  unfold Img.num
  induction n generalizing a with
  | zero => rfl
  | succ n ih => rw [memRead, memReadList, leNat, ih]

/-- K_ENC of a message whose first 320 bytes are `body`. -/
def encOf (body ikm : List Byte) : List Byte := (sessionKeys ((body.drop 8).take 48) ((body.drop 56).take 48) ikm).enc
def message (body ikm : List Byte) (n pad : Nat) : List Byte :=
  body ++ (List.replicate n 0 ++ (gcmTag (encOf body ikm) (List.replicate 12 0) [] (List.replicate n 0) ++ List.replicate pad 0))
theorem enc_length (body ikm : List Byte) : (encOf body ikm).length = 32 := hkdf384_length _ _ _ 32 (by decide) (by decide)
theorem message_length (body ikm : List Byte) (n pad : Nat) (h : body.length = 320) : (message body ikm n pad).length = 336 + n + pad := by
  simp only [message, List.length_append, List.length_replicate, gcmTag_length _ _ _ _ (enc_length _ _), h]
  omega

/-- The first 320 bytes of a message in memory. -/
theorem body_read (s : State) (body ikm : List Byte) (n pad a c : Nat) (h : body.length = 320) (z : a + c ≤ 320) (hc : 0 < c) :
    memReadList ((holding s (message body ikm n pad)).image 0 (336 + n + pad)).mem a c = (body.drop a).take c := by
  have := holding_field s _ _ a (a + c - 1) (message_length body ikm n pad h) (by omega) (by omega)
  unfold Img.field at this
  rw [show a + c - 1 + 1 - a = c by omega] at this
  rw [this, message, List.drop_append_of_le_length (by omega), List.take_append_of_le_length (by rw [List.length_drop]; omega)]
theorem body_first (s : State) (body ikm : List Byte) (n pad : Nat) (h : body.length = 320) :
    ((holding s (message body ikm n pad)).image 0 (336 + n + pad)).num 0 4 = leNat (body.take 4) := by
  rw [num_field, body_read s body ikm n pad 0 4 h (by decide) (by decide), List.drop_zero]

/-- A message is granted where its first bytes say the newest nonce and nothing reserved, and lead to keying material. -/
theorem granted (s : State) (x : Sec) (body ikm : List Byte) (n pad eph : Nat) (h : body.length = 320)
    (k1 : x.nonce = some (of384 ((body.drop 8).take 48))) (k2 : x.ownerGen < 64)
    (k3 : leNat (body.take 4) < 16 ∨ leNat (body.take 4) = 258) (k4 : leNat ((body.drop 201).take 7) = 0) (k5 : leNat ((body.drop 304).take 16) = 0)
    (k6 : n = if leNat (body.take 4) % 16 = 3 then 161 else 32)
    (k7 : x.material ((holding s (message body ikm n pad)).image 0 (336 + n + pad)) eph = some ikm) :
    (x.grant ((holding s (message body ikm n pad)).image 0 (336 + n + pad)) eph).isSome = true := by
  have l := message_length body ikm n pad h
  have pre (a c : Nat) := body_read s body ikm n pad a c h
  have n0 := body_first s body ikm n pad h
  generalize hm : (holding s (message body ikm n pad)).image 0 (336 + n + pad) = m at *
  have f8 : m.field 8 55 = (body.drop 8).take 48 := pre 8 48 (by decide) (by decide)
  have f56 : m.field 56 103 = (body.drop 56).take 48 := pre 56 48 (by decide) (by decide)
  have kind : m.kind = leNat (body.take 4) % 16 := by simp [Img.kind, nbits, n0]
  have len : m.sealedLen = n := by rw [Img.sealedLen, kind, k6]
  have plain : m.plain = true := by
    unfold Img.plain
    rw [num_field m 201, pre 201 7 (by decide) (by decide), num_field m 304, pre 304 16 (by decide) (by decide), k4, k5, n0]
    rcases k3 with z | z
    · simp only [nbits]
      rw [show leNat (body.take 4) / 2 ^ 4 = 0 by omega, show leNat (body.take 4) / 2 ^ 10 = 0 by omega]
      decide
    · rw [z]; decide
  have opens : (m.unseal (sessionKeys (m.field 8 55) (m.field 56 103) ikm).enc).isSome = true := by
    unfold Img.unseal
    dsimp only
    rw [len, f8, f56]
    have ct : m.field 320 (319 + n) = List.replicate n 0 := by
      have p : 0 < n := by rw [k6]; split <;> decide
      rw [← hm, holding_field s _ _ _ _ l (by omega) (by omega), message, show 319 + n + 1 - 320 = n by omega]
      exact slice _ _ _ 320 n h (List.length_replicate ..)
    have tag : m.field (320 + n) (335 + n) = gcmTag (encOf body ikm) (List.replicate 12 0) [] (List.replicate n 0) := by
      rw [← hm, holding_field s _ _ _ _ l (by omega) (by omega), message, show 335 + n + 1 - (320 + n) = 16 by omega, ← List.append_assoc]
      exact slice _ _ _ (320 + n) 16 (by rw [List.length_append, h, List.length_replicate]) (gcmTag_length _ _ _ _ (enc_length _ _))
    have ml : m.len = 336 + n + pad := by rw [← hm]; rfl
    rw [ct, tag, ml]
    show (if (_ : Prop) then _ else _ : Option (List Byte)).isSome = true
    rw [if_pos]
    · rfl
    · simp only [encOf, beq_self_eq_true, Bool.and_true, decide_eq_true_eq]; omega
  unfold Sec.grant
  rw [if_neg, if_neg, k7]
  · simp only [Option.isSome_map]
    exact opens
  · simp only [Bool.and_eq_true, decide_eq_true_eq]; omega
  · rw [f8]
    simp [k1, plain]

def openEntry (len : Nat) : Entry64 := entry [(0, 0x01), (128, len)]
/-- A module with the nonce 5 and an owner, that holds a message. -/
def opener (o : Option Owner) (msg : List Byte) : State :=
  holding (hosted { State.reset with sec := { State.reset.sec with owner := o, nonce := some 5 } }) msg
/-- What SessionCommands asks of a message that is granted. -/
def Grants (s : State) (len kind : Nat) (rotate : Bool) : Prop :=
  s.Fetches 0 0 0 (openEntry len) ∧ eOp (openEntry len) = opOpen ∧ s.fab.start = none ∧ s.recs = []
    ∧ (let s0 := s.taken 0 0 0 (openEntry len)
       let m := s.image (eAddr (openEntry len)) (eLen32 (openEntry len))
       s0.sec.closable m = false ∧ (s0.sec.grant m s0.eph).isSome = true ∧ m.kind = kind ∧ m.rotate = rotate)
theorem grants (o : Option Owner) (body ikm : List Byte) (n pad kind : Nat) (rotate : Bool) (h : body.length = 320)
    (k1 : (body.drop 8).take 48 = bytes384 5) (k2 : leNat (body.take 4) = kind + 256 * boolNat rotate) (k3 : kind = 1 ∨ kind = 2 ∨ (kind = 3 ∧ rotate = false))
    (k4 : leNat ((body.drop 201).take 7) = 0) (k5 : leNat ((body.drop 304).take 16) = 0) (k6 : n = if kind = 3 then 161 else 32)
    (k7 : rotate = true → kind = 2)
    (k8 : hostReady (hosted { State.reset with sec := { State.reset.sec with owner := o, nonce := some 5 } }) (openEntry (336 + n + pad)) = true)
    (k9 : eExempt (openEntry (336 + n + pad)) = true ∧ eOp (openEntry (336 + n + pad)) = opOpen ∧ eAddr (openEntry (336 + n + pad)) = 0
      ∧ eLen32 (openEntry (336 + n + pad)) = 336 + n + pad)
    (k10 : ({ State.reset.sec with owner := o, nonce := some 5 } : Sec).material
      ((opener o (message body ikm n pad)).image 0 (336 + n + pad)) State.reset.eph = some ikm) :
    Grants (opener o (message body ikm n pad)) (336 + n + pad) kind rotate := by
  have first := body_first (hosted { State.reset with sec := { State.reset.sec with owner := o, nonce := some 5 } }) body ikm n pad h
  have b : boolNat rotate ≤ 1 := by cases rotate <;> decide
  have bf : rotate = false → boolNat rotate = 0 := by intro h; rw [h]; rfl
  have kd : ((opener o (message body ikm n pad)).image 0 (336 + n + pad)).kind = kind := by
    unfold opener
    simp only [Img.kind, nbits, first, k2]
    omega
  refine ⟨fetches_open rfl k8 k9.1, k9.2.1, rfl, rfl, ?_, ?_, ?_, ?_⟩
  · simp only [k9.2.2.1, k9.2.2.2, Sec.closable]
    rw [kd, show (kind == 4) = false by simp; omega]
    rfl
  · simp only [k9.2.2.1, k9.2.2.2]
    refine granted _ _ body ikm n pad _ h ?_ ?_ ?_ k4 k5 ?_ k10
    · rw [k1, of384_bytes]; rfl
    · show 0 < 64; decide
    · cases hr : rotate
      · left; rw [hr] at k2; rw [k2]; have := bf hr; rw [hr] at this; omega
      · right; rw [k2, hr, k7 hr]; rfl
    · rw [k6, k2]; congr 1; rw [eq_iff_iff]; constructor <;> intro h <;> omega
  · simp only [k9.2.2.1, k9.2.2.2]; exact kd
  · simp only [k9.2.2.1, k9.2.2.2, Img.rotate, opener, nbits, first, k2]
    cases hr : rotate <;> simp [boolNat] <;> omega

/-- Bytes 0 to 103: KIND and ROTATE, MIN_PLAN_SVN 0, the nonce 5, the host's nonce 0. -/
def messageHead (kind rot : Nat) : List Byte :=
  [BitVec.ofNat 8 kind, BitVec.ofNat 8 rot, 0, 0, 0, 0, 0, 0] ++ (bytes384 5 ++ List.replicate 48 0)
theorem messageHead_length (kind rot : Nat) : (messageHead kind rot).length = 104 := by
  simp only [messageHead, List.length_append, List.length_cons, List.length_nil, bytes384_length, List.length_replicate]

theorem secret_material (x : Sec) (m : Img) (eph : Nat) (o : Owner) (k1 : m.kind = 2) (k2 : m.release = false) (k3 : x.opened = some o)
    (k4 : o.secret ≠ 0) (k5 : hmac384 (bytes256 o.secret) (m.field 0 103) = m.field 208 255) : x.material m eph = some (bytes256 o.secret) := by
  unfold Sec.material
  rw [k1, k2, k3]
  refine Eq.trans (b := if (decide (o.secret ≠ 0) && !false && (hmac384 (bytes256 o.secret) (m.field 0 103) == m.field 208 255)) = true
    then some (bytes256 o.secret) else none) rfl (if_pos ?_)
  rw [decide_eq_true k4, k5, beq_self_eq_true]
  rfl

/-- OPEN_SECRET and ROTATE of an owner with the secret 1. -/
def secretOwner : Owner := ⟨0, 1, 0⟩
def secretBody (rot : Nat) (proof : List Byte) : List Byte :=
  messageHead 2 rot ++ (List.replicate 104 0 ++ (proof ++ List.replicate 64 0))
theorem secretBody_length (rot : Nat) (proof : List Byte) (hp : proof.length = 48) : (secretBody rot proof).length = 320 := by
  simp only [secretBody, List.length_append, messageHead_length, List.length_replicate, hp]
theorem secret_grants (rotate : Bool) (proof : List Byte) (hp : proof.length = 48)
    (he : hmac384 (bytes256 1) (messageHead 2 (boolNat rotate)) = proof) :
    Grants (opener (some secretOwner) (message (secretBody (boolNat rotate) proof) (bytes256 1) 32 16)) 384 2 rotate := by
  have h := secretBody_length (boolNat rotate) proof hp
  have hd (a n : Nat) (k : a + n ≤ 104) : ((secretBody (boolNat rotate) proof).drop a).take n = ((messageHead 2 (boolNat rotate)).drop a).take n := by
    have := messageHead_length 2 (boolNat rotate)
    rw [secretBody, List.drop_append_of_le_length (by omega), List.take_append_of_le_length (by rw [List.length_drop]; omega)]
  refine grants (some secretOwner) _ _ 32 16 2 rotate h ?_ ?_ (by simp) ?_ ?_ rfl (fun _ => rfl) (by decide +kernel) (by decide +kernel) ?_
  · rw [hd 8 48 (by decide)]; exact slice [_, _, _, _, _, _, _, _] _ _ 8 48 rfl (bytes384_length 5)
  · have := hd 0 4 (by decide)
    rw [List.drop_zero, List.drop_zero] at this
    rw [this]
    cases rotate <;> rfl
  · rw [secretBody, show List.replicate 104 (0 : Byte) = List.replicate 97 0 ++ List.replicate 7 0 from rfl, List.append_assoc, ← List.append_assoc,
      slice _ _ _ 201 7 (by rw [List.length_append, messageHead_length, List.length_replicate]) (List.length_replicate ..)]
    rfl
  · rw [secretBody, show List.replicate 64 (0 : Byte) = List.replicate 48 0 ++ (List.replicate 16 0 ++ []) from rfl, ← List.append_assoc,
      ← List.append_assoc, ← List.append_assoc, slice _ _ _ 304 16 (by simp only [List.length_append, messageHead_length, List.length_replicate,
        hp]) (List.length_replicate ..)]
    rfl
  · have first := body_first (hosted { State.reset with sec := { State.reset.sec with owner := some secretOwner, nonce := some 5 } })
      (secretBody (boolNat rotate) proof) (bytes256 1) 32 16 h
    have read (a n : Nat) := body_read (hosted { State.reset with sec := { State.reset.sec with owner := some secretOwner, nonce := some 5 } })
      (secretBody (boolNat rotate) proof) (bytes256 1) 32 16 a n h
    have hf : leNat ((secretBody (boolNat rotate) proof).take 4) = 2 + 256 * boolNat rotate := by
      have := hd 0 4 (by decide)
      rw [List.drop_zero, List.drop_zero] at this
      rw [this]
      cases rotate <;> rfl
    have all : ((messageHead 2 (boolNat rotate)).drop 0).take 104 = messageHead 2 (boolNat rotate) := by
      rw [List.drop_zero, ← messageHead_length 2 (boolNat rotate), List.take_length]
    have f0 : ((opener (some secretOwner) (message (secretBody (boolNat rotate) proof) (bytes256 1) 32 16)).image 0 384).field 0 103
        = messageHead 2 (boolNat rotate) := (read 0 104 (by decide) (by decide)).trans ((hd 0 104 (by decide)).trans all)
    have f2 : ((opener (some secretOwner) (message (secretBody (boolNat rotate) proof) (bytes256 1) 32 16)).image 0 384).field 208 255
        = proof := by
      refine (read 208 48 (by decide) (by decide)).trans ?_
      rw [secretBody, ← List.append_assoc]
      exact slice _ _ _ 208 48 (by rw [List.length_append, messageHead_length, List.length_replicate]) hp
    have kd : ((opener (some secretOwner) (message (secretBody (boolNat rotate) proof) (bytes256 1) 32 16)).image 0 384).kind = 2 := by
      unfold opener
      simp only [Img.kind, nbits, first, hf]
      cases rotate <;> rfl
    have rl : ((opener (some secretOwner) (message (secretBody (boolNat rotate) proof) (bytes256 1) 32 16)).image 0 384).release = false := by
      unfold opener
      simp only [Img.release, nbits, first, hf]
      cases rotate <;> rfl
    exact secret_material _ _ _ secretOwner kd rl rfl (by decide +kernel) (by rw [f0, f2]; exact he)

/-- OPEN_KEY of an owner with a public key, whose signature stands in PROOF; and CLAIM of a module without an owner. The host's EPH_PUB
is the base point. -/
def sealedBody (kind : Nat) (proof : List Byte) : List Byte :=
  messageHead kind 0 ++ (basePub ++ (List.replicate 7 0 ++ (proof ++ List.replicate 16 0)))
theorem basePub_length : basePub.length = 97 := by decide +kernel
theorem sealedBody_length (kind : Nat) (proof : List Byte) (h : proof.length = 96) : (sealedBody kind proof).length = 320 := by
  simp only [sealedBody, List.length_append, messageHead_length, basePub_length, List.length_replicate, h]
def proof0 : List Byte := beBytes 48 17718368760733296037146100338782241195134169004973957731917767974382857475997122884618929778239315809177013645671317
  ++ beBytes 48 28560187478563887624712570219462927500106954137719702199932336627005258437555193227008943043195805361365723649806980
def keyOwner : Owner := ⟨of776 (ecBytes (some
  (15700132771216194604605624607057726184564831720625756434044660884372765582491116303378971985144066134196678586342061,
   25385326319120318860056841647016669781849293778160304854849354360108150466871872188469132198307303301367462650118982))), 0, 0⟩
/-- The signature verifies: of the digest that the published algorithm gives these bytes. -/
theorem proof0_digest : beNat (sha384 (messageHead 1 0 ++ (basePub ++ List.replicate 7 0)))
    = 0xb98f2d21746eb468af5865c6b27f403a6eef46e431243a6f7080d22b3776136d77fdf457e53e64db5d2b90e09c7a1284 := by decide +kernel
theorem proof0_verifies : ecdsaVerify (bytes776 keyOwner.pub) (sha384 (messageHead 1 0 ++ (basePub ++ List.replicate 7 0))) proof0 = true := by
  unfold ecdsaVerify
  simp only [proof0_digest]
  decide +kernel

theorem ecdh_base (k : Nat) : ecdh k basePub = some ((ecdh k basePub).getD []) := by
  have e : (ecPoint basePub).isSome = true := by decide +kernel
  unfold ecdh
  cases h : ecPoint basePub with
  | none => rw [h] at e; cases e
  | some q =>
    dsimp only
    generalize ecMul 384 (k % p384n) (some q) none = r
    cases r <;> rfl
def shared : List Byte := (ecdh State.reset.eph basePub).getD []

/-- What a message of this form leads to, its keying material given its PROOF. -/
theorem sealed_grants (o : Option Owner) (kind n pad : Nat) (proof : List Byte) (hp : proof.length = 96) (k : kind = 1 ∨ kind = 3)
    (k6 : n = if kind = 3 then 161 else 32)
    (k8 : hostReady (hosted { State.reset with sec := { State.reset.sec with owner := o, nonce := some 5 } }) (openEntry (336 + n + pad)) = true)
    (k9 : eExempt (openEntry (336 + n + pad)) = true ∧ eOp (openEntry (336 + n + pad)) = opOpen ∧ eAddr (openEntry (336 + n + pad)) = 0
      ∧ eLen32 (openEntry (336 + n + pad)) = 336 + n + pad)
    (k10 : ∀ m : Img, m.kind = kind → m.release = false → m.rotate = false → m.field 104 200 = basePub → m.field 208 303 = proof →
      m.field 0 207 = messageHead kind 0 ++ (basePub ++ List.replicate 7 0) →
      ({ State.reset.sec with owner := o, nonce := some 5 } : Sec).material m State.reset.eph = some shared) :
    Grants (opener o (message (sealedBody kind proof) shared n pad)) (336 + n + pad) kind false := by
  have h := sealedBody_length kind proof hp
  have four : (sealedBody kind proof).take 4 = [BitVec.ofNat 8 kind, 0, 0, 0] :=
    slice [] [BitVec.ofNat 8 kind, 0, 0, 0] _ 0 4 rfl rfl
  have num : leNat ((sealedBody kind proof).take 4) = kind := by
    rw [four]
    rcases k with rfl | rfl <;> rfl
  refine grants o _ _ n pad kind false h ?_ ?_ ?_ ?_ ?_ k6 (by simp) k8 k9 ?_
  · rw [sealedBody, messageHead, List.append_assoc, List.append_assoc]
    exact slice [_, _, _, _, _, _, _, _] _ _ 8 48 rfl (bytes384_length 5)
  · rw [num]; rfl
  · rcases k with rfl | rfl
    · exact Or.inl rfl
    · exact Or.inr (Or.inr ⟨rfl, rfl⟩)
  · rw [sealedBody, ← List.append_assoc, slice _ _ _ 201 7 (by rw [List.length_append, messageHead_length, basePub_length]) (List.length_replicate ..)]
    rfl
  · rw [sealedBody, show List.replicate 16 (0 : Byte) = List.replicate 16 0 ++ [] from rfl, ← List.append_assoc, ← List.append_assoc, ← List.append_assoc,
      slice _ _ _ 304 16 (by simp only [List.length_append, messageHead_length, basePub_length, List.length_replicate, hp]) (List.length_replicate ..)]
    rfl
  · have first := body_first (hosted { State.reset with sec := { State.reset.sec with owner := o, nonce := some 5 } }) (sealedBody kind proof) shared n pad h
    have read (a c : Nat) := body_read (hosted { State.reset with sec := { State.reset.sec with owner := o, nonce := some 5 } })
      (sealedBody kind proof) shared n pad a c h
    rw [num] at first
    apply k10
    · unfold opener
      simp only [Img.kind, nbits, first]
      rcases k with rfl | rfl <;> rfl
    · unfold opener
      simp only [Img.release, nbits, first]
      rcases k with rfl | rfl <;> rfl
    · unfold opener
      simp only [Img.rotate, nbits, first]
      rcases k with rfl | rfl <;> rfl
    · refine (read 104 97 (by decide) (by decide)).trans ?_
      exact slice _ _ _ 104 97 (messageHead_length kind 0) basePub_length
    · refine (read 208 96 (by decide) (by decide)).trans ?_
      rw [sealedBody, ← List.append_assoc, ← List.append_assoc]
      exact slice _ _ _ 208 96 (by simp only [List.length_append, messageHead_length, basePub_length, List.length_replicate]) hp
    · refine (read 0 208 (by decide) (by decide)).trans ?_
      rw [sealedBody, ← List.append_assoc, ← List.append_assoc, ← List.append_assoc (messageHead kind 0)]
      exact slice [] (messageHead kind 0 ++ (basePub ++ List.replicate 7 0)) _ 0 208 rfl (by simp only [List.length_append, messageHead_length, basePub_length, List.length_replicate])

theorem key_material (x : Sec) (m : Img) (eph : Nat) (o : Owner) {ikm : List Byte} (k1 : m.kind = 1) (k2 : m.release = false) (k3 : x.opened = some o)
    (k4 : o.pub ≠ 0) (k5 : ecdsaVerify (bytes776 o.pub) (sha384 (m.field 0 207)) (m.field 208 303) = true)
    (k6 : ecdh eph (m.field 104 200) = some ikm) : x.material m eph = some ikm := by
  unfold Sec.material
  rw [k1, k2, k3]
  refine Eq.trans (b := if (decide (o.pub ≠ 0) && !false && ecdsaVerify (bytes776 o.pub) (sha384 (m.field 0 207)) (m.field 208 303)) = true
    then ecdh eph (m.field 104 200) else none) rfl ((if_pos ?_).trans k6)
  rw [decide_eq_true k4, k5]
  rfl
theorem claim_material (x : Sec) (m : Img) (eph : Nat) {ikm : List Byte} (k1 : m.kind = 3) (k2 : m.release = false) (k3 : m.rotate = false)
    (k4 : x.opened = none) (k6 : ecdh eph (m.field 104 200) = some ikm) : x.material m eph = some ikm := by
  unfold Sec.material
  rw [k1, k2, k3, k4]
  exact Eq.trans (b := if (!false && !false) = true then ecdh eph (m.field 104 200) else none) rfl ((if_pos rfl).trans k6)
theorem key_grants : Grants (opener (some keyOwner) (message (sealedBody 1 proof0) shared 32 16)) 384 1 false := by
  refine sealed_grants (some keyOwner) 1 32 16 proof0 rfl (Or.inl rfl) rfl (by decide +kernel) (by decide +kernel) (fun m k1 k2 k3 k4 k5 k6 => ?_)
  exact key_material _ _ _ keyOwner k1 k2 rfl (by decide +kernel) (by rw [k5, k6]; exact proof0_verifies) (by rw [k4]; exact ecdh_base _)
theorem claim_grants : Grants (opener none (message (sealedBody 3 (List.replicate 96 0)) shared 161 15)) 512 3 false := by
  refine sealed_grants none 3 161 15 _ rfl (Or.inr rfl) rfl (by decide +kernel) (by decide +kernel) (fun m k1 k2 k3 k4 k5 k6 => ?_)
  exact claim_material _ _ _ k1 k2 k3 rfl (by rw [k4]; exact ecdh_base _)

/-- A message of a kind, with its bits of byte 1, that opens nothing. -/
def plainMessage (kind rot : Nat) : List Byte := [BitVec.ofNat 8 kind, BitVec.ofNat 8 rot, 0, 0, 0, 0, 0, 0, 5]
def closing (rot : Nat) : State := holding { awake with sec := { awake.sec with nonce := some 5 } } (plainMessage 4 rot)
def stale (kind rot : Nat) : State := holding (hosted State.reset) (plainMessage kind rot)
def mayClose (rot : Nat) : Bool :=
  let m := (closing rot).image 0 384
  (closing rot).sec.closable m && m.release == (rot == 2) && (closing rot).fab.start.isNone && (closing rot).recs.isEmpty
def mayFail (kind rot row : Nat) : Bool :=
  let s := stale kind rot
  let e := openEntry 384
  let s0 := s.taken 0 0 0 e
  let m := s.image (eAddr e) (eLen32 e)
  hostReady s e && eExempt e && eOp e == opOpen && s.fab.start.isNone && s.recs.isEmpty && !s0.sec.closable m && (s0.sec.grant m s0.eph).isNone
    && openRow s e == row

theorem witness_SessionCommands :
    Grants (opener (some keyOwner) (message (sealedBody 1 proof0) shared 32 16)) 384 1 false
    ∧ (∀ rotate, ∃ msg, Grants (opener (some secretOwner) msg) 384 2 rotate)
    ∧ Grants (opener none (message (sealedBody 3 (List.replicate 96 0)) shared 161 15)) 512 3 false
    ∧ (∀ rot ∈ [0, 2], (closing rot).Fetches 0 0 0 (mac0 [(0, 0x01), (128, 384)]) ∧ eOp (mac0 [(0, 0x01), (128, 384)]) = opOpen ∧ mayClose rot = true
      ∧ eAddr (mac0 [(0, 0x01), (128, 384)]) = 0 ∧ eLen32 (mac0 [(0, 0x01), (128, 384)]) = 384)
    ∧ (∀ r ∈ [(1, 0, 1), (2, 0, 2), (3, 0, 3), (4, 0, 4), (2, 1, 5), (4, 2, 6)], mayFail r.1 r.2.1 r.2.2 = true) := by
  refine ⟨key_grants, fun rotate => ⟨_, secret_grants rotate _ (hmac384_length _ _) rfl⟩, claim_grants, fun rot h => ⟨fetches_signed rfl ?_, mac0_op _ _ (by decide +kernel), ?_,
    (mac0_bits _ _ _ (by decide)).trans (by decide +kernel), (mac0_bits _ _ _ (by decide)).trans (by decide +kernel)⟩, by decide +kernel⟩
  · have : ∀ rot ∈ [0, 2], hostReady (closing rot) (entry [(0, 0x01), (128, 384)]) = true := by decide +kernel
    exact this rot h
  · have : ∀ rot ∈ [0, 2], mayClose rot = true := by decide +kernel
    exact this rot h

/-! A plan: a header, the link schedule of IOA without entries, and the signature; the job has one module and no core, and the image is signed under
the key of `planOwner`. What a static analysis answers whose method the spec does not give is a premise. -/

def planHead : Mem := [(0, 80), (1, 76), (2, 65), (3, 78), (4, 1), (6, 2), (8, 128), (9, 3), (128, 16), (137, 1), (144, 32), (148, 1), (152, 128), (153, 2), (256, 32), (257, 78), (263, 1), (512, 63), (513, 63)]
def planSign : List Byte := beBytes 48 19057406375722048420962158005877216899830918115832401613504665358282423215202386823381466588045765765523252858613388
  ++ beBytes 48 19057406375722048420962158005877216899830918115832401613504665358282423215202386823381466588045765765523252858613388
def planOwner : Owner := ⟨of776 (ecBytes (some
  (33034837058776490170077703231009833270647964107211578941723368394294033163631343536126736598515064393597698689983421,
   1039188621403023540209542134815162439171346249744566697678547868403308088216588851543103902448033377224164423110996))), 0, 0⟩
def planImg : Img := ⟨memWriteList planHead 648 planSign, 896⟩
theorem planImg_digest : beNat (planImg.signedDigest 640) = 0x7bd18719aa3e9e4234e113b0f1ab9a30e4f2c5fdce7f38a1ebc494a009d2684608f9524b229131d6ea3a088e65e46e8c := by decide +kernel
theorem planImg_signed : planImg.signed (some planOwner) 0 = true := by
  have v : ecdsaVerify (bytes776 planOwner.pub) (planImg.signedDigest 640) planSign = true := by
    unfold ecdsaVerify
    simp only [planImg_digest]
    decide +kernel
  have a : planImg.signAt = some 640 := by decide +kernel
  have f : planImg.field 648 743 = planSign := by decide +kernel
  have k : nbits (planImg.num 640 4) 1 0 = 0 := by decide +kernel
  unfold Img.signed
  rw [a]
  dsimp only
  rw [f, k]
  refine Eq.trans (b := (planOwner.pub != 0 && ecdsaVerify (bytes776 planOwner.pub) (planImg.signedDigest 640) planSign)
    && decide (0 ≤ planImg.num 644 4)) rfl ?_
  rw [v]
  decide +kernel
/-- A module with a session and that owner, which holds the image at host address 0. -/
def loadable : State :=
  { awake with
    sec := { awake.sec with owner := some planOwner }
    dev := { awake.dev with ms := { awake.dev.ms with mem := planImg.mem.map (fun c => (hostBase + c.1, c.2)) } } }
def loadEntry (len : Nat) : List (Nat × Nat) := [(0, 0x10), (128, len)]
theorem planImg_placed : loadable.image 0 896 = planImg := by decide +kernel

theorem planImg_passes (h : ∀ c, Config.staticVerdict c planImg.digest = none) : planImg.refusal loadable.dev 0 loadable.envelope = none := by
  unfold Img.refusal
  simp only [h]
  decide +kernel

theorem load_accepted (h : ∀ c, Config.staticVerdict c planImg.digest = none) (e : Entry64) :
    (loadable.taken 0 0 0 e).verdict planImg 0 = none := by
  have k : (!planImg.signed (loadable.taken 0 0 0 e).sec.opened 0) = false := by
    rw [show (loadable.taken 0 0 0 e).sec.opened = some planOwner from rfl, planImg_signed]
    rfl
  refine Eq.trans (b := if (!planImg.signed (loadable.taken 0 0 0 e).sec.opened 0) = true then some planImg.signRefused
    else planImg.refusal loadable.dev 0 loadable.envelope) rfl ?_
  rw [k]
  exact (if_neg (by decide)).trans (planImg_passes h)

/-- A plan is installed, time is held, and the links that the plan uses are up; and a module without a plan. -/
def startable : State :=
  let s := awake
  { s with dev := { s.dev with plan := { s.dev.plan with installed := true } }
           fab := { s.fab with tb := { s.fab.tb with state := 2 }, sched := s.fab.sched.set 0 { SchedPlan.none with orbitTicks := 20000 } } }
def startAt (slot : Nat) : List (Nat × Nat) := [(0, 0x11), (64, slot), (128, 1)]
def stepOf (v : Nat) : List (Nat × Nat) := [(0, 0x12), (64, v)]
def mayPlan (s : State) (l : List (Nat × Nat)) (op : Nat) : Bool := hostReady s (entry l) && eOp (entry l) == op && s.fab.start.isNone

theorem witness_PlanCommands :
    (mayPlan loadable (loadEntry 896) opLoad = true ∧ loadable.sec.session = some session0 ∧ eAddr (mac0 (loadEntry 896)) = 0
      ∧ eLen64 (mac0 (loadEntry 896)) = 896 ∧ eModule (mac0 (loadEntry 896)) = 0 ∧ loadable.image 0 896 = planImg
      ∧ ((∀ c, Config.staticVerdict c planImg.digest = none) → (loadable.taken 0 0 0 (mac0 (loadEntry 896))).verdict planImg 0 = none))
    ∧ (mayPlan awake (loadEntry 0) opLoad = true ∧ eLen64 (mac0 (loadEntry 0)) = 0 ∧ (awake.verdict (awake.image 0 0) 0).isSome = true)
    ∧ (mayPlan startable (startAt 100) opStart = true ∧ eSlot (mac0 (startAt 100)) = 100 ∧ startable.startRefused 100 = none
      ∧ (startable.taken 0 0 0 (mac0 (startAt 100))).startRefused 100 = startable.startRefused 100)
    ∧ (eSlot (mac0 (startAt 0)) = 0 ∧ startable.startRefused 0 = some 0x23 ∧ awake.startRefused 0 = some 0x13)
    ∧ (mayPlan startable (stepOf 0x3F800000) opStep = true ∧ eValue (mac0 (stepOf 0x3F800000)) = 0x3F800000 ∧ finite32 0x3F800000 = true
      ∧ startable.dev.plan.installed = true ∧ (startable.port 0).hold.length < 4096)
    ∧ (eValue (mac0 (stepOf 0x7F800000)) = 0x7F800000 ∧ finite32 0x7F800000 = false) ∧ awake.dev.plan.installed = false := by
  have f (l : List (Nat × Nat)) (hi lo v : Nat) (k : hi < 384) (h : bitsOf (entry l) hi lo = v) : bitsOf (mac0 l) hi lo = v := (mac0_bits l hi lo k).trans h
  refine ⟨⟨by decide +kernel, rfl, f _ _ _ _ (by decide) (by decide +kernel), f _ _ _ _ (by decide) (by decide +kernel),
      f _ _ _ _ (by decide) (by decide +kernel), planImg_placed, fun h => load_accepted h _⟩,
    ⟨by decide +kernel, f _ _ _ _ (by decide) (by decide +kernel), by decide +kernel⟩,
    ⟨by decide +kernel, f _ _ _ _ (by decide) (by decide +kernel), by decide +kernel, rfl⟩,
    ⟨f _ _ _ _ (by decide) (by decide +kernel), by decide +kernel, by decide +kernel⟩,
    ⟨by decide +kernel, congrArg (BitVec.ofNat 32) (f (stepOf 0x3F800000) (8 * 11 + 7) (8 * 8) 0x3F800000 (by decide) (by decide +kernel)), by decide +kernel,
      rfl, by decide +kernel⟩,
    ⟨congrArg (BitVec.ofNat 32) (f (stepOf 0x7F800000) (8 * 11 + 7) (8 * 8) 0x7F800000 (by decide) (by decide +kernel)), by decide +kernel⟩, rfl⟩

/-! Worked examples of the spec. -/

/-- Chapter 8, TAKE: DST 10, COUNTER 3, INC 1, COND 6, FREG 10, TARGET 64. -/
theorem test_take_word :
    let w : IWord := 0xC5008000000000000000000004300A50
    wOpcode w = opTake ∧ tkDst w = 10 ∧ tkCounter w = 3 ∧ tkInc w = 1 ∧ wCond w = 6 ∧ wFreg w = 10 ∧ wTarget w = 64 := by decide
/-- Chapter 2: in a block of E4M3 whose largest magnitude is 300 the scale byte is 0x7F, and 300 becomes 0x79. -/
theorem test_block_300 : blockScale 3 [.fin false 300 0] = 0x7F ∧ (blockElem 3 0x7F .nearest (.fin false 300 0)).1 = 0x79 := by decide +kernel
/-- R68: 1.3 becomes 0x3B from r = 39,322 on, 0x3A below it and to nearest. -/
theorem test_stochastic_13 :
    (blockElem 3 0x7F (.stochastic 39322) (f32 0x3FA66666)).1 = 0x3B ∧ (blockElem 3 0x7F (.stochastic 39321) (f32 0x3FA66666)).1 = 0x3A
    ∧ (blockElem 3 0x7F .nearest (f32 0x3FA66666)).1 = 0x3A := by decide +kernel
/-- R329: the tie at 1.0 + 2^-24 goes to even, and 1.0 + 2^-23 is exact. -/
theorem test_sum_order : addF32 0x3F800000 0x33800000 = 0x3F800000 ∧ addF32 0x3F800000 (addF32 0x33800000 0x33800000) = 0x3F800001 := by decide +kernel
/-- R352: the channels of four words under the fixed key of the example. -/
theorem test_channels :
    ([0, 8192, 16384, 24576].map (fun o => (channelOf 0x0800000000000001 (t1Base + o)).2)) = [1, 0, 3, 2] := by decide +kernel
/-- R419: the window of 8,393 usable ticks from tick 70,500 ends at 78,925. -/
theorem test_window : windowEnd 70500 8393 = 78925 := by decide +kernel
/-- R411: a delay of 60 ns and an offset of 2.5 ns, in sixteenths. -/
theorem test_exchange : exchDelay 16000000 16001000 16000000 16000920 = 960 ∧ exchOffset 16000000 16001000 16000000 16000920 = 40 := by decide
/-- R517: the 38th entry of queue 0 of port 1. -/
theorem test_handle : cmdHandle 1 0 37 = 0x80000025 := by decide

/-! Commands that the spec does not let be sent: one for each check. -/

theorem test_wf_word : (Instr.wload 0 wWload).wf = true := by decide +kernel
theorem test_wf_opcode : (Instr.wload 0 (iw [(0, 0x7F)])).wf = false := by decide +kernel
theorem test_wf_other_row : (Instr.wload 0 (iw [(0, 0x02)])).wf = false := by decide +kernel
theorem test_wf_reserved : (Instr.wswap 0 (iw [(0, 0x02), (64, 1)])).wf = false := by decide +kernel
theorem test_wf_flow :
    ([[(119, 1)], [(105, 1)], [(119, 1), (125, 1)], [(119, 63), (125, 6)], [(119, 63), (125, 7)]].map (fun l => (Instr.wswap 0 (iw ((0, 0x02) :: l))).wf))
      = [false, false, false, false, false] := by decide +kernel
theorem test_wf_halt : (Instr.halt 0 (iw [(0, 0xF0), (125, 1)])).wf = false ∧ (Instr.halt 0 (iw [(0, 0xF0)])).wf = true := by decide +kernel
theorem test_wf_signal : (Instr.signal 0 (iw [(0, 0x60), (8, 3)])).wf = false := by decide +kernel
theorem test_wf_row_bits :
    (Instr.vopVector 0 wAdd none).wf = false ∧ (Instr.vopScalar 0 wVop).wf = false ∧ (Instr.move 0 wLoadS).wf = false
    ∧ (Instr.moveToSreg 0 wMove).wf = false ∧ (Instr.checkRegion 0 (iw [(0, 0x70)])).wf = false ∧ (Instr.ctxsaveYield 0 wSave).wf = false := by
  decide +kernel
theorem test_wf_unit : (Instr.checkRepeat 0x0080 .pass).wf = false ∧ (Instr.healthWindowExpiry 0x9000).wf = false ∧ (Instr.unitReturn 0x2010 0).wf = false := by
  decide +kernel
theorem test_wf_index : (Instr.sendStart 0 65536).wf = false ∧ (Instr.bucketStage 4096).wf = false ∧ (Instr.contribReceive 0 65536).wf = false := by
  decide +kernel
theorem test_wf_header :
    (Instr.idleFrame 0 ⟨2 ^ 24, none, 0, 0⟩).wf = false ∧ (Instr.idleFrame 0 ⟨0, none, 1024, 0⟩).wf = false
    ∧ (Instr.idleFrame 0 ⟨0, some (2 ^ 24), 0, 0⟩).wf = false := by decide +kernel
theorem test_wf_entry :
    (Instr.startOrbits 0 0 0 (entry [(0, 0x11), (128, 1)])).wf = true ∧ (Instr.startOrbits 0 0 0 (entry [(0, 0x11)])).wf = false
    ∧ (Instr.startOrbits 0 0 0 (entry [(0, 0x13), (128, 1)])).wf = false ∧ (Instr.startOrbits 0 0 0 (entry [(0, 0x11), (8, 1), (128, 1)])).wf = false
    ∧ (Instr.loadPlan 0 0 0 (entry [(0, 0x11), (128, 1)])).wf = false := by decide +kernel

end Sys2Proof.Tests
end

section
/-! The accumulation window of a pass (R56, R57): what the cut of one contribution keeps and loses, then what a whole pass sums. -/

namespace Sys2Proof.Machine

/-! ### The cut toward zero -/

/-- Nothing is lost where the unit divides the value. -/
theorem cutTo_add (m k : Nat) (q : Int) : cutTo m (q + k) q = (m * 2 ^ k, false) := by
  have hq : q ≤ q + k := by omega
  have hk : (q + k - q).toNat = k := by omega
  simp only [cutTo, if_pos hq, hk, Nat.shiftLeft_eq]

/-- Below the unit the lowest `k` bits go. At `k = 0` this is the other branch of `cutTo`, which agrees: the value is a multiple of
the unit and a remainder by 1 is 0. -/
theorem cutTo_sub (m k : Nat) (q : Int) : cutTo m (q - k) q = (m / 2 ^ k, m % 2 ^ k != 0) := by
  cases k with
  | zero => simpa [Nat.mod_one] using cutTo_add m 0 q
  | succ k =>
    have hq : ¬ q ≤ q - (k + 1 : Nat) := by omega
    have hk : (q - (q - (k + 1 : Nat))).toNat = k + 1 := by omega
    simp only [cutTo, if_neg hq, hk, Nat.shiftRight_eq_div_pow]

@[simp] theorem truncContrib_num_value (a e : Int) (n : Bool) (m : Nat) :
    (truncContrib a (.num n m e)).1 = if n then -((cutTo m e (a - 69)).1 : Int) else ((cutTo m e (a - 69)).1 : Int) := rfl

@[simp] theorem truncContrib_num_lost (a e : Int) (n : Bool) (m : Nat) :
    (truncContrib a (.num n m e)).2.1 = (cutTo m e (a - 69)).2 := rfl

/-! ### The sum of a pass -/

theorem sumContribs_value (a : Int) (l : List Contrib) : (sumContribs a l).1 = (l.map (fun c => (truncContrib a c).1)).sum := by
  induction l with
  | nil => rfl
  | cons c l ih => simp [sumContribs, ih]

theorem sumContribs_lost (a : Int) (l : List Contrib) : (sumContribs a l).2.1 = l.any (fun c => (truncContrib a c).2.1) := by
  induction l with
  | nil => rfl
  | cons c l ih => simp [sumContribs, ih]

/-- A closed window is a function of the sum of the cut contributions and of whether any of them lost a bit. -/
theorem winOf_window (a : Int) (due : Nat) (sp : Special) (l : List Contrib) :
    (winOf a due sp l).1 =
      { w := BitVec.ofInt 80 (l.map (fun c => (truncContrib a c).1)).sum
        sticky := l.any (fun c => (truncContrib a c).2.1)
        anchor := a, due := due, special := sp } := by
  simp only [winOf, sumContribs_value, sumContribs_lost]

/-- The order of arrival does not reach the window (R57): a sum and an "any" do not see the order of their list. -/
theorem winOf_window_perm (a : Int) (due : Nat) (sp : Special) {l l' : List Contrib} (h : l.Perm l') :
    (winOf a due sp l').1 = (winOf a due sp l).1 := by
  have hsum := (h.map (fun c => (truncContrib a c).1)).sum_eq
  have hany := h.any_eq (f := fun c => (truncContrib a c).2.1)
  rw [winOf_window, winOf_window, hsum, hany]

/-- Settles O51: the cut by the two places of the unit, the pass by the window that `winOf_window` reads off its list. -/
theorem windows : Obligations.Windows := by
  unfold Obligations.Windows
  refine ⟨fun a e n m k => ⟨?_, ?_⟩, fun a due sp l => ⟨?_, ?_, fun _ => winOf_window_perm a due sp⟩⟩
  · rintro rfl
    simp [cutTo_add]
  · rintro rfl
    simp [cutTo_sub]
  · rw [winOf_window, List.sum]
  · simp [winOf_window]

end Sys2Proof.Machine
end

section
/-! The weight sets of a core: what the end of a WLOAD (R79, R81) and the exchange of a WSWAP (R77, R78) leave of them, before the
array queue advances. -/

namespace Sys2Proof.Machine

/-! ### The binding of a core to its Coma engine -/

@[simp] theorem Dev.onBinding_core (d : Dev) (core n : Nat) (f : Binding → Binding) : (d.onBinding core f).core n = d.core n := by
  unfold Dev.onBinding
  split <;> rfl

@[simp] theorem Dev.onBinding_ms (d : Dev) (core : Nat) (f : Binding → Binding) : (d.onBinding core f).ms = d.ms := by
  unfold Dev.onBinding
  split <;> rfl

@[simp] theorem Dev.onBinding_lcs (d : Dev) (core : Nat) (f : Binding → Binding) : (d.onBinding core f).lcs = d.lcs := by
  unfold Dev.onBinding
  split <;> rfl

/-! ### The end of a load -/

/-- What the loads and the exchanges move: the active set, the shadow set and the load in progress. -/
def Core.weights (c : Core) : WeightSet × WeightSet × Option LoadJob := (c.active, c.shadow, c.load)

/-- The reads that a write makes for its error codes count and record, and move no weight set. -/
theorem Dev.write_weights (d : Dev) (l : List WItem) (p : Bool) (n : Nat) : ((d.write l p).core n).weights = (d.core n).weights :=
  Dev.write_proj Core.weights (fun _ _ _ => rfl) (fun _ _ => rfl) d l p n

theorem Dev.finishLoad_weights (d : Dev) (core : Nat) (j : LoadJob) :
    ((d.finishLoad core j).core core).weights = ((d.core core).active, j.set, none) := by
  unfold Dev.finishLoad
  dsimp only
  rw [Dev.onBinding_core, Dev.write_weights, updCore_core]
  rfl

theorem Dev.finishLoad_mem (d : Dev) (core : Nat) (j : LoadJob) :
    (d.finishLoad core j).ms.mem = applyWrites d.ms.mem (residueItems core j.set.resArea j.set.resSwizzle j.residue 0) := by
  unfold Dev.finishLoad
  dsimp only
  rw [Dev.onBinding_ms, Dev.write_mem, Dev.updCore_ms]

theorem doShadowSetValid_of_load {d : Dev} {core : Nat} {j : LoadJob} (h : (d.core core).load = some j) :
    doShadowSetValid d core = (d.finishLoad core j).after core := by
  unfold doShadowSetValid
  rw [h]

/-! ### The exchange -/

/-- The exchange alone: WSWAP leaves the queue, the core's sets change places, and so do the stores of the bound engine. -/
def Dev.exchangeSets (d : Dev) (core : Nat) : Dev :=
  ((d.popArray core).updCore core (fun c => { c with active := c.shadow, shadow := c.active })).onBinding core
    (fun b => { b with active := b.shadow, shadow := b.active })

theorem doWeightSetExchange_of_canExchange {d : Dev} {core : Nat} (h : (d.core core).canExchange = true) :
    doWeightSetExchange d core = (d.exchangeSets core).after core := if_pos h

theorem Dev.exchangeSets_core (d : Dev) (core : Nat) :
    (d.exchangeSets core).core core =
      { d.core core with
        arrayQ := (d.core core).arrayQ.drop 1, active := (d.core core).shadow, shadow := (d.core core).active } := by
  simp [Dev.exchangeSets, Dev.popArray]

theorem Dev.exchangeSets_ms (d : Dev) (core : Nat) : (d.exchangeSets core).ms = d.ms := Dev.onBinding_ms ..

theorem Dev.exchangeSets_lcs (d : Dev) (core : Nat) : (d.exchangeSets core).lcs = d.lcs := Dev.onBinding_lcs ..

theorem exec_weightSetExchange_of_canExchange {s : State} {core : Fin 128} (h : (s.dev.core core).canExchange = true) :
    exec (.weightSetExchange core) s = .next (s.mapDev (fun _ => (s.dev.exchangeSets core).after core)) := by
  rw [exec_weightSetExchange, devRow, State.mapDev, doWeightSetExchange_of_canExchange h]
  rfl

/-- Settles O8: a load ends in `finishLoad`, an exchange in `exchangeSets`, and a second exchange swaps the sets back. -/
theorem weightSetEvents : Obligations.WeightSetEvents := by
  unfold Obligations.WeightSetEvents
  intro s core
  refine ⟨fun j hload => ?_, fun hready => ?_, fun t hactive hshadow hready => ?_⟩
  · have hweights := Dev.finishLoad_weights s.dev core j
    simp only [Core.weights, Prod.mk.injEq] at hweights
    obtain ⟨hact, hshd, hnone⟩ := hweights
    refine ⟨s.dev.finishLoad core j, ?_, hshd, hnone, hact, Dev.finishLoad_mem s.dev core j⟩
    rw [exec_shadowSetValid, devRow, State.mapDev, doShadowSetValid_of_load hload]
    rfl
  · refine ⟨s.dev.exchangeSets core, exec_weightSetExchange_of_canExchange hready, ?_⟩
    simp [Dev.exchangeSets_core, Dev.exchangeSets_ms, Dev.exchangeSets_lcs]
  · refine ⟨t.dev.exchangeSets core, exec_weightSetExchange_of_canExchange hready, ?_⟩
    simp [Dev.exchangeSets_core, hactive, hshadow]

end Sys2Proof.Machine
end

section
/-! Residues modulo 65,535 (R103). There 2^16 is 1, so that every power of two, of either sign of its exponent, is a unit, and a value
±m · 2^e has an image in the ring `ZMod 65535`. The model's residue is the number below 65,535 that stands for that image; the laws of
residues are then laws of the ring. -/

namespace Sys2Proof.Machine

/-! ### The image of a value -/

/-- The unit 2 of the ring; its inverse is 2^15. -/
def twoMod : (ZMod 65535)ˣ := Units.ofPowEqOne 2 16 (by decide) (by decide)

@[simp] theorem twoMod_val : (twoMod : ZMod 65535) = 2 := rfl

theorem twoMod_pow : twoMod ^ 16 = 1 := Units.pow_ofPowEqOne _ _

/-- The integer that a sign and a magnitude stand for. -/
def signedInt (neg : Bool) (m : Nat) : Int := if neg then -m else m

theorem signedInt_natAbs (x : Int) : signedInt (decide (x < 0)) x.natAbs = x := by
  by_cases h : x < 0
  · simp only [signedInt, h, decide_true, if_true]; omega
  · simp only [signedInt, h, decide_false, Bool.false_eq_true, if_false]; omega

theorem signedInt_mul (n n' : Bool) (m m' : Nat) : signedInt (n != n') (m * m') = signedInt n m * signedInt n' m' := by
  cases n <;> cases n' <;> simp [signedInt]

theorem rotRes_cast (m : Nat) (e : Int) : (rotRes m e : ZMod 65535) = m * (twoMod ^ e : (ZMod 65535)ˣ) := by
  have hnat : twoMod ^ e = twoMod ^ (e % 16).toNat := by
    rw [zpow_eq_zpow_emod' e twoMod_pow, ← zpow_natCast, Int.toNat_of_nonneg (by omega)]
    rfl
  simp [rotRes, hnat]

theorem resOf_cast (n : Bool) (m : Nat) (e : Int) :
    (resOf n m e : ZMod 65535) = signedInt n m * (twoMod ^ e : (ZMod 65535)ˣ) := by
  have hle : rotRes m e ≤ 65535 := (Nat.mod_lt _ (by decide)).le
  have htop : ((65535 : Nat) : ZMod 65535) = 0 := ZMod.natCast_self 65535
  cases n with
  | false => simp [resOf, signedInt, rotRes_cast]
  | true =>
    simp only [resOf, signedInt, if_true, ZMod.natCast_mod, Nat.cast_sub hle, htop, rotRes_cast]
    simp

theorem resAdd_cast (a b : Nat) : (resAdd a b : ZMod 65535) = a + b := by simp [resAdd]

theorem resMul_cast (a b : Nat) : (resMul a b : ZMod 65535) = a * b := by simp [resMul]

/-! ### A residue is below 65,535, so that its image determines it -/

theorem resOf_lt (n : Bool) (m : Nat) (e : Int) : resOf n m e < 65535 := by
  cases n <;> exact Nat.mod_lt _ (by decide)

theorem resAdd_lt (a b : Nat) : resAdd a b < 65535 := Nat.mod_lt _ (by decide)

theorem resMul_lt (a b : Nat) : resMul a b < 65535 := Nat.mod_lt _ (by decide)

theorem eq_of_cast_eq {a b : Nat} (ha : a < 65535) (hb : b < 65535) (h : (a : ZMod 65535) = b) : a = b :=
  ((ZMod.natCast_eq_natCast_iff a b 65535).1 h).eq_of_lt_of_lt ha hb

theorem resOf_mul (n n' : Bool) (m m' : Nat) (e e' : Int) :
    resOf (n != n') (m * m') (e + e') = resMul (resOf n m e) (resOf n' m' e') := by
  refine eq_of_cast_eq (resOf_lt ..) (resMul_lt ..) ?_
  rw [resMul_cast, resOf_cast, resOf_cast, resOf_cast, signedInt_mul, zpow_add]
  push_cast
  ring

theorem resOf_shift (n : Bool) (m k : Nat) (e : Int) : resOf n (m * 2 ^ k) e = resOf n m (e + k) := by
  refine eq_of_cast_eq (resOf_lt ..) (resOf_lt ..) ?_
  have hsign : signedInt n (m * 2 ^ k) = signedInt n m * 2 ^ k := by cases n <;> simp [signedInt]
  rw [resOf_cast, resOf_cast, hsign, zpow_add, zpow_natCast]
  push_cast [twoMod_val]
  ring

theorem resOf_add (x y e : Int) :
    resOf (decide (x + y < 0)) (x + y).natAbs e
      = resAdd (resOf (decide (x < 0)) x.natAbs e) (resOf (decide (y < 0)) y.natAbs e) := by
  refine eq_of_cast_eq (resOf_lt ..) (resAdd_lt ..) ?_
  rw [resAdd_cast, resOf_cast, resOf_cast, resOf_cast, signedInt_natAbs, signedInt_natAbs, signedInt_natAbs]
  push_cast
  ring

/-! ### The rotation and the end-around carry in 16 bits -/

/-- A rotation puts the bits that leave at the top back at the bottom. -/
theorem toNat_rotateLeft_eq_add {w r : Nat} (x : BitVec w) (h : r < w) :
    (x.rotateLeft r).toNat = 2 ^ r * (x.toNat % 2 ^ (w - r)) + x.toNat / 2 ^ (w - r) := by
  have hw : 2 ^ w = 2 ^ r * 2 ^ (w - r) := by rw [← Nat.pow_add, Nat.add_sub_cancel' h.le]
  have hlow : x.toNat / 2 ^ (w - r) < 2 ^ r := Nat.div_lt_of_lt_mul (by rw [Nat.mul_comm, ← hw]; exact x.isLt)
  rw [BitVec.toNat_rotateLeft, Nat.mod_eq_of_lt h, Nat.shiftLeft_eq, Nat.shiftRight_eq_div_pow, Nat.mul_comm x.toNat, hw,
    Nat.mul_mod_mul_left, Nat.two_pow_add_eq_or_of_lt hlow]

/-- In 16 bits the two differ by a multiple of 65,535: what leaves at the top counts 2^16 there and 1 at the bottom. -/
theorem rotateLeft_mod (x : BitVec 16) {r : Nat} (h : r < 16) : (x.rotateLeft r).toNat % 65535 = x.toNat * 2 ^ r % 65535 := by
  have hsplit := Nat.div_add_mod x.toNat (2 ^ (16 - r))
  have hpow : 2 ^ r * 2 ^ (16 - r) = 65535 + 1 := by rw [← Nat.pow_add, Nat.add_sub_cancel' h.le]
  rw [toNat_rotateLeft_eq_add x h]
  generalize x.toNat / 2 ^ (16 - r) = top, x.toNat % 2 ^ (16 - r) = low at hsplit ⊢
  have hmul : x.toNat * 2 ^ r = (2 ^ r * low + top) + 65535 * top := by
    calc x.toNat * 2 ^ r = 2 ^ r * 2 ^ (16 - r) * top + 2 ^ r * low := by rw [← hsplit]; ring
      _ = (2 ^ r * low + top) + 65535 * top := by rw [hpow]; ring
  rw [hmul, Nat.add_mul_mod_self_left]

theorem rotRes_eq_rotateLeft (m : Nat) (e : Int) :
    rotRes m e = ((BitVec.ofNat 16 (m % 65535)).rotateLeft (e % 16).toNat).toNat % 65535 := by
  have hr : (e % 16).toNat < 16 := by omega
  have hx : m % 65535 % 2 ^ 16 = m % 65535 := Nat.mod_eq_of_lt (by omega)
  rw [rotateLeft_mod _ hr, BitVec.toNat_ofNat, hx]
  rfl

/-- A sum of two 16-bit residues with its carry added back at the bottom is the sum modulo 65,535. -/
theorem resAdd_eq_endAround (a b : Nat) : resAdd a b = ((a + b) % 65536 + (a + b) / 65536) % 65535 := by
  unfold resAdd
  omega

theorem resOf_eq_rotateLeft (m : Nat) (e : Int) :
    let rot := ((BitVec.ofNat 16 (m % 65535)).rotateLeft (e % 16).toNat).toNat
    resOf false m e = rot % 65535 ∧ resOf true m e = (65535 - rot) % 65535 := by
  intro rot
  have hrot : rot < 65536 := BitVec.isLt _
  have hres : rotRes m e = rot % 65535 := rotRes_eq_rotateLeft m e
  refine ⟨hres, ?_⟩
  simp only [resOf, if_true, hres]
  omega

/-- Settles O50: the first two laws by the 16-bit arithmetic, the others in the ring. -/
theorem residues : Obligations.Residues := by
  unfold Obligations.Residues
  exact ⟨resOf_eq_rotateLeft, fun a b => resAdd_eq_endAround a.toNat b.toNat, resOf_mul, resOf_shift, resOf_add⟩

end Sys2Proof.Machine
end

section
/-! The hot-channel watch (R357): the channel that a window names, the verdict on a window, and what its end leaves of the unit. -/

namespace Sys2Proof.Machine

/-! ### The channel of the largest count -/

theorem maxChannel_fst (f : Nat → Nat) (n : Nat) : (maxChannel f n).1 = f (maxChannel f n).2 := by
  induction n with
  | zero => rfl
  | succ n ih =>
    rw [maxChannel]
    split
    · rfl
    · exact ih

theorem maxChannel_snd_le (f : Nat → Nat) (n : Nat) : (maxChannel f n).2 ≤ n := by
  induction n with
  | zero => exact Nat.le_refl 0
  | succ n ih =>
    rw [maxChannel]
    split
    · exact Nat.le_refl _
    · exact Nat.le_succ_of_le ih

theorem le_maxChannel (f : Nat → Nat) {n c : Nat} (hc : c ≤ n) : f c ≤ (maxChannel f n).1 := by
  induction n with
  | zero => rw [Nat.le_zero.1 hc]; exact Nat.le_refl _
  | succ n ih =>
    rw [maxChannel]
    rcases Nat.of_le_succ hc with hle | rfl <;> split
    · next hlt => exact (ih hle).trans hlt.le
    · exact ih hle
    · exact Nat.le_refl _
    · next hge => exact Nat.le_of_not_lt hge

/-- On a tie the lowest channel stands: every channel below it counted less. -/
theorem lt_maxChannel (f : Nat → Nat) {n c : Nat} (hc : c < (maxChannel f n).2) : f c < (maxChannel f n).1 := by
  induction n with
  | zero => exact absurd hc (Nat.not_lt_zero c)
  | succ n ih =>
    rw [maxChannel] at hc ⊢
    split at hc
    · next hlt =>
      rw [if_pos hlt]
      exact (le_maxChannel f (Nat.le_of_lt_succ hc)).trans_lt hlt
    · next hge =>
      rw [if_neg hge]
      exact ih hc

theorem msuChannels_pos (u : Nat) : 0 < msuChannels u := by unfold msuChannels; split <;> decide

theorem msuChannels_le (u : Nat) : msuChannels u ≤ 32 := by unfold msuChannels; split <;> decide

theorem maxChannel_lt_msuChannels (f : Nat → Nat) (u : Nat) : (maxChannel f (msuChannels u - 1)).2 < msuChannels u := by
  have hpos := msuChannels_pos u
  have hle := maxChannel_snd_le f (msuChannels u - 1)
  omega

/-! ### HOT_STATUS -/

/-- HOT_STATUS with the verdict on the last window in IMBALANCED. -/
def hotMark (st : W32) (imb : Bool) : W32 := setBits st 1 1 (if imb then 1 else 0)

/-- HOT_STATUS with HOT set: one more of HOT_EVENTS, and the channel of the largest count in CHANNEL. -/
def hotRaise (st : W32) (ch : Nat) : W32 := setBits (setBits (setBits st 31 16 (satAdd 0xFFFF (bitsOf st 31 16) 1)) 12 8 ch) 0 0 1

theorem satAdd_le (cap a b : Nat) : satAdd cap a b ≤ cap := by
  unfold satAdd
  split <;> omega

@[simp] theorem imbalanced_hotMark (st : W32) (imb : Bool) : bitOf (hotMark st imb) 1 = imb := bitOf_setBits_same st 1 imb (by decide)

@[simp] theorem hotSet_hotMark (st : W32) (imb : Bool) : hotSet (hotMark st imb) = hotSet st :=
  bitOf_setBits_ne st 1 1 _ 0 (by decide) (by decide)

@[simp] theorem hotEvents_hotMark (st : W32) (imb : Bool) : bitsOf (hotMark st imb) 31 16 = bitsOf st 31 16 :=
  bitsOf_setBits_ne st 1 1 _ 31 16 (by decide) (by decide)

@[simp] theorem imbalanced_hotRaise (st : W32) (ch : Nat) : bitOf (hotRaise st ch) 1 = bitOf st 1 := by
  simp [hotRaise, bitOf_setBits_ne]

@[simp] theorem hotSet_hotRaise (st : W32) (ch : Nat) : hotSet (hotRaise st ch) = true := bitOf_setBits_same _ 0 true (by decide)

theorem hotChannel_hotRaise (st : W32) {ch : Nat} (hch : ch < 32) : bitsOf (hotRaise st ch) 12 8 = ch := by
  rw [hotRaise, bitsOf_setBits_ne _ 0 0 _ 12 8 (by decide) (by decide), bitsOf_setBits_same _ 12 8 _ (by decide)]
  exact Nat.mod_eq_of_lt hch

@[simp] theorem hotEvents_hotRaise (st : W32) (ch : Nat) :
    bitsOf (hotRaise st ch) 31 16 = satAdd 0xFFFF (bitsOf st 31 16) 1 := by
  rw [hotRaise, bitsOf_setBits_ne _ 0 0 _ 31 16 (by decide) (by decide), bitsOf_setBits_ne _ 12 8 _ 31 16 (by decide) (by decide),
    bitsOf_setBits_same _ 31 16 _ (by decide)]
  exact Nat.mod_eq_of_lt (Nat.lt_succ_of_le (satAdd_le ..))

/-! ### The verdict on a window -/

theorem hotImbalanced_eq (cfg : W32) (n total cmax : Nat) :
    hotImbalanced cfg n total cmax = decide (hotMinKilo cfg * 1024 ≤ total ∧ hotRatio cfg * total < 16 * cmax * n) :=
  (Bool.decide_and ..).symm

/-- The run of imbalanced windows, this one included. -/
def Msu.hotRunNext (m : Msu) (imb : Bool) : Nat := if imb then m.hotRun + 1 else 0

/-- HOT becomes set: the window completes a run, and HOT was clear. -/
def Msu.hotFires (m : Msu) (imb : Bool) : Bool := imb && decide (hotRunLimit m.hotConfig ≤ m.hotRunNext imb) && !hotSet m.hotStatus

theorem Msu.hotFires_iff (m : Msu) (imb : Bool) :
    m.hotFires imb = true ↔ imb = true ∧ hotRunLimit m.hotConfig ≤ m.hotRun + 1 ∧ hotSet m.hotStatus = false := by
  cases imb <;> simp [Msu.hotFires, Msu.hotRunNext]

/-! ### The end of a window -/

/-- HOT_STATUS after a window with this verdict and this channel of the largest count. -/
def Msu.hotStatusNext (m : Msu) (imb : Bool) (ch : Nat) : W32 :=
  if m.hotFires imb then hotRaise (hotMark m.hotStatus imb) ch else hotMark m.hotStatus imb

@[simp] theorem Msu.imbalanced_hotStatusNext (m : Msu) (imb : Bool) (ch : Nat) : bitOf (m.hotStatusNext imb ch) 1 = imb := by
  unfold Msu.hotStatusNext
  split <;> simp

theorem Msu.hotStatusNext_of_fires {m : Msu} {imb : Bool} {ch : Nat} (h : m.hotFires imb = true) :
    m.hotStatusNext imb ch = hotRaise (hotMark m.hotStatus imb) ch := if_pos h

theorem Msu.hotStatusNext_of_not_fires {m : Msu} {imb : Bool} {ch : Nat} (h : ¬ m.hotFires imb = true) :
    m.hotStatusNext imb ch = hotMark m.hotStatus imb := if_neg h

/-- What the end of a window leaves, once the window is judged and its channel found. -/
def State.closeHotWindow (s : State) (u : Nat) (imb : Bool) (ch : Nat) : State :=
  let d := { s.dev with accesses := s.dev.accesses.clear (32 * u) (32 * u + 32) }
  let closed := { s with dev := d.updMsu u (fun m => { m with
    hotStatus := m.hotStatusNext imb ch, hotRun := min 255 (m.hotRunNext imb) }) }
  if (s.dev.msu u).hotFires imb then closed.event else closed

theorem doHotWindow_eq_closeHotWindow (s : State) (u : Nat) :
    let f (c : Nat) : Nat := s.dev.accesses.get (32 * u + c)
    let top := maxChannel f (msuChannels u - 1)
    let total := ((List.range (msuChannels u)).map f).foldl (· + ·) 0
    doHotWindow s u = s.closeHotWindow u (hotImbalanced (s.dev.msu u).hotConfig (msuChannels u) total top.1) top.2 := rfl

/-- The report to Moonlet leaves the device alone. -/
theorem State.closeHotWindow_dev (s : State) (u : Nat) (imb : Bool) (ch : Nat) :
    (s.closeHotWindow u imb ch).dev =
      Dev.updMsu { s.dev with accesses := s.dev.accesses.clear (32 * u) (32 * u + 32) } u (fun m => { m with
        hotStatus := m.hotStatusNext imb ch, hotRun := min 255 (m.hotRunNext imb) }) := by
  unfold State.closeHotWindow
  split <;> rfl

@[simp] theorem State.closeHotWindow_msu (s : State) (u : Nat) (imb : Bool) (ch : Nat) :
    (s.closeHotWindow u imb ch).dev.msu u =
      { s.dev.msu u with
        hotStatus := (s.dev.msu u).hotStatusNext imb ch, hotRun := min 255 ((s.dev.msu u).hotRunNext imb) } := by
  rw [State.closeHotWindow_dev]
  exact Bank.get_set_same ..

theorem State.closeHotWindow_accesses (s : State) (u : Nat) (imb : Bool) (ch : Nat) {c : Nat} (hc : c < 32) :
    (s.closeHotWindow u imb ch).dev.accesses.get (32 * u + c) = s.dev.accesses.dflt := by
  rw [State.closeHotWindow_dev]
  exact (Bank.get_clear ..).trans (if_pos (by omega))

@[simp] theorem State.closeHotWindow_ms (s : State) (u : Nat) (imb : Bool) (ch : Nat) : (s.closeHotWindow u imb ch).dev.ms = s.dev.ms := by
  rw [State.closeHotWindow_dev]
  rfl

@[simp] theorem State.closeHotWindow_events (s : State) (u : Nat) (imb : Bool) (ch : Nat) :
    (s.closeHotWindow u imb ch).moon.events = s.moon.events + if (s.dev.msu u).hotFires imb then 1 else 0 := by
  unfold State.closeHotWindow
  split <;> rfl

/-- Settles O33: the end of a window is `closeHotWindow` under the window's verdict, which fires where `hotFires_iff` says. -/
theorem hotChannelWindow : Obligations.HotChannelWindow := by
  unfold Obligations.HotChannelWindow
  intro s u m n f top total imb fire
  have hfst : top.1 = f top.2 := maxChannel_fst ..
  have htop : top.2 < n := maxChannel_lt_msuChannels f u
  have hfires : m.hotFires imb = true ↔ fire := m.hotFires_iff imb
  have hexec : exec (.hotWindow u) s = .next (s.closeHotWindow u imb top.2) := by
    rw [exec_hotWindow, modRow, doHotWindow_eq_closeHotWindow, hotImbalanced_eq]
  refine ⟨s.closeHotWindow u imb top.2, hexec, ⟨hfst, htop, fun c hc => ?_, fun c hc => ?_⟩,
    fun c hc => s.closeHotWindow_accesses u imb top.2 hc, ?_, ?_, fun h => ?_, fun h => ?_, s.closeHotWindow_ms u imb top.2⟩
  · exact (le_maxChannel f (Nat.le_sub_one_of_lt hc)).trans_eq hfst
  · exact (lt_maxChannel f hc).trans_eq hfst
  · simp
  · rw [State.closeHotWindow_msu]
    simp only [Msu.hotRunNext]
    split <;> rfl
  · have hf := hfires.2 h
    have hch : top.2 < 32 := htop.trans_le (msuChannels_le u)
    simp [Msu.hotStatusNext_of_fires hf, hotChannel_hotRaise _ hch, hf, m]
  · have hf := mt hfires.1 h
    simp [Msu.hotStatusNext_of_not_fires hf, hf, m]

end Sys2Proof.Machine
end

section
/-! Transfers of the gradient reduction as they arrive (R438): the relay keeps all that the endpoint decides by, so that what becomes of
a transfer of the running orbit is read off the state before its relay. -/

namespace Sys2Proof.Machine

/-! ### What the relay keeps -/

/-- What the endpoint of a COLLECTIVE transfer decides by: the plans, the link schedules and the state of the buckets. -/
def State.reduction (s : State) : Plan × RedPlan × Bank SchedPlan × Bank BucketRun :=
  (s.dev.plan, s.fab.redPlan, s.fab.sched, s.fab.red.buckets)

@[simp] theorem State.signalStream_reduction (s : State) (io stream k n : Nat) :
    (s.signalStream io stream k n).reduction = s.reduction := by
  unfold State.signalStream
  split <;> rfl

@[simp] theorem State.stage_reduction (s : State) (io stream : Nat) (data : List Byte) :
    (s.stage io stream data).reduction = s.reduction := rfl

section
variable (s : State) (io stream : Nat) (p : List Byte) (r : OrbitRun)

theorem State.relay_reduction : (s.relay io stream p r).reduction = s.reduction := by
  refine List.foldlRecOn (motive := fun t : State => t.reduction = s.reduction) _ _ rfl fun t ht e _ => ?_
  dsimp only
  split
  · rw [State.signalStream_reduction, State.stage_reduction, ht]
  · exact ht

@[simp] theorem State.relay_plan : (s.relay io stream p r).dev.plan = s.dev.plan :=
  congrArg Prod.fst (s.relay_reduction io stream p r)

@[simp] theorem State.relay_redPlan : (s.relay io stream p r).fab.redPlan = s.fab.redPlan :=
  congrArg (·.2.1) (s.relay_reduction io stream p r)

@[simp] theorem State.relay_sched : (s.relay io stream p r).fab.sched = s.fab.sched :=
  congrArg (·.2.2.1) (s.relay_reduction io stream p r)

@[simp] theorem State.relay_buckets : (s.relay io stream p r).fab.red.buckets = s.fab.red.buckets :=
  congrArg (·.2.2.2) (s.relay_reduction io stream p r)

@[simp] theorem State.relay_mode : (s.relay io stream p r).mode = s.mode := by simp [State.mode]

@[simp] theorem State.relay_run (k : Nat) : (s.relay io stream p r).run k = s.run k := by simp [State.run]

@[simp] theorem State.relay_bucket (k : Nat) : (s.relay io stream p r).bucket k = s.bucket k := by simp [State.bucket]

@[simp] theorem State.relay_owns (k : Nat) : (s.relay io stream p r).owns k = s.owns k := by simp [State.owns, State.me]

@[simp] theorem State.relay_contributes (k m : Nat) : (s.relay io stream p r).contributes k m = s.contributes k m := by
  simp [State.contributes, State.sch]

end

/-! ### A transfer of the running orbit -/

/-- A passed COLLECTIVE transfer of this kind that belongs to the running orbit; a contribution that waits for its COMMIT is not
taken again. -/
structure State.Takes (s : State) (kind io i : Nat) (x : Xfer) (p : List Byte) (r : OrbitRun) : Prop where
  passed : s.passedXfer io i = some (x, p)
  running : s.dev.curRun = some r
  slot : x.slot = r.slot
  orbit : x.orbit = r.num
  endpoint : seEndpoint (s.entry io i) = 1
  kindOf : hdrKind p = kind
  hdrOrbit : hdrOrbit p = r.num % 2 ^ 32
  fresh : kind = 1 → (s.run (hdrBucket p)).waiting.any (fun w => w.2 == i) = false

/-- The owner can still add the contribution of module m to bucket k. -/
structure State.CanAdd (s : State) (k m : Nat) : Prop where
  inPlan : k < s.fab.redPlan.count
  owner : s.owns k = true
  unfinished : (s.run k).finalised = false
  notAdded : (s.run k).added.get m = false
  member : s.contributes k m = true

section
variable {s : State} {kind io i : Nat} {x : Xfer} {p : List Byte} {r : OrbitRun}

/-- The transfer is relayed first, whatever its endpoint then does with it (R438). -/
theorem collReceive_of_takes (h : s.Takes kind io i x p r) (go : State → Xfer → List Byte → OrbitRun → State) :
    collReceive kind go s io i = go (s.relay io (seStream (s.entry io i)) p r) x p r := by
  have hfresh : (s.run (hdrBucket p)).waiting.any (fun w => w.2 == i && kind == 1) = false := by
    by_cases hk : kind = 1
    · simpa [hk] using h.fresh hk
    · simp [hk]
  simp [collReceive, h.passed, h.running, h.slot, h.orbit, h.endpoint, h.kindOf, h.hdrOrbit, hfresh]

/-- R446, R447, R451: the mode of the plan decides between the COMMIT and the scales. -/
theorem doContribReceive_of_takes (h : s.Takes 1 io i x p r) (hadd : s.CanAdd (hdrBucket p) (hdrOrigin p)) :
    let k := hdrBucket p
    let m := hdrOrigin p
    let l := (List.range (bkBlocks (s.bucket k))).map (contribBlock (bkBlocks (s.bucket k)) p)
    let s1 := s.relay io (seStream (s.entry io i)) p r
    doContribReceive s io i =
      if s.mode then
        if (s.run k).commits.get m then (s1.addContribution false k m l).finish x
        else s1.updBk k (fun y => { y with waiting := y.waiting ++ [(m, i)] })
      else if hdrProbe p ≠ r.probe then s1.finish x
      else if !r.probe ∧ !s1.scalesAgree k l then (s1.mapDev (·.voteVoid r.num rsScaleMismatch (unitColl io) 0)).finish x
      else (s1.addContribution r.probe k m l).finish x := by
  intro k m l s1
  rw [doContribReceive, collReceive_of_takes h]
  simp [hadd.inPlan, hadd.owner, hadd.unfinished, hadd.notAdded, hadd.member, k, m, l, s1]

/-- R457: the records apply where the contribution that they correct was added. -/
theorem doCorrectReceive_of_takes (h : s.Takes 2 io i x p r) (hplan : hdrBucket p < s.fab.redPlan.count)
    (howner : s.owns (hdrBucket p) = true) (hopen : (s.run (hdrBucket p)).finalised = false)
    (hfirst : (s.run (hdrBucket p)).corrected.get (hdrOrigin p) = false) :
    let k := hdrBucket p
    let m := hdrOrigin p
    let noted := (s.relay io (seStream (s.entry io i)) p r).updBk k (fun y => { y with corrected := y.corrected.set m true })
    doCorrectReceive s io i =
      (if (s.run k).added.get m then noted.updBk k (applyRecords p (hdrRecords p) 0) else noted).finish x := by
  intro k m noted
  rw [doCorrectReceive, collReceive_of_takes h]
  simp [hplan, howner, hopen, hfirst, k, m, noted]

theorem doReducedReceive_of_takes (h : s.Takes 3 io i x p r) (hplan : hdrBucket p < s.fab.redPlan.count)
    (hother : s.owns (hdrBucket p) = false) (hfirst : (s.run (hdrBucket p)).inPlace = false) :
    doReducedReceive s io i = ((s.relay io (seStream (s.entry io i)) p r).consume (hdrBucket p) p r).finish x := by
  rw [doReducedReceive, collReceive_of_takes h]
  simp [hplan, hother, hfirst]

/-! ### Exchange records -/

theorem doNormRecordReceive_of_collective (h : s.Takes 4 io i x p r) :
    doNormRecordReceive s io i = ((s.relay io (seStream (s.entry io i)) p r).mapDev (·.takeNorm (p.drop 64))).finish x := by
  simp [doNormRecordReceive, h.passed, h.endpoint, h.kindOf, h.running]

theorem doNormRecordReceive_of_norm (hpassed : s.passedXfer io i = some (x, p)) (hend : seEndpoint (s.entry io i) = 2) :
    doNormRecordReceive s io i = (s.mapDev (·.takeNorm p)).finish x := by
  simp [doNormRecordReceive, hpassed, hend]

end

/-- Settles O28: each row by the lemma of its kind, a contribution by the branch that its premises choose. -/
theorem reductionReceive : Obligations.ReductionReceive := by
  unfold Obligations.ReductionReceive
  intro s io i x p r hpassed hrun hslot horbit k m l s1
  refine ⟨fun hend hhdr => ?_, fun hend => ?_⟩
  · have takes {kind : Nat} (hkind : hdrKind p = kind) (hfresh : kind = 1 → (s.run k).waiting.any (fun w => w.2 == i) = false) :
        s.Takes kind io i x p r := ⟨hpassed, hrun, hslot, horbit, hend, hkind, hhdr, hfresh⟩
    refine ⟨fun hkind hfresh hplan howner hopen hnew hmember => ?_, fun hkind hplan howner hopen hfirst => ?_,
      fun hkind hplan hother hfirst => ?_, fun hkind => ?_⟩
    · rw [exec_contribReceive, modRow,
        doContribReceive_of_takes (takes hkind fun _ => hfresh) ⟨hplan, howner, hopen, hnew, hmember⟩]
      refine ⟨fun hmode hprobe hagree => ?_, fun hmode hprobe hreal hdiffer => ?_, fun hmode hcommit => ?_, fun hmode hcommit => ?_⟩
      · have hnot : ¬ ((!r.probe) = true ∧ (!s1.scalesAgree k l) = true) := by
          rcases hagree with hp | hs
          · simp [hp]
          · simp [hs]
        rw [if_neg (by simp [hmode]), if_neg (not_not.2 hprobe), if_neg hnot]
      · rw [if_neg (by simp [hmode]), if_neg (not_not.2 hprobe), if_pos (by simp [hreal, hdiffer, s1, k, l])]
      · rw [if_pos hmode, if_pos hcommit]
      · rw [if_pos hmode, if_neg (by simp [hcommit, k, m])]
    · rw [exec_correctReceive, modRow, doCorrectReceive_of_takes (takes hkind (by simp)) hplan howner hopen hfirst]
    · rw [exec_reducedReceive, modRow, doReducedReceive_of_takes (takes hkind (by simp)) hplan hother hfirst]
    · rw [exec_normRecordReceive, modRow, doNormRecordReceive_of_collective (takes hkind (by simp))]
  · rw [exec_normRecordReceive, modRow, doNormRecordReceive_of_norm hpassed hend]

end Sys2Proof.Machine
end

section
/-! Caps, budgets and the power controllers (R571 to R574): what each command leaves of the power state when READY is high, how the
cap is divided, and how many steps one action of a controller takes. -/

namespace Sys2Proof.Machine

/-! ### The chassis cap -/

@[simp] theorem State.judgeCap_pwr (s : State) :
    s.judgeCap.pwr =
      { s.pwr with capBelowPlan := s.dev.plan.installed && decide (s.capSet < envelopeOf s.dev.plan.cls) } := by
  simp only [State.judgeCap]
  split <;> rfl

@[simp] theorem State.judgeCap_moon (s : State) : s.judgeCap.moon = s.moon := by
  simp only [State.judgeCap]
  split <;> rfl

section
variable {s : State} (hready : s.pwr.ready = true)
include hready

theorem doSetCap_of_idle (hidle : s.runState = 0) (w : Nat) :
    doSetCap s w =
      ({ s with
          pwr := { s.pwr with cap := clampCap s.envelope w, capNext := none }
          moon := { s.moon with lastOk := true } } : State).judgeCap := by
  simp [doSetCap, hready, hidle]

theorem doSetCap_of_orbits (horbits : s.runState ≠ 0) (w : Nat) :
    doSetCap s w =
      ({ s with
          pwr := { s.pwr with capNext := some (clampCap s.envelope w) }
          moon := { s.moon with lastOk := true } } : State).judgeCap := by
  simp [doSetCap, hready, horbits]

theorem doSetCap_lastOk (w : Nat) : (doSetCap s w).moon.lastOk = true := by
  by_cases hidle : s.runState = 0
  · simp [doSetCap_of_idle hready hidle]
  · simp [doSetCap_of_orbits hready hidle]

theorem doEmergencyCap_of_ready (w : Nat) :
    doEmergencyCap s w =
      ({ s with
          pwr := { s.pwr with cap := clampCap s.envelope w, capNext := none }
          moon := { s.moon with lastOk := true } } : State).judgeCap := by
  simp [doEmergencyCap, hready]

end

/-! ### The division of the module's cap -/

/-- North's share lies between 40 % and 60 % of a cap of at least 8 W; a cap of 3 W, for one, has no such share in whole watts. -/
theorem shareOf_bounds {c : Nat} (hc : 8 ≤ c) (a b free : Nat) :
    4 * c ≤ 10 * shareOf c a b free ∧ 10 * shareOf c a b free ≤ 6 * c := by
  have between : (4 * c + 9) / 10 ≤ shareOf c a b free ∧ shareOf c a b free ≤ c - (4 * c + 9) / 10 := by
    by_cases hdraw : a + b = 0
    · have hfree : free % (c - 2 * ((4 * c + 9) / 10) + 1) < c - 2 * ((4 * c + 9) / 10) + 1 := Nat.mod_lt _ (Nat.succ_pos _)
      simp only [shareOf, if_pos hdraw]
      omega
    · simp only [shareOf, if_neg hdraw]
      omega
  omega

/-- North's budget, and with it South's: separated halves take half of the cap each, a whole module divides all of it (R571). -/
def State.northBudget (s : State) (a b : Nat) : Nat :=
  if (s.fab.regs.get 0).separated then s.moduleCap / 2 else shareOf s.moduleCap a b s.dev.draw.1

def State.southBudget (s : State) (a b : Nat) : Nat :=
  if (s.fab.regs.get 0).separated then s.northBudget a b else s.moduleCap - s.northBudget a b

theorem doBudgetDivide_pwr {s : State} (hready : s.pwr.ready = true) (a b : Nat) :
    (doBudgetDivide s a b).pwr =
      { s.pwr with
        halves := (s.pwr.halves.upd 0 (fun p => { p with budget := s.northBudget a b, draw := a })).upd 1
          (fun p => { p with budget := s.southBudget a b, draw := b })
        pinW := a + b } := by
  cases hsep : (s.fab.regs.get 0).separated <;> cases hdraw : a + b == 0 <;>
    simp [doBudgetDivide, hready, State.northBudget, State.southBudget, hsep, hdraw]

section
variable {s : State} (hready : s.pwr.ready = true) (a b : Nat)
include hready

theorem doBudgetDivide_north :
    (doBudgetDivide s a b).pwr.halves.get 0 = { s.pwr.halves.get 0 with budget := s.northBudget a b, draw := a } := by
  simp [doBudgetDivide_pwr hready, Bank.get_upd]

theorem doBudgetDivide_south :
    (doBudgetDivide s a b).pwr.halves.get 1 = { s.pwr.halves.get 1 with budget := s.southBudget a b, draw := b } := by
  simp [doBudgetDivide_pwr hready, Bank.get_upd]

end

theorem State.budgets_of_separated {s : State} (hsep : (s.fab.regs.get 0).separated = true) (a b : Nat) :
    s.northBudget a b = s.moduleCap / 2 ∧ s.southBudget a b = s.moduleCap / 2 := by
  simp [State.northBudget, State.southBudget, hsep]

theorem State.budgets_of_whole {s : State} (hwhole : (s.fab.regs.get 0).separated = false) (hcap : 8 ≤ s.moduleCap) (a b : Nat) :
    s.northBudget a b + s.southBudget a b = s.moduleCap
      ∧ 4 * s.moduleCap ≤ 10 * s.northBudget a b ∧ 4 * s.moduleCap ≤ 10 * s.southBudget a b := by
  have hshare := shareOf_bounds hcap a b s.dev.draw.1
  simp only [State.northBudget, State.southBudget, hwhole, Bool.false_eq_true, if_false]
  omega

/-! ### One action of a power controller -/

/-- A level from 0 to 39 is read back from its clock and its duty: the duty falls only from level 24 on, where the clock stands at its
lowest. -/
theorem powerLevel_of_level {p : HalfPwr} {n : Nat} (hn : n ≤ 39) (hclock : p.clock = levelClock n) (hduty : p.duty = levelDuty n) :
    powerLevel p = n := by
  rw [powerLevel, hclock, hduty, levelClock, levelDuty]
  omega

/-- Steps that the temperatures ask for: one down at a limit, none while a kind that was at its limit has not cooled by 3 degrees,
and one up otherwise (R573). -/
def heatSteps (p : HalfPwr) (t : Temps) : Int :=
  if atLimit t &&& 7 ≠ 0 then 1 else if (p.hot ||| atLimit t) &&& ~~~(coolAgain t) &&& 7 ≠ 0 then 0 else -1

theorem powerLevel_powerStep (p : HalfPwr) (w : Nat) (t : Temps) :
    powerLevel (powerStep p w t) = min 39 ((powerLevel p : Int) + max (budgetSteps p.budget w) (heatSteps p t)).toNat :=
  powerLevel_of_level (Nat.min_le_left _ _) rfl rfl

section
variable {budget draw : Nat}

theorem budgetSteps_far_above (h : budget * 110 < draw * 100) : budgetSteps budget draw = 4 := by
  rw [budgetSteps, if_pos (by omega)]

theorem budgetSteps_above (habove : budget < draw) (hnear : draw * 100 ≤ budget * 110) : budgetSteps budget draw = 1 := by
  rw [budgetSteps, if_neg (by omega), if_pos habove]

theorem budgetSteps_near (hlow : budget * 97 ≤ draw * 100) (hwithin : draw ≤ budget) : budgetSteps budget draw = 0 := by
  rw [budgetSteps, if_neg (by omega), if_neg (by omega), if_neg (by omega)]

theorem budgetSteps_below (h : draw * 100 < budget * 97) : budgetSteps budget draw = -1 := by
  rw [budgetSteps, if_neg (by omega), if_neg (by omega), if_pos h]

theorem budgetSteps_nonpos (hwithin : draw ≤ budget) : budgetSteps budget draw ≤ 0 := by
  by_cases h : draw * 100 < budget * 97
  · rw [budgetSteps_below h]
    decide
  · rw [budgetSteps_near (by omega) hwithin]

end

section
variable {p : HalfPwr} {t : Temps}

theorem heatSteps_at_limit (h : atLimit t &&& 7 ≠ 0) : heatSteps p t = 1 := if_pos h

theorem heatSteps_cool (hlimit : atLimit t &&& 7 = 0) (hcool : (p.hot ||| atLimit t) &&& ~~~(coolAgain t) &&& 7 = 0) :
    heatSteps p t = -1 := by
  rw [heatSteps, if_neg (not_not.2 hlimit), if_neg (not_not.2 hcool)]

theorem heatSteps_nonpos (h : atLimit t &&& 7 = 0) : heatSteps p t ≤ 0 := by
  rw [heatSteps, if_neg (not_not.2 h)]
  split <;> decide

theorem heatSteps_le_one : heatSteps p t ≤ 1 := by
  by_cases h : atLimit t &&& 7 = 0
  · exact (heatSteps_nonpos h).trans (by decide)
  · exact (heatSteps_at_limit h).le

end

theorem doPowerControlTick_pwr {s : State} (hready : s.pwr.ready = true) (h w : Nat) (t : Temps) (m : MeterIn) :
    (doPowerControlTick s h w t m).pwr =
      Pwr.metered { s.pwr with halves := s.pwr.halves.upd h (fun p => powerStep p w t) } m := by
  simp [doPowerControlTick, hready]

theorem doPowerControlTick_half {s : State} (hready : s.pwr.ready = true) (h w : Nat) (t : Temps) (m : MeterIn) :
    (doPowerControlTick s h w t m).pwr.halves.get h = powerStep (s.pwr.halves.get h) w t := by
  simp [doPowerControlTick_pwr hready, Pwr.metered, Bank.get_upd]

/-- Settles O49: the caps by `doSetCap` and `doEmergencyCap` under READY, the budgets by the bounds of a share, and a controller's
action by the larger of what its budget and its temperatures ask for. -/
theorem powerControl : Obligations.PowerControl := by
  unfold Obligations.PowerControl
  intro s hready
  refine ⟨fun w => ?caps, fun a b => ?budgets, fun h w x m => ?controller⟩
  case caps =>
    refine ⟨doSetCap s w, doEmergencyCap s w, rfl, rfl, doSetCap_lastOk hready w, ?_, fun hidle => ?_, fun horbits => ?_, ?_⟩
    · simp [doEmergencyCap_of_ready hready]
    · simp [doSetCap_of_idle hready hidle, clampCap]
    · simp [doSetCap_of_orbits hready horbits, clampCap]
    · simp [doEmergencyCap_of_ready hready, clampCap]
  case budgets =>
    refine ⟨doBudgetDivide s a b, rfl, ?_⟩
    rw [doBudgetDivide_north hready, doBudgetDivide_south hready, doBudgetDivide_pwr hready]
    exact ⟨rfl, rfl, rfl, fun hsep => State.budgets_of_separated hsep a b, fun hwhole hcap => State.budgets_of_whole hwhole hcap a b⟩
  case controller =>
    refine ⟨doPowerControlTick s h w x m, rfl, ?_⟩
    rw [doPowerControlTick_half hready, doPowerControlTick_pwr hready]
    refine ⟨rfl, rfl, rfl, powerStep_legal _ w x, rfl, rfl, ?_⟩
    rw [powerLevel_powerStep]
    refine ⟨fun _ hfar => ?_, fun _ habove hnear => ?_, fun _ hwithin hlimit => ?_, fun hn hbelow hcool hlimit => ?_,
      fun hn hlow hwithin hlimit => ?_⟩
    · rw [budgetSteps_far_above hfar, max_eq_left (heatSteps_le_one.trans (by decide))]
      omega
    · rw [budgetSteps_above habove hnear, max_eq_left heatSteps_le_one]
      omega
    · rw [heatSteps_at_limit hlimit, max_eq_right ((budgetSteps_nonpos hwithin).trans (by decide))]
      omega
    · rw [budgetSteps_below hbelow, heatSteps_cool hlimit hcool, max_self]
      omega
    · rw [budgetSteps_near hlow hwithin, max_eq_left (heatSteps_nonpos hlimit)]
      omega

end Sys2Proof.Machine
end

section
/-! The whole block: what a command of each reach (`touches`) leaves alone, and from that the frame of every row and the invariant of
every step. -/

namespace Sys2Proof.Machine

section
variable {i : Instr} {s t : State}

/-- A command of the dies maps the device: its row is that of an instruction of a core, or of a unit of the dies. -/
theorem exec_of_dies (hi : touches i = .dies) (e : exec i s = .next t) : ∃ f, t = s.mapDev f := by
  cases i <;> simp only [touches, reduceCtorEq] at hi
  any_goals exact ⟨_, coreRow_cases e⟩
  all_goals exact ⟨_, (Host.Outcome.next.inj e).symm⟩

/-- A command of the services keeps the queue, power and security, each by the frame of its operation. -/
theorem exec_of_services (hi : touches i = .services) (e : exec i s = .next t) : t.env = s.env := by
  cases i <;> simp only [touches, reduceCtorEq] at hi
  all_goals
    cases Host.Outcome.next.inj e
    simp

/-- A command that reaches the module keeps the queue and the invariant: a host command by the law of its row, any other by the law
of its operation. -/
theorem exec_of_module (hi : touches i = .module) (h : s.Inv) (e : exec i s = .next t) : Held s.pending t.env := by
  have hself := held_self h
  cases i <;> simp only [touches, reduceCtorEq] at hi
  any_goals exact hostRow_held h e
  all_goals
    cases Host.Outcome.next.inj e
    simp [hself]

theorem exec_held (h : s.Inv) (e : exec i s = .next t) : Held s.pending t.env := by
  cases hi : touches i with
  | dies =>
    obtain ⟨f, rfl⟩ := exec_of_dies hi e
    exact (held_self h).frame (State.mapDev_env ..)
  | services => exact (held_self h).frame (exec_of_services hi e)
  | module => exact exec_of_module hi h e

theorem exec_keeps_inv (h : s.Inv) (e : exec i s = .next t) : t.Inv := (exec_held h e).2

end

/-- Settles O56: a tick of time leaves power and security alone, and the command at the front keeps the invariant (`exec_held`). -/
theorem stepKeepsInvariant : Obligations.StepKeepsInvariant := by
  intro s t h e
  unfold step at e
  split at e
  next =>
    cases e
    exact h
  next c rest _ => exact exec_keeps_inv (s := { s with pending := rest }) h e

/-- Settles O55: the queue by `exec_held`, the rest by the reach of the command. -/
theorem frameOfEveryRow : Obligations.FrameOfEveryRow := by
  intro i s t e
  refine ⟨fun h => (exec_held h e).1, fun hi => ?_, fun hi => ?_⟩
  · obtain ⟨f, rfl⟩ := exec_of_dies hi e
    rfl
  · have henv := exec_of_services hi e
    simpa only [State.env, Prod.mk.injEq] using henv

/-- Settles O53. -/
theorem stepRunsTheFront : Obligations.StepRunsTheFront := by
  intro s c rest hfront
  rw [step, hfront]

end Sys2Proof.Machine
end

section
/-! The state after reset: what its register blocks read, unit by unit. -/

namespace Sys2Proof.Machine

@[simp] theorem State.reset_core (n : Nat) : State.reset.dev.core n = Core.init := rfl
@[simp] theorem State.reset_lc (n : Nat) : State.reset.dev.lc n = LCore.unbound := rfl
@[simp] theorem State.reset_coma (n : Nat) : State.reset.dev.coma n = Coma.init := rfl
@[simp] theorem State.reset_msu (n : Nat) : State.reset.dev.msu n = Msu.init := rfl
@[simp] theorem State.reset_health (n : Nat) : State.reset.dev.health.get n = HealthRec.init := rfl
@[simp] theorem State.reset_memErr (n : Nat) : State.reset.dev.memErr.get n = ⟨0, 0, 0⟩ := rfl
@[simp] theorem State.reset_segFaults (n : Nat) : State.reset.dev.segFaults.get n = SegFault.none := rfl
@[simp] theorem State.reset_hst : State.reset.hst = Hst.init := rfl
@[simp] theorem State.reset_recs : State.reset.recs = [] := rfl
@[simp] theorem State.reset_smulBusy (n : Nat) : State.reset.dev.smulBusy n = false := rfl
@[simp] theorem State.reset_msuBusy (n : Nat) : State.reset.dev.msuBusy n = false := rfl

@[simp] theorem fld_zero (hi lo : Nat) : fld hi lo 0 = 0 := by simp [fld]
@[simp] theorem flag_false (i : Nat) : flag i false = 0 := rfl

@[simp] theorem HealthRec.init_reg : HealthRec.init.reg = 0 := rfl

theorem State.reset_coreRegs (n : Nat) : (State.reset.coreRegs n).map (·.val) = List.replicate 12 0 := by
  simp [State.coreRegs, State.coreSeqStatus, State.coreSeqPc, State.coreWdog, State.fencedDom, State.resetDom, Dev.boundTo,
    Core.arrayStatus, Core.seqState, Core.curStream, Core.feedWait, Core.init, WeightSet.blank, LCore.unbound]

theorem State.reset_comaRegs (n : Nat) : (State.reset.comaRegs n).map (fun r => (r.off, r.val))
    = [(0x100, 0), (0x104, 0), (0x110, 0x00020000), (0x120, 0), (0x180, 0), (0x184, 0)] := by
  simp [State.comaRegs, Coma.init, storeUsed, fld]

theorem State.reset_msuRegs (n : Nat) : (State.reset.msuRegs n).map (fun r => (r.off, r.val))
    = [(0, 0), (0x10, 0), (0x20, 0), (0x24, 0), (0x30, 0), (0x400, 0x640A3010), (0x404, 0), (0x408, 0)] := by
  simp [State.msuRegs, Msu.init, Hst.init]

theorem State.reset_segRegs (n : Nat) : (State.reset.segRegs n).map (·.val) = [0, 0] := by
  simp [State.segRegs, SegFault.none]

theorem State.reset_orbRegs : ∀ n : Fin 2, ∀ r ∈ State.reset.orbRegs n, r.off ≠ 0x408 →
    r.val = if r.off = 0 then 0x0FC00000 else if r.off = 0x20 then 0x00100000FFFFFFFF else 0 := by
  intro n
  fin_cases n <;> decide

theorem State.reset_pwrRegs : ∀ n : Fin 2, ∀ r ∈ State.reset.pwrRegs n, r.off ≠ 8 →
    if r.off = 0 then r.val / 2 ^ 13 = 0x3E8C8000 / 2 ^ 13 else r.val = 0 := by
  intro n
  fin_cases n <;> decide

/-- Settles O58: each block of registers by the lemma of its units, the rest by the definition of the state after reset. -/
theorem resetState : Obligations.ResetState := by
  refine ⟨fun n r hr => ?core, fun n => State.reset_comaRegs n, fun n r hr => ?msu, fun n r hr => ?seg, State.reset_orbRegs,
    State.reset_pwrRegs, fun n => ⟨rfl, rfl⟩, fun n k => ⟨rfl, rfl, rfl, rfl⟩, rfl, rfl, rfl, rfl, rfl, rfl,
    fun k => ⟨rfl, rfl, rfl⟩⟩
  case core =>
    have hval := List.mem_map_of_mem (f := (·.val)) hr
    rw [State.reset_coreRegs] at hval
    exact List.eq_of_mem_replicate hval
  case msu =>
    have hval := List.mem_map_of_mem (f := fun r : Reg => (r.off, r.val)) hr
    rw [State.reset_msuRegs] at hval
    simp only [List.mem_cons, Prod.mk.injEq, List.not_mem_nil, or_false] at hval
    rcases hval with h | h | h | h | h | h | h | h <;> simp [h]
  case seg =>
    have hval := List.mem_map_of_mem (f := (·.val)) hr
    rw [State.reset_segRegs] at hval
    simpa using hval

theorem Sec.init_legal : Sec.init.Legal := by
  refine ⟨by decide, fun o howner => ?_, fun x hsession => ?_, by decide, rfl, fun _ => Nat.zero_le _⟩
  · cases howner
  · cases hsession

/-- Settles O57: after reset READY is high in RUNNING, and nothing is burnt, owned or open. -/
theorem resetHasInvariant : Obligations.ResetHasInvariant :=
  ⟨⟨fun _ => HalfPwr.init_legal, fun _ => ⟨rfl, rfl⟩, fun humbra => by cases humbra⟩, Sec.init_legal⟩

/-- Settles O54: 80 units are one tick of 5 ns. -/
theorem emptyQueueTick : Obligations.EmptyQueueTick := by
  intro s hempty
  unfold step
  split
  · rfl
  · next hfront => cases hempty.symm.trans hfront

/-- Settles O60: through `Dev.write_mem` a write of the device is one of masked bytes, whose laws the memory has. -/
theorem memoryCells : Obligations.MemoryCells := by
  refine ⟨fun d l p a h => Dev.write_outside d l p a h, fun d l p h => Dev.write_wf l p h, fun d n a v p => ?_,
    fun m l a => memReadList_writeList l m a, reset_mem_wf, fun _ => rfl⟩
  rw [Dev.write_mem, applyWrites_wBytes, memRead_write]

end Sys2Proof.Machine
end

section
/-! Core instructions that end in a queue (R215): the array queue, the vector queue and the move queue. -/

namespace Sys2Proof.Machine

/-- The instruction that issues sees its logical core counted. -/
@[simp] theorem counting_issuer_lc (d : Dev) (n : Nat) : (d.counting n).lc ((d.lc n).issuer n).lc = (d.lc n).counted :=
  counting_lc d n

section
variable {d : Dev} {core n : Nat} {w : IWord} {regs ctl : List Nat} {run : Dev → Issuer → Dev}

/-! ### The array queue -/

/-- An instruction with room in the array queue, whose effect is an entry of it, ends with that entry there and its flow tested. -/
theorem issue_enqueue (h : d.CanIssue core n w regs ctl) (hroom : (d.core core).arrayQ.length < 8) (hdst : wDsts w = []) {e : ArrayEntry}
    (hrun : run (d.counting n) ((d.lc n).issuer n) = (d.counting n).enqueue core e) :
    d.issue core w regs ctl ((d.core core).arrayQ.length ≥ 8) false run = (d.stepping n w).enqueue core e :=
  enqueue_issue h (decide_eq_false (by omega)) hrun rfl rfl hdst

theorem doWload_of_canIssue (h : d.CanIssue core n w [wlTsreg w] []) (hroom : (d.core core).arrayQ.length < 8) (hop : wOpcode w = opWload)
    (hchecks : firstFail (wloadChecks (d.counting n) core (d.lc n).counted w) = none)
    (hfault : issueFault (d.counting n) (.core core) [((d.lc n).view (wlWdesc w), false)] = none) :
    doWload d core w = ((d.stepping n w).enqueue core (mkEntry ((d.lc n).issuer n) w ((d.lc n).reg (wlTsreg w)) 0
      ((d.lc n).sPoison.get (wlTsreg w)) ((d.lc n).desc (wlWdesc w)) (if wlRdescEn w then (d.lc n).desc (wlRdesc w) else 0) 0)).after core := by
  rw [doWload, issueWload, issue_enqueue h hroom (wDsts_none hop (by decide) (by decide) (by decide))]
  rw [counting_issuer_lc]
  exact checked_ok hchecks hfault

theorem doStream_of_canIssue (h : d.CanIssue core n w [stTsreg w, stShapeReg w] [stShapeReg w]) (hroom : (d.core core).arrayQ.length < 8)
    (hop : wOpcode w = opStream) (hchecks : firstFail (streamChecks (d.counting n) core (d.lc n).counted w) = none)
    (hfault : issueFault (d.counting n) (.core core) (streamRegions (d.lc n).counted w) = none) :
    doStream d core w = ((d.stepping n w).enqueue core (mkEntry ((d.lc n).issuer n) w ((d.lc n).reg (stTsreg w))
      ((d.lc n).reg (stShapeReg w)) ((d.lc n).sPoison.get (stTsreg w)) ((d.lc n).desc (stAdesc w))
      (if stAcc w = 3 then 0 else (d.lc n).desc (stPdesc w))
      (if stAcc w ≥ 2 && !stHandoff w then (d.lc n).desc (stOdesc w) else 0))).after core := by
  rw [doStream, issue_enqueue h hroom (wDsts_none hop (by decide) (by decide) (by decide))]
  rw [counting_issuer_lc]
  exact checked_ok hchecks hfault

theorem doDrain_of_canIssue (h : d.CanIssue core n w (if drReadsPreg w then [drPreg w] else []) []) (hroom : (d.core core).arrayQ.length < 8)
    (hop : wOpcode w = opDrain) (hchecks : firstFail (drainChecks (d.counting n) core (d.lc n).counted w) = none)
    (hfault : drainFault (d.counting n) core (d.lc n).counted w = none) :
    doDrain d core w = ((d.stepping n w).enqueue core (mkEntry ((d.lc n).issuer n) w (if drReadsPreg w then (d.lc n).reg (drPreg w) else 0) 0
      (drReadsPreg w && (d.lc n).sPoison.get (drPreg w)) (if drBiasEn w then (d.lc n).desc (drBdesc w) else 0)
      (if drSave w = 0 then 0 else (d.lc n).desc (drSdesc w)) (if drTableEn w then (d.lc n).desc (drTdesc w) else 0))).after core := by
  rw [doDrain, issue_enqueue h hroom (wDsts_none hop (by decide) (by decide) (by decide))]
  simp only [counting_issuer_lc, hchecks, hfault]
  rfl

end

/-- Settles O1: each instruction by the entry that it leaves in the array queue. -/
theorem arrayInstructionsIssue : Obligations.ArrayInstructionsIssue := by
  intro s core n w hroom d l who ok queued
  refine ⟨fun hop hissue hok => ?_, fun hop hissue => ?_, fun hop hissue hok => ?_, fun hop hissue hchecks hfault => ?_,
    fun hop hunit hissue => ?_⟩
  · rw [exec_wload, coreRow_next (beq_iff_eq.2 hop)]
    exact congrArg _ (mapDev_congr (doWload_of_canIssue hissue hroom hop hok.1 hok.2))
  · rw [exec_wswap, coreRow_next (beq_iff_eq.2 hop)]
    refine congrArg _ (mapDev_congr (congrArg (Dev.after · core) (issue_enqueue hissue hroom ?_ rfl)))
    exact wDsts_none hop (by decide) (by decide) (by decide)
  · rw [exec_stream, coreRow_next (beq_iff_eq.2 hop)]
    exact congrArg _ (mapDev_congr (doStream_of_canIssue hissue hroom hop hok.1 hok.2))
  · rw [exec_drain, coreRow_next (beq_iff_eq.2 hop)]
    exact congrArg _ (mapDev_congr (doDrain_of_canIssue hissue hroom hop hchecks hfault))
  · rw [exec_checkArray, coreRow_next (by simp [hop, hunit])]
    refine congrArg _ (mapDev_congr (congrArg (Dev.after · core) (issue_enqueue hissue hroom ?_ rfl)))
    exact wDsts_none hop (by decide) (by decide) (by decide)

section
variable {d : Dev} {core n : Nat} {w : IWord} {regs ctl : List Nat} {run : Dev → Issuer → Dev}

/-! ### The vector queue and the move queue -/

theorem wDsts_vector (hop : wOpcode w = opVop) (hvec : vpScalar w = false) : wDsts w = [] := by
  have hbit : bitOf w 8 = false := hvec
  simp [wDsts, hop, opVop, hbit]

theorem wDsts_tensorMove (hop : wOpcode w = opMove) (hmove : mvToSreg w = false) : wDsts w = [] := by
  have hbit : bitOf w 17 = false := hmove
  simp [wDsts, hop, opMove, mvLoads, hbit]

/-- An instruction with room in the move queue, whose effect is an entry of it. -/
theorem issue_pushMove (h : d.CanIssue core n w regs ctl) (hroom : (d.core core).moveQ.length < 8) (hdst : wDsts w = []) {r : MoveRun}
    (hrun : run (d.counting n) ((d.lc n).issuer n) = (d.counting n).pushMove core r) :
    d.issue core w regs ctl ((d.core core).moveQ.length ≥ 8) false run = (d.stepping n w).pushMove core r :=
  enqueue_issue h (decide_eq_false (by omega)) hrun rfl rfl hdst

/-- A load of s registers, whose flow waits for its registers where it has a condition (R240). -/
theorem issue_pushMove_late (h : d.CanIssue core n w regs ctl) (hroom : (d.core core).moveQ.length < 8)
    (hflow : ∀ r ∈ flowRegs w, (d.lc n).sPoison.get r = false) {r : MoveRun}
    (hrun : run (d.counting n) ((d.lc n).issuer n) = (d.counting n).pushMove core r) :
    d.issue core w regs ctl ((d.core core).moveQ.length ≥ 8) true run
      = (if wCond w = 0 then d.stepping n w else d.counting n).pushMove core r := by
  obtain ⟨hocc, -, -, hlc, -⟩ := runner_spec h.runner
  rw [enqueue_issue_late h (decide_eq_false (by omega)) hrun ?_ ?_ ?_ hflow]
  · split
    · simp [Dev.pushMove, Dev.updCore, Dev.setCore, Dev.setLc, Dev.counting, Dev.stepping, Dev.core]
    · rfl
  · rw [Dev.pushMove, updCore_lc, counting_lc]
  · simpa [Dev.pushMove, Dev.counting] using hocc
  · simpa [Dev.pushMove, Dev.counting] using hlc

theorem doVopVector_of_canIssue (hvec : vpScalar w = false) (h : d.CanIssue core n w (if usesS (vpFunc w) then [vpSreg w] else []) [])
    (hroom : (d.core core).vecQ.length < 8) (hop : wOpcode w = opVop) (fail : Option Nat)
    (hchecks : firstFail (vopChecks (d.counting n) (d.lc n).counted w) = none)
    (hfault : issueFault (d.counting n) (.core core) (vopRegions (d.lc n).counted w) = none) :
    doVopVector d core w fail = (((d.stepping n w).updCore core (fun c => { c with vecQ := c.vecQ ++ [
        { who := (d.lc n).issuer n, word := w, sval := (d.lc n).reg (vpSreg w)
          sPoison := usesS (vpFunc w) && (d.lc n).sPoison.get (vpSreg w)
          dd := (d.lc n).desc (vpDst w), da := if vpHandoff w then 0 else (d.lc n).desc (vpA w)
          db := if usesB (vpFunc w) then (d.lc n).desc (vpB w) else 0, dc := if usesC (vpFunc w) then (d.lc n).desc (vpC w) else 0
          failGroup := fail, rows := 0, done := false, held := false, status := stDone }] })).vpump core).after core := by
  rw [doVopVector, if_neg (by simp [hvec]), enqueue_issue h (decide_eq_false (by omega)) ?_ ?_ ?_ (wDsts_vector hop hvec)]
  rw [counting_issuer_lc]
  · exact checked_ok hchecks hfault
  · rfl
  · rfl

theorem doMoveToSreg_of_canIssue (hload : mvToSreg w = true) (h : d.CanIssue core n w (mvRegs w) [])
    (hroom : (d.core core).moveQ.length < 8) (hflow : ∀ r ∈ flowRegs w, (d.lc n).sPoison.get r = false)
    (hchecks : firstFail (sregChecks (d.lc n).counted w) = none)
    (hseg : segCheck (d.counting n) (.core core) ((d.lc n).counted.view (mvDsrc w)).seg true false
      (((d.lc n).counted.view (mvDsrc w)).firstByte (d.counting n)) (8 * (mvNwords w + 1)) = none) :
    doMoveToSreg d core w = (((if wCond w = 0 then d.stepping n w else d.counting n).pushMove core
      (mkMove ((d.lc n).issuer n) w ((d.lc n).desc (mvDsrc w)) 0 [])).mpump core).after core := by
  rw [doMoveToSreg, if_neg (by simp [hload]), issue_pushMove_late h hroom hflow]
  simp only [counting_issuer_lc, hchecks, hseg]
  rfl

end

/-- Settles O2: each instruction by the entry that it leaves in its queue. -/
theorem moveAndVectorInstructionsIssue : Obligations.MoveAndVectorInstructionsIssue := by
  intro s core n w d l who ok
  refine ⟨fun fail hop hvec hroom hissue hok => ?vop, fun hop hmove hroom hissue hok => ?move,
    fun hop hload hroom hissue hflow hchecks hseg => ?load, fun hop hroom hissue hok => ?mcast⟩
  case vop =>
    rw [exec_vopVector, coreRow_next (by simp [hop, hvec])]
    exact congrArg _ (mapDev_congr (doVopVector_of_canIssue hvec hissue hroom hop fail hok.1 hok.2))
  case move =>
    rw [exec_move, coreRow_next (by simp [hop, hmove])]
    refine congrArg _ (mapDev_congr ?_)
    rw [doMove, if_neg (by simp [hmove]), issue_pushMove hissue hroom (wDsts_tensorMove hop hmove)]
    rw [counting_issuer_lc]
    exact checked_ok hok.1 hok.2
  case load =>
    rw [exec_moveToSreg, coreRow_next (by simp [hop, hload])]
    refine congrArg _ (mapDev_congr ?_)
    exact doMoveToSreg_of_canIssue hload hissue hroom hflow hchecks hseg
  case mcast =>
    rw [exec_mcast, coreRow_next (beq_iff_eq.2 hop)]
    refine congrArg _ (mapDev_congr ?_)
    rw [doMcast, issue_pushMove hissue hroom (wDsts_none hop (by decide) (by decide) (by decide))]
    rw [counting_issuer_lc]
    exact checked_ok hok.1 hok.2

end Sys2Proof.Machine
end

section
/-! Core instructions that act at once: their own effect, with the logical core counted and its flow tested. -/

namespace Sys2Proof.Machine

section
variable {d d' : Dev} {core n : Nat} {w : IWord} {regs ctl : List Nat} {run : Dev → Issuer → Dev}

/-- A runner stands counted on its core. -/
theorem runner_on (h : d.runner core = some n) : (d.core core).occupied = true ∧ (d.core core).lc = n ∧ (d.lc n).phase = .running := by
  obtain ⟨hocc, -, -, hlc, hphase⟩ := runner_spec h
  exact ⟨hocc, hlc, hphase⟩

/-- An instruction that writes no s register ends with its flow tested, where its own effect leaves the logical core as it issued and
the core to it. -/
theorem issue_effect (h : d.CanIssue core n w regs ctl) {wait : Bool} (hwait : wait = false) (hdst : wDsts w = [])
    (hrun : run (d.counting n) ((d.lc n).issuer n) = d') (hlc : d'.lc n = (d.lc n).counted)
    (hcore : (d'.core core).occupied = (d.core core).occupied ∧ (d'.core core).lc = (d.core core).lc) :
    d.issue core w regs ctl wait false run = d'.setLc n ((d.lc n).counted.flow w) := by
  obtain ⟨hocc, hon, hphase⟩ := runner_on h.runner
  rw [issue_on h hwait hrun (hcore.1.trans hocc) (hcore.2.trans hon), hlc]
  · rw [hlc]; exact hphase
  · rw [hlc]; rfl
  · intro r hr
    rw [hlc]
    exact h.clean r (by simp [hdst, hr])

/-- The same where the effect is a change of the logical core's registers, which the flow then sees. -/
theorem issue_setLc (h : d.CanIssue core n w regs ctl) {l : LCore} (hrun : run (d.counting n) ((d.lc n).issuer n) = d.setLc n l)
    (hphase : l.phase = (d.lc n).phase) (horbit : l.orbit = (d.lc n).orbit) (hflow : ∀ r ∈ flowRegs w, l.sPoison.get r = false) :
    d.issue core w regs ctl false false run = d.setLc n (l.flow w) := by
  obtain ⟨hocc, hon, hrunning⟩ := runner_on h.runner
  rw [issue_on h rfl hrun hocc hon]
  · rw [setLc_lc]
    simp [Dev.setLc]
  · rw [setLc_lc, hphase, hrunning]
  · rw [setLc_lc, horbit]
  · rw [setLc_lc]; exact hflow

/-- The same where the logical core then waits or yields: its core decides what follows (R221, R230). -/
theorem issue_paused (h : d.CanIssue core n w regs ctl) {l : LCore} (hrun : run (d.counting n) ((d.lc n).issuer n) = d.setLc n l)
    (hphase : (∃ i k, l.phase = .waiting i k) ∨ l.phase = .yielded) (horbit : l.orbit = (d.lc n).orbit)
    (hflow : ∀ r ∈ flowRegs w, l.sPoison.get r = false) :
    d.issue core w regs ctl false false run = (d.setLc n (l.flow w)).settle core := by
  have htest : (d.setLc n l).testFlow n w = d.setLc n (l.flow w) := by
    rw [testFlow_clean (by rw [setLc_lc]; exact hflow)]
    simp [Dev.updLc, Dev.setLc, Dev.lc]
  rw [issue_run h rfl, show run (d.setLc n (d.lc n).counted) ((d.lc n).issuer n) = d.setLc n l from hrun]
  rcases hphase with ⟨i, k, hwaits⟩ | hyields
  · simp [hwaits, horbit, htest]
  · simp [hyields, horbit, htest]

/-- An instruction that ends its logical core's orbit has no flow to test. -/
theorem issue_ended (h : d.CanIssue core n w regs ctl) {wait : Bool} (hwait : wait = false)
    (hrun : run (d.counting n) ((d.lc n).issuer n) = d') (hphase : (d'.lc n).phase = .halted ∨ (d'.lc n).phase = .notStarted) :
    d.issue core w regs ctl wait false run = d'.settle core := by
  rw [issue_run h hwait, show run (d.setLc n (d.lc n).counted) ((d.lc n).issuer n) = d' from hrun]
  rcases hphase with hp | hp <;> simp [hp]

/-- R221: the core of a logical core that waits for a count that is there takes it. -/
theorem settle_count {l : LCore} {i k : Nat} (hocc : (d.core core).occupied = true) (hon : (d.core core).lc = n) (hl : d.lc n = l)
    (hphase : l.phase = .waiting i k) (hthere : k ≤ l.sem l.orbit i) :
    d.settle core = d.setLc n { l.setSem l.orbit i (l.sem l.orbit i - k) with phase := .running } := by
  subst hl
  simp only [Dev.settle, hocc, hon, hphase]
  simp [hthere]

@[simp] theorem setLc_setLc (d : Dev) (n : Nat) (a b : LCore) : (d.setLc n a).setLc n b = d.setLc n b := by
  simp [Dev.setLc]

theorem counting_setLc (d : Dev) (n : Nat) (l : LCore) : (d.counting n).setLc n l = d.setLc n l := by
  simp [Dev.counting, Dev.setLc]

@[simp] theorem counting_updLc (d : Dev) (n : Nat) (f : LCore → LCore) : (d.counting n).updLc n f = d.setLc n (f (d.lc n).counted) := by
  rw [Dev.updLc, counting_lc, counting_setLc]

/-! ### Submission to a Coma engine -/

theorem counting_engineOf (d : Dev) (n die j : Nat) : (d.counting n).engineOf die j = d.engineOf die j := by
  rw [Dev.engineOf, counting_phys, Dev.engineOf]

/-- The command that a Coma instruction submits. -/
def Dev.submission (d : Dev) (n : Nat) (w : IWord) : ComaCmd :=
  { who := (d.lc n).issuer n, ord := d.comaOrd, hdr := (d.lc n).desc (cmHdr w), opa := cmOperand (d.lc n) w 0 (cmOpa w)
    opb := cmOperand (d.lc n) w 1 (cmOpb w), opc := cmOperand (d.lc n) w 2 (cmOpc w) }

theorem submitComa_of_canIssue {cls : Nat} (h : d.CanIssue core n w [] []) (hdst : wDsts w = [])
    (hchecks : firstFail (comaChecks (d.lc n).counted w cls) = none) :
    let g := d.engineOf (core / 32) (hEngine ((d.lc n).desc (cmHdr w)))
    (d.coma g).queue.length < 16 → (d.coma g).retired = false → (d.coma g).fenced = false →
    submitComa d core w cls =
      { d.stepping n w with comaOrd := d.comaOrd + 1 }.updComa g (fun e => { e with queue := e.queue ++ [d.submission n w] }) := by
  intro g hroom hretired hfenced
  have hcoma (k : Nat) : (d.counting n).coma k = d.coma k := rfl
  have hdesc (i : Nat) : (d.lc n).counted.desc i = (d.lc n).desc i := rfl
  rw [submitComa]
  dsimp only
  rw [h.runner]
  rw [issue_effect h (decide_eq_false (Nat.not_le_of_lt hroom)) hdst (d' := ({ d.counting n with comaOrd := d.comaOrd + 1 } : Dev).updComa g
    (fun e => { e with queue := e.queue ++ [d.submission n w] })) ?_ (counting_lc d n) ⟨rfl, rfl⟩]
  · simp [Dev.updComa, Dev.setComa, Dev.setLc, Dev.counting, Dev.stepping, Dev.coma]
  · simp only [counting_issuer_lc, hchecks, counting_engineOf, hcoma, hdesc]
    rw [hretired, hfenced]
    rfl

end

/-- Settles O3: each instruction submits its class's command. -/
theorem comaInstructionsSubmit : Obligations.ComaInstructionsSubmit := by
  intro s core n w d l g c sent hissue hroom hretired hfenced
  have hsubmit {cls k : Nat} (hop : wOpcode w = k) (h1 : k ≠ 0x10) (h2 : k ≠ 0x20) (h3 : k ≠ 0x50)
      (hchecks : firstFail (comaChecks l.counted w cls) = none) : s.mapDev (fun d => submitComa d core w cls) = sent :=
    mapDev_congr (submitComa_of_canIssue hissue (wDsts_none hop h1 h2 h3) hchecks hroom hretired hfenced)
  refine ⟨fun hop hchecks => ?_, fun hop hchecks => ?_, fun hop hchecks => ?_⟩
  · rw [exec_gather, coreRow_next (beq_iff_eq.2 hop)]
    exact congrArg _ (hsubmit hop (by decide) (by decide) (by decide) hchecks)
  · rw [exec_scatter, coreRow_next (beq_iff_eq.2 hop)]
    exact congrArg _ (hsubmit hop (by decide) (by decide) (by decide) hchecks)
  · rw [exec_merge, coreRow_next (beq_iff_eq.2 hop)]
    exact congrArg _ (hsubmit hop (by decide) (by decide) (by decide) hchecks)

/-- The flow of a scalar VOP sees the result: a register of its condition is clean where it is not the one written, and where it is by
the poison of the result. -/
theorem setReg_flow_clean {l : LCore} {w : IWord} {dst : Nat} {v : W64} {q : Bool}
    (hclean : ∀ r ∈ flowRegs w, r ≠ dst → l.sPoison.get r = false) (hq : q = true → dst ∉ flowRegs w) :
    ∀ r ∈ flowRegs w, (l.setReg dst v q).sPoison.get r = false := by
  intro r hr
  rw [LCore.setReg, Bank.get_set]
  split
  · next heq =>
    subst heq
    cases q with
    | false => rfl
    | true => exact absurd hr (hq rfl)
  · next hne => exact hclean r hr hne

theorem wDsts_scalar {w : IWord} (hop : wOpcode w = opVop) (hscalar : vpScalar w = true) : wDsts w = [scDst w] := by
  have hbit : bitOf w 8 = true := hscalar
  simp [wDsts, hop, opVop, hbit, scDst]

/-- Settles O4: each is a change of registers that the flow then sees. -/
theorem registerInstructions : Obligations.RegisterInstructions := by
  intro s core n w d l
  refine ⟨fun v q hop hscalar hissue hres hq => ?scalar, fun r hop hissue hres => ?dmake⟩
  case scalar =>
    rw [exec_vopScalar, coreRow_next (by simp [hop, hscalar])]
    refine congrArg _ (mapDev_congr ?_)
    have hres' : scalarResult (d.lc n).counted w = some (v, q) := hres
    have hclean : ∀ r ∈ flowRegs w, r ≠ scDst w → (d.lc n).counted.sPoison.get r = false := fun r hr hne =>
      hissue.clean r (by simp [wDsts_scalar hop hscalar, hr, hne])
    rw [doVopScalar, if_neg (by simp [hscalar])]
    refine issue_setLc hissue ?_ rfl rfl (setReg_flow_clean hclean hq)
    simp only [counting_issuer_lc, hres']
    exact counting_updLc ..
  case dmake =>
    rw [exec_dmake, coreRow_next (beq_iff_eq.2 hop)]
    refine congrArg _ (mapDev_congr ?_)
    have hres' : dmakeResult (d.counting n) core (d.lc n).counted w = .ok r := hres
    refine issue_setLc hissue ?_ rfl rfl (fun q hq => hissue.clean q ?_)
    · simp only [counting_issuer_lc, hres']
      exact counting_updLc ..
    · simp [wDsts_none hop (by decide) (by decide) (by decide), hq]

/-! ### Synchronisation -/

section
variable {d : Dev} {core n : Nat} {w : IWord}

theorem doTake_of_canIssue (h : d.CanIssue core n w [tkDst w] []) (hflow : ∀ r ∈ flowRegs w, (d.lc n).sPoison.get r = false) :
    let c := (d.die (core / 32)).counters.get (tkCounter w)
    let v := c.value (d.lc n).orbit
    v.toNat + tkInc w ≤ 0xFFFFFFFF →
    doTake d core w = ((if wCond w = 0 then d.stepping n w else d.counting n).updDie (core / 32) (fun k => { k with
      counters := k.counters.set (tkCounter w) (c.put (d.lc n).orbit (BitVec.ofNat 32 (v.toNat + tkInc w))) })).updCore core
        (fun k => { k with takes := k.takes ++ [⟨(d.lc n).issuer n, tkDst w, v, w⟩] }) := by
  intro c v hfits
  obtain ⟨hocc, hon, -⟩ := runner_on h.runner
  rw [doTake, enqueue_issue_late h rfl (d' := ((d.counting n).updDie (core / 32) (fun k => { k with
      counters := k.counters.set (tkCounter w) (c.put (d.lc n).orbit (BitVec.ofNat 32 (v.toNat + tkInc w))) })).updCore core
        (fun k => { k with takes := k.takes ++ [⟨(d.lc n).issuer n, tkDst w, v, w⟩] })) ?_ (counting_lc d n) ?_ ?_ hflow]
  · split
    · simp [Dev.updDie, Dev.updCore, Dev.setCore, Dev.setLc, Dev.counting, Dev.stepping, Dev.core]
    · rfl
  · exact if_neg (Nat.not_lt.2 hfits)
  · rw [updCore_core]; exact hocc
  · rw [updCore_core]; exact hon

theorem doSignal_of_canIssue (h : d.CanIssue core n w (if sgIncReg w then [sgIncreg w] else []) (if sgIncReg w then [sgIncreg w] else []))
    (hop : wOpcode w = opSignal) (hrange : sgInRange w = true) :
    doSignal d core w = if sgAmount (d.lc n) w = 0 then d.stepping n w
      else (d.stepping n w).sendSignal ⟨some ((d.lc n).issuer n), (d.lc n).orbit, sgTkind w, sgTnum w, sgSem w, sgAmount (d.lc n) w, 0⟩ := by
  have hamount : sgAmount (d.lc n).counted w = sgAmount (d.lc n) w := rfl
  rw [doSignal, issue_effect h rfl (wDsts_none hop (by decide) (by decide) (by decide)) (d' := if sgAmount (d.lc n) w = 0 then d.counting n
      else (d.counting n).sendSignal ⟨some ((d.lc n).issuer n), (d.lc n).orbit, sgTkind w, sgTnum w, sgSem w, sgAmount (d.lc n) w, 0⟩)]
  · split
    · exact counting_setLc ..
    · simp [Dev.sendSignal, Dev.setLc, Dev.counting, Dev.stepping]
  · simp only [counting_issuer_lc, hrange, hamount]
    rfl
  · split <;> exact counting_lc d n
  · split <;> exact ⟨rfl, rfl⟩

/-- The logical core as a WAIT leaves it. -/
def LCore.awaiting (l : LCore) (sem count : Nat) : LCore := { l with phase := .waiting sem count }

/-- R221: a WAIT waits at once, its flow is tested, and the core then finds the count there and takes it. -/
theorem doWait_of_count (h : d.CanIssue core n w (if wtCntReg w then [wtCntreg w] else []) (if wtCntReg w then [wtCntreg w] else []))
    (hop : wOpcode w = opWait) :
    let l := d.lc n
    let sem := l.sem l.orbit (wtSem w)
    wtAmount l w ≤ sem → wtAmount l w ≠ 0 →
    doWait d core w = d.setLc n ((l.counted.flow w).setSem l.orbit (wtSem w) (sem - wtAmount l w)) := by
  intro l sem hthere hsome
  obtain ⟨hocc, hon, hphase⟩ := runner_on h.runner
  have hsettled : (d.setLc n ((l.counted.awaiting (wtSem w) (wtAmount l w)).flow w)).settle core = d.setLc n
      { (l.counted.flow w).setSem l.orbit (wtSem w) (sem - wtAmount l w) with phase := .running } :=
    (settle_count (d := d.setLc n _) (l := (l.counted.awaiting _ _).flow w) hocc hon (setLc_lc ..) rfl hthere).trans (setLc_setLc ..)
  rw [doWait]
  refine (issue_paused h ?_ (l := l.counted.awaiting (wtSem w) (wtAmount l w)) (.inl ⟨_, _, rfl⟩) rfl ?_).trans (hsettled.trans ?_)
  · exact (counting_updLc d n _).trans (congrArg _ (if_neg hsome))
  · exact fun r hr => h.clean r (by simp [wDsts_none hop (by decide) (by decide) (by decide), hr])
  · rw [← hphase]
    rfl

theorem allDone_not_busy (hrun : d.runner core = some n) (hdone : (d.core core).allDone n (d.lc n).seq = true) : d.busy core = false := by
  rw [Dev.busy, hrun]
  simp [hdone]

theorem doFence_of_allDone (h : d.CanIssue core n w [] []) (hop : wOpcode w = opFence)
    (hdone : (d.core core).allDone n (d.lc n).seq = true) : doFence d core w = d.stepping n w := by
  rw [doFence, issue_effect h (allDone_not_busy h.runner hdone) (wDsts_none hop (by decide) (by decide) (by decide)) rfl (counting_lc d n)
    ⟨rfl, rfl⟩]
  exact counting_setLc ..

end

/-- Settles O5: each instruction by its own effect. -/
theorem synchronisationInstructions : Obligations.SynchronisationInstructions := by
  intro s core n w d l c more sem
  refine ⟨fun hop hissue hflow hfits => ?_, fun hop hissue hrange => ?_, fun hop hissue hthere hsome => ?_, fun hop hissue hdone => ?_⟩
  · rw [exec_take, coreRow_next (beq_iff_eq.2 hop)]
    exact congrArg _ (mapDev_congr (doTake_of_canIssue hissue hflow hfits))
  · rw [exec_signal, coreRow_next (beq_iff_eq.2 hop)]
    exact congrArg _ (mapDev_congr (doSignal_of_canIssue hissue hop hrange))
  · rw [exec_wait, coreRow_next (beq_iff_eq.2 hop)]
    exact congrArg _ (mapDev_congr (doWait_of_count hissue hop hthere hsome))
  · rw [exec_fence, coreRow_next (beq_iff_eq.2 hop)]
    exact congrArg _ (mapDev_congr (doFence_of_allDone hissue hop hdone))

/-! ### CHECK -/

section
variable {d : Dev} {core n : Nat} {w : IWord}

/-- A read corrects a flipped bit and flips none. -/
theorem scrubWord_flip1 (d : Dev) (a b : Nat) (h : d.ms.flip2.get b = false) :
    (d.scrubWord a).ms.flip1.get b = if b = a then false else d.ms.flip1.get b := by
  obtain ⟨hone, htwo⟩ := Dev.readWord_flips d a
  unfold Dev.scrubWord
  split
  · next hbad =>
    rw [hone, if_neg (fun heq => by rw [heq, hbad] at h; cases h)]
  · rw [← Bank.get_set, ← hone]

theorem scrubWord_flip2 (d : Dev) (a : Nat) : (d.scrubWord a).ms.flip2 = d.ms.flip2 := by
  unfold Dev.scrubWord
  split <;> exact (Dev.readWord_flips d a).2

theorem scrubWord_mem (d : Dev) (a : Nat) : (d.scrubWord a).ms.mem = d.ms.mem := by
  unfold Dev.scrubWord
  split <;> exact Dev.readWord_mem d a

theorem scrubWord_lcs (d : Dev) (a : Nat) : (d.scrubWord a).lcs = d.lcs := by
  unfold Dev.scrubWord
  split <;> exact Dev.readWord_lcs d a

theorem scrubWord_run (d : Dev) (a k : Nat) :
    ((d.scrubWord a).core k).occupied = (d.core k).occupied ∧ ((d.scrubWord a).core k).lc = (d.core k).lc := by
  unfold Dev.scrubWord
  split <;> exact Dev.readWord_run d a k

/-- What every word's correction leaves alone, the correction of a region leaves alone. -/
theorem foldl_scrubWord_proj {α : Type} (p : Dev → α) (h : ∀ d a, p (d.scrubWord a) = p d) (l : List Nat) :
    ∀ d, p (l.foldl Dev.scrubWord d) = p d := by
  induction l with
  | nil => exact fun _ => rfl
  | cons a l ih => exact fun d => (ih _).trans (h d a)

theorem foldl_scrubWord_flip1 (l : List Nat) (b : Nat) : ∀ d : Dev, d.ms.flip2.get b = false →
    (l.foldl Dev.scrubWord d).ms.flip1.get b = if b ∈ l then false else d.ms.flip1.get b := by
  induction l with
  | nil => intro d _; simp
  | cons a l ih =>
    intro d h
    rw [List.foldl_cons, ih _ (by rw [scrubWord_flip2]; exact h), scrubWord_flip1 d a b h]
    by_cases hl : b ∈ l <;> by_cases ha : b = a <;> simp [hl, ha]

theorem doCheckRegion_of_canIssue (h : d.CanIssue core n w [] []) (hop : wOpcode w = opCheck) :
    let v := (d.lc n).view (ckDreg w)
    (d.lc n).tensorOk (ckDreg w) = true → d.inPad v = true → issueFault (d.counting n) (.core core) [(v, false)] = none →
    doCheckRegion d core w
      = ((regionWords (d.counting n) core v).foldl Dev.scrubWord (d.counting n)).setLc n ((d.lc n).counted.flow w) := by
  intro v htensor hpad hfault
  have hcore := foldl_scrubWord_proj (fun d => ((d.core core).occupied, (d.core core).lc))
    (fun d a => Prod.ext (scrubWord_run d a core).1 (scrubWord_run d a core).2) (regionWords (d.counting n) core v) (d.counting n)
  rw [Prod.mk.injEq] at hcore
  refine issue_effect h rfl (wDsts_none hop (by decide) (by decide) (by decide)) ?_ ?_ hcore
  · rw [counting_issuer_lc]
    refine checked_ok ?_ hfault
    have htensor' : (d.lc n).counted.tensorOk (ckDreg w) = true := htensor
    have hpad' : (d.counting n).inPad ((d.lc n).counted.view (ckDreg w)) = true := hpad
    simp [firstFail, htensor', hpad']
  · rw [Dev.lc, foldl_scrubWord_proj Dev.lcs scrubWord_lcs]
    exact counting_lc d n

theorem doCheckImem_of_canIssue (h : d.CanIssue core n w [] []) (hop : wOpcode w = opCheck)
    (hscan : (imemScan d.ms.flip1 d.ms.flip2 core 16384).2 = none) :
    doCheckImem d core w =
      { d.stepping n w with ms := { d.ms with flip1 := d.ms.flip1.clear (imemFlip core 0) (imemFlip (core + 1) 0) } }.updCore core
        (fun c => { c with imemCorr := satAdd 0xFFFF c.imemCorr (imemScan d.ms.flip1 d.ms.flip2 core 16384).1 }) := by
  have hrun : (d.counting n).checkImem core =
      { d.counting n with ms := { d.ms with flip1 := d.ms.flip1.clear (imemFlip core 0) (imemFlip (core + 1) 0) } }.updCore core
        (fun c => { c with imemCorr := satAdd 0xFFFF c.imemCorr (imemScan d.ms.flip1 d.ms.flip2 core 16384).1 }) := by
    have hscan' : (imemScan (d.counting n).ms.flip1 (d.counting n).ms.flip2 core 16384).2 = none := hscan
    simp only [Dev.checkImem, hscan']
    rfl
  rw [doCheckImem, issue_effect h rfl (wDsts_none hop (by decide) (by decide) (by decide)) hrun ?_ ?_]
  · simp [Dev.updCore, Dev.setCore, Dev.setLc, Dev.counting, Dev.stepping, Dev.core]
  · exact counting_lc d n
  · rw [updCore_core]
    exact ⟨rfl, rfl⟩

end

/-- Settles O6: a region word by word, instruction memory at once. -/
theorem checkInstructions : Obligations.CheckInstructions := by
  intro s core n w d l v scan
  refine ⟨fun hop hunit hissue htensor hpad hfault => ?region, fun hop hunit hissue hscan => ?imem⟩
  case region =>
    let words := regionWords (d.counting n) core v
    refine ⟨s.mapDev (fun d => doCheckRegion d core w), ?_, ?_⟩
    · rw [exec_checkRegion, coreRow_next (by simp [hop, hunit])]
    · rw [State.mapDev_dev, doCheckRegion_of_canIssue hissue hop htensor hpad hfault]
      refine ⟨?_, setLc_lc .., fun a ha hflip => ?_⟩
      · exact foldl_scrubWord_proj (·.ms.mem) scrubWord_mem words (d.counting n)
      · exact (foldl_scrubWord_flip1 words a (d.counting n) hflip).trans (if_pos ha)
  case imem =>
    rw [exec_checkImem, coreRow_next (by simp [hop, hunit])]
    exact congrArg _ (mapDev_congr (doCheckImem_of_canIssue hissue hop hscan))

/-! ### Context instructions -/

section
variable {d : Dev} {core n : Nat} {w : IWord}

/-- The device with a logical core at its yield, its instruction counted and its flow tested. -/
def Dev.yielding (d : Dev) (n : Nat) (w : IWord) : Dev := d.setLc n { (d.lc n).counted.flow w with phase := .yielded }

theorem doCtxsaveYield_of_canIssue (h : d.CanIssue core n w [] []) (hop : wOpcode w = opCtxsave) :
    doCtxsaveYield d core w = (d.yielding n w).settle core := by
  refine issue_paused h (l := { (d.lc n).counted with phase := .yielded }) ?_ (.inr rfl) rfl ?_
  · exact counting_updLc d n _
  · exact fun r hr => h.clean r (by simp [wDsts_none hop (by decide) (by decide) (by decide), hr])

theorem settle_yielding_alone (h : d.runner core = some n)
    (hnext : (d.yielding n w).nextReady core n = none ∨ (d.yielding n w).nextReady core n = some n) :
    (d.yielding n w).settle core = d.stepping n w := by
  obtain ⟨hocc, hon, hphase⟩ := runner_on h
  have hlc : (d.yielding n w).lc n = { (d.lc n).counted.flow w with phase := .yielded } := setLc_lc ..
  have hcore : (d.yielding n w).core core = d.core core := rfl
  have hback : (d.yielding n w).setLc n { (d.lc n).counted.flow w with phase := .running } = d.stepping n w := by
    rw [← hphase]
    exact setLc_setLc ..
  rcases hnext with hnone | hself
  · simp [Dev.settle, hcore, hocc, hon, hlc, hnone, hback]
  · simp [Dev.settle, hcore, hocc, hon, hlc, hself, hback]

theorem settle_yielding_other (h : d.runner core = some n) {m : Nat} (hnext : (d.yielding n w).nextReady core n = some m) (hne : m ≠ n)
    (hquiet : (d.core core).quiet = true) : (d.yielding n w).settle core = ((d.yielding n w).saveLc core).schedule core := by
  obtain ⟨hocc, hon, -⟩ := runner_on h
  have hlc : (d.yielding n w).lc n = { (d.lc n).counted.flow w with phase := .yielded } := setLc_lc ..
  have hcore : (d.yielding n w).core core = d.core core := rfl
  simp [Dev.settle, hcore, hocc, hon, hlc, hnext, hne, hquiet]

theorem LCore.counted_view (l : LCore) (i : Nat) : l.counted.view i = l.view i := rfl

theorem doCtxsaveArea_of_canIssue (h : d.CanIssue core n w [] []) (hop : wOpcode w = opCtxsave) (hquiet : (d.core core).quiet = true) :
    let l := d.lc n
    let v := l.view (cxDreg w)
    let a := (ctxAreaOf (d.counting n) v).getD 0
    let saved := saveImage d.ms a core n l.orbit d.plan.digest (24 ≤ core % 32) l.counted (d.core core)
    l.tensorOk (cxDreg w) = true → (ctxAreaOf (d.counting n) v).isSome = true → v.wr = true →
    issueFault (d.counting n) (.core core) [(v, true)] = none →
    doCtxsaveArea d core w = { d.stepping n w with ms := { saved with
      tagged := tagLines saved.tagged (if t2Base ≤ a then (List.range (ctxSize / 128)).map (fun i => a + 128 * i) else []) } } := by
  intro l v a saved htensor harea hwr hfault
  have htensor' : l.counted.tensorOk (cxDreg w) = true := htensor
  have hview : l.counted.view (cxDreg w) = v := rfl
  obtain ⟨x, hx⟩ := Option.isSome_iff_exists.1 harea
  rw [doCtxsaveArea, issue_effect h (by simp [hquiet]) (wDsts_none hop (by decide) (by decide) (by decide)) (d' := { d.counting n with
    ms := { saved with
      tagged := tagLines saved.tagged (if t2Base ≤ a then (List.range (ctxSize / 128)).map (fun i => a + 128 * i) else []) } })
    ?_ (counting_lc d n) ⟨rfl, rfl⟩]
  · simp [Dev.setLc, Dev.counting, Dev.stepping]
  · rw [counting_issuer_lc]
    refine checked_ok ?_ hfault
    rw [htensor', hview, hx, hwr]
    rfl

/-- What every word's read leaves alone, the read of several leaves alone. -/
theorem foldl_readWord_proj {α : Type} (p : Dev → α) (h : ∀ d a, p (d.readWord a) = p d) (l : List Nat) :
    ∀ d, p (l.foldl Dev.readWord d) = p d := by
  induction l with
  | nil => exact fun _ => rfl
  | cons a l ih => exact fun d => (ih _).trans (h d a)

theorem touchRange_lcs (d : Dev) (lo hi : Nat) : (d.touchRange lo hi).1.lcs = d.lcs :=
  foldl_readWord_proj Dev.lcs Dev.readWord_lcs _ d

theorem touchRange_run (d : Dev) (lo hi k : Nat) :
    ((d.touchRange lo hi).1.core k).occupied = (d.core k).occupied ∧ ((d.touchRange lo hi).1.core k).lc = (d.core k).lc :=
  ⟨foldl_readWord_proj (fun d => (d.core k).occupied) (fun d a => (Dev.readWord_run d a k).1) _ d,
    foldl_readWord_proj (fun d => (d.core k).lc) (fun d a => (Dev.readWord_run d a k).2) _ d⟩

/-- An image does not say who runs on a core. -/
theorem loadCore_occupied (m : Mem) (a : Nat) (c : Core) (who : Issuer) : ((loadCore m a c).ownedBy who).occupied = c.occupied := rfl
theorem loadCore_lc (m : Mem) (a : Nat) (c : Core) (who : Issuer) : ((loadCore m a c).ownedBy who).lc = c.lc := rfl

theorem doCtxrestore_of_canIssue (h : d.CanIssue core n w [] []) (hop : wOpcode w = opCtxrestore)
    (hdone : (d.core core).allDone n (d.lc n).seq = true) :
    let l := d.lc n
    let v := l.view (cxDreg w)
    let a := (ctxAreaOf (d.counting n) v).getD 0
    let t := (d.counting n).touchRange a (a + ctxSize)
    let loaded : Dev := { t.1 with ms := loadPad t.1.ms a core }
    l.tensorOk (cxDreg w) = true → (ctxAreaOf (d.counting n) v).isSome = true → (d.counting n).imageOk a core = true →
    issueFault (d.counting n) (.core core) [(v, false)] = none → t.2 = false →
    doCtxrestore d core w = ((loaded.updCore core (fun c => (loadCore loaded.ms.mem a c).ownedBy (l.issuer n))).setLc n
      (l.counted.flow w)).after core := by
  intro l v a t loaded htensor harea himage hfault hclean
  have htensor' : l.counted.tensorOk (cxDreg w) = true := htensor
  have hview : l.counted.view (cxDreg w) = v := rfl
  obtain ⟨x, hx⟩ := Option.isSome_iff_exists.1 harea
  rw [doCtxrestore, issue_effect h (allDone_not_busy h.runner hdone) (wDsts_none hop (by decide) (by decide) (by decide))
    (d' := loaded.updCore core (fun c => (loadCore loaded.ms.mem a c).ownedBy (l.issuer n))) ?_ ?_ ?_]
  · rw [counting_issuer_lc]
    refine (checked_ok ?_ hfault).trans ?_
    · have ha : a = x := by simp [a, hx]
      rw [htensor', hview, hx]
      simp [firstFail, ← ha, himage]
    · simp only [t, a, v, l] at hclean
      simp only [LCore.counted_view, hclean, Bool.false_eq_true, if_false]
      rfl
  · rw [updCore_lc, Dev.lc]
    exact (congrArg (Bank.get · n) (touchRange_lcs (d.counting n) a (a + ctxSize))).trans (counting_lc d n)
  · have hrun := touchRange_run (d.counting n) a (a + ctxSize) core
    rw [updCore_core, loadCore_occupied, loadCore_lc]
    exact hrun

theorem endOrbit_phase (l : LCore) : (l.endOrbit .halted).phase = .halted ∨ (l.endOrbit .halted).phase = .notStarted := by
  unfold LCore.endOrbit
  dsimp only
  split
  · exact .inr rfl
  · exact .inl rfl

theorem doHalt_of_allDone (h : d.CanIssue core n w [] []) (hdone : (d.core core).allDone n (d.lc n).seq = true) :
    doHalt d core w = ((d.setLc n ((d.lc n).counted.endOrbit .halted)).updCore core (fun c => { c with occupied := false })).schedule core := by
  have hlc : ((d.setLc n ((d.lc n).counted.endOrbit .halted)).updCore core (fun c => { c with occupied := false })).lc n
      = (d.lc n).counted.endOrbit .halted := setLc_lc ..
  rw [doHalt, issue_ended h (allDone_not_busy h.runner hdone) (congrArg (Dev.updCore · core _) (counting_updLc d n _))
    (by rw [hlc]; exact endOrbit_phase _), Dev.settle, updCore_core]
  rfl

end

/-- Settles O7: each instruction by its own effect, a yield by what the core then finds. -/
theorem contextInstructions : Obligations.ContextInstructions := by
  intro s core n w hissue d l v a yielded t loaded saved
  refine ⟨fun hop harea hnext => ?alone, fun m hop harea hnext hne hquiet => ?switch, fun hop harea hquiet htensor hsome hwr hfault => ?save,
    fun hop hdone htensor hsome himage hfault hclean => ?restore, fun hop hdone => ?halt⟩
  case alone =>
    rw [exec_ctxsaveYield, coreRow_next (by simp [hop, harea])]
    exact congrArg _ (mapDev_congr ((doCtxsaveYield_of_canIssue hissue hop).trans (settle_yielding_alone hissue.runner hnext)))
  case switch =>
    rw [exec_ctxsaveYield, coreRow_next (by simp [hop, harea])]
    exact congrArg _ (mapDev_congr ((doCtxsaveYield_of_canIssue hissue hop).trans (settle_yielding_other hissue.runner hnext hne hquiet)))
  case save =>
    rw [exec_ctxsaveArea, coreRow_next (by simp [hop, harea])]
    exact congrArg _ (mapDev_congr (doCtxsaveArea_of_canIssue hissue hop hquiet htensor hsome hwr hfault))
  case restore =>
    rw [exec_ctxrestore, coreRow_next (beq_iff_eq.2 hop)]
    exact congrArg _ (mapDev_congr (doCtxrestore_of_canIssue hissue hop hdone htensor hsome himage hfault hclean))
  case halt =>
    rw [exec_halt, coreRow_next (beq_iff_eq.2 hop)]
    exact congrArg _ (mapDev_congr (doHalt_of_allDone hissue hdone))

end Sys2Proof.Machine
end

section
/-! What happens in a core between instructions: the steps of a STREAM, the ends of queue entries, signals, counters and repeats. -/

namespace Sys2Proof.Machine

/-- A row of the dies does what its operation does to the device. -/
theorem devRow_of_eq {s : State} {f g : Dev → Dev} (h : f s.dev = g s.dev) : devRow s f = .next (s.mapDev g) :=
  congrArg Host.Outcome.next (mapDev_congr h)

section
variable {d : Dev} {core : Nat}

/-! ### STREAM -/

theorem doArrayStep_of_starter {r : StreamRun} (hhold : (d.pump core).holding core = false)
    (hfence : ((d.pump core).core core).fenced = false) (hretire : ((d.pump core).core core).retired = false)
    (hroom : ((d.pump core).core core).canStep = true) (hnext : nextStarter ((d.pump core).core core).streams = some r) :
    doArrayStep d core = (if stFeed r.entry.word then feedStep (d.pump core) core r
      else pushStep (if (actOf (d.pump core) core r r.next).2 = 0 then d.pump core
        else (d.pump core).updCore core (fun c => { c with tsbInexact := satAdd 0xFFFFFFFF c.tsbInexact (actOf (d.pump core) core r r.next).2 }))
        core r r.next (actOf (d.pump core) core r r.next).1 false).after core := by
  simp [doArrayStep, hhold, hfence, hretire, hroom, hnext]

theorem doMergeDelivery_of_engine {g : Nat} (hbound : d.boundEngine core = some g) (hfence : (d.coma g).fenced = false)
    (hretire : (d.coma g).retired = false) :
    doMergeDelivery d core = (d.setCore core { d.core core with
      steps := deliverFirst (fun x => match findStream x.stream (d.core core).streams with
        | some r => deliverAll (d.core core).active (viewOf r.entry.da).fmt r.k x (d.mergeEntries core)
        | none => x) (d.core core).steps }).after core := by
  simp only [doMergeDelivery, hbound, hfence, hretire]
  rfl

theorem doWindowDrain_of_closed {x : OpenStep} {rest : List OpenStep} {r : StreamRun} (hsteps : (d.core core).steps = x :: rest)
    (hstream : findStream x.stream (d.core core).streams = some r) (hclosed : x.isOpen = false) (hheld : r.held = false)
    (hfresh : (d.core core).pendingRepeat = none) (hfence : (d.core core).fenced = false) (hretire : (d.core core).retired = false)
    (hroom : stHandoff r.entry.word = true → (d.core core).handoff.length < 8) (obs : CheckObs) :
    doWindowDrain d core obs = match obs with
      | .pass => (drainOut d core r x).after core
      | .fail k q => (d.setCore core (noteFailure (d.core core) x k q)).settle core := by
  have hgoes : (stHandoff r.entry.word && decide (8 ≤ (d.core core).handoff.length)) = false := by
    cases hhand : stHandoff r.entry.word with
    | false => rfl
    | true => simp [hroom hhand]
  cases obs <;> simp only [doWindowDrain, hsteps, hstream, hclosed, hheld, hfresh, hfence, hretire, hgoes, Option.isSome_none,
    Bool.or_self, Bool.false_eq_true, if_false]

theorem doStreamComplete_of_finished {r : StreamRun} (h : finishedStream (d.core core).streams = some r) :
    doStreamComplete d core = (if stopsLc r.status then
        (d.updCore core (fun c => { c with streams := c.streams.drop 1 })).complete r.who r.status (unitCore core)
      else (d.updCore core (fun c => { c with streams := c.streams.drop 1 })).sigOwn (stSigEn r.entry.word) r.who
        (stSigSem r.entry.word)).after core := by
  rw [doStreamComplete, h]

/-! ### The other queues -/

theorem doVopCompletion_of_done {r : VecRun} {rest : List VecRun} (hhead : ((d.vpump core).core core).vecQ = r :: rest)
    (hdone : r.done = true) :
    doVopCompletion d core = ((((d.vpump core).updCore core (fun c => { c with vecQ := c.vecQ.drop 1 })).sigOwn (vpSigEn r.word) r.who
      (vpSigSem r.word)).vpump core).after core := by
  simp only [doVopCompletion, hhead, hdone, if_true]

theorem doMoveCompletion_of_started {r : MoveRun} {rest : List MoveRun} (hhead : ((d.mpump core).core core).moveQ = r :: rest)
    (hstart : r.started = true) (hmove : isMcast r.word = false) :
    doMoveCompletion d core = ((((d.mpump core).popMove core).sigOwn (mvSigEn r.word) r.who (mvSigSem r.word)).mpump core).after core := by
  simp [doMoveCompletion, hhead, hstart, hmove]

/-- R270: a member that runs has its copy in its scratchpad, another in its context area. -/
theorem doMcastMemberDelivery_of_member {member : Nat} {r : MoveRun} {rest : List MoveRun}
    (hhead : ((d.mpump core).core core).moveQ = r :: rest) (hcast : isMcast r.word = true) (hstart : r.started = true) :
    let m := d.mpump core
    let lc := 128 * (core / 32) + member
    let served (d : Dev) : Dev := ((d.updCore core (fun c => { c with
      moveQ := updMove (fun r => { r with members := r.members.filter (· != lc) }) c.moveQ })).mpump core).after core
    r.members.contains lc = true →
    doMcastMemberDelivery d core member =
      if m.runs? lc then
        served ((m.write (shiftItems (spBase core) (spBase (m.lc lc).phys) r.items) r.poison).arrive
          ⟨some r.who, r.who.orbit, 0, lc, mcMsem r.word, 1, 0⟩)
      else if 16 ≤ imgHeld m.ms.mem (ctxArea lc) then m
      else served (m.holdDelivery core lc r) := by
  intro m lc served hmember
  have hgoes : (!isMcast r.word || !r.started || !r.members.contains lc) = false := by rw [hcast, hstart, hmember]; rfl
  simp only [doMcastMemberDelivery, hhead]
  exact if_neg (Bool.eq_false_iff.1 hgoes)

theorem doTakeResult_of_take {t : TakeRun} {rest : List TakeRun} (h : (d.core core).takes = t :: rest) :
    let d' := (d.updCore core (fun c => { c with takes := rest })).updLc t.who.lc (fun l => l.setReg t.dst (t.value.zeroExtend 64) false)
    doTakeResult d core = (if wCond t.word = 0 then d' else d'.testFlow t.who.lc t.word).settle core := by
  intro d'
  rw [doTakeResult, h]

end

/-- Settles O9: each event by its operation, once nothing holds it back. -/
theorem streamEvents : Obligations.StreamEvents := by
  intro s core d c p on
  refine ⟨fun r hhold hfence hretire hroom hnext => ⟨fun hfeed => ?_, fun hfeed => ?_⟩, fun g hbound hfence hretire => ?_,
    fun x rest r hsteps hstream hclosed hheld hfresh hfence hretire hroom => ?_, fun r hfin => ?_⟩
  · refine (exec_arrayStep core s).trans (devRow_of_eq ?_)
    rw [doArrayStep_of_starter hhold hfence hretire hroom hnext, if_pos hfeed]
  · refine (exec_arrayStep core s).trans (devRow_of_eq ?_)
    rw [doArrayStep_of_starter hhold hfence hretire hroom hnext, if_neg (by simp [hfeed])]
  · refine (exec_mergeDelivery core s).trans (devRow_of_eq ?_)
    exact doMergeDelivery_of_engine hbound hfence hretire
  · have hdrain := doWindowDrain_of_closed hsteps hstream hclosed hheld hfresh hfence hretire hroom
    exact ⟨(exec_windowDrain core .pass s).trans (devRow_of_eq (hdrain .pass)),
      fun k q => (exec_windowDrain core (.fail k q) s).trans (devRow_of_eq (hdrain (.fail k q)))⟩
  · exact (exec_streamComplete core s).trans (devRow_of_eq (doStreamComplete_of_finished hfin))

/-- Settles O10: each completion by its operation on the head of its queue. -/
theorem queueCompletions : Obligations.QueueCompletions := by
  intro s core d v m
  refine ⟨fun r rest hhead hdone => ?_, fun r rest hhead hstart hmove => ?_, ?_, fun t rest htake => ?_⟩
  · exact (exec_vopCompletion core s).trans (devRow_of_eq (doVopCompletion_of_done hhead hdone))
  · exact (exec_moveCompletion core s).trans (devRow_of_eq (doMoveCompletion_of_started hhead hstart hmove))
  · intro member r rest hhead hcast hstart lc got served hmember
    have hdelivery := doMcastMemberDelivery_of_member hhead hcast hstart hmember
    refine ⟨fun hruns => ?_, fun hruns hroom => ?_⟩
    · refine (exec_mcastMemberDelivery core member s).trans (devRow_of_eq ?_)
      exact hdelivery.trans (if_pos hruns)
    · refine (exec_mcastMemberDelivery core member s).trans (devRow_of_eq ?_)
      exact hdelivery.trans ((if_neg (Bool.eq_false_iff.1 hruns)).trans (if_neg (Nat.not_le_of_lt hroom)))
  · exact (exec_takeResult core s).trans (devRow_of_eq (doTakeResult_of_take htake))

/-- Settles O11: each under its own condition. -/
theorem signalAndCounterEvents : Obligations.SignalAndCounterEvents := by
  intro s
  refine ⟨fun nth g hsignal hreleased => ?_, fun die parity n hlast hall => ?_⟩
  · refine (exec_signalArrival nth s).trans (devRow_of_eq ?_)
    simp only [doSignalArrival, hsignal, hreleased, if_true]
  · refine (exec_counterBankReload die parity s).trans (devRow_of_eq ?_)
    have hreload : ((s.dev.dieCores die).all (fun i => (s.dev.lc i).overWith n)) = true := List.all_eq_true.2 hall
    simp only [doCounterBankReload, hlast, hreload, if_true]

/-! ### Repeats -/

theorem doCheckRepeat_core (d : Dev) (core : Fin 128) (obs : CheckObs) :
    doCheckRepeat d (BitVec.ofNat 16 core).toNat obs = repeatCore d core obs := by
  have hunit : (BitVec.ofNat 16 core.val).toNat = core.val := by
    rw [BitVec.toNat_ofNat]
    omega
  have hkind : core.val / 4096 = 0 := by omega
  have hindex : core.val % 4096 = core.val := by omega
  simp [doCheckRepeat, hunit, hkind, hindex]

section
variable {d : Dev} {core : Nat} (hfence : (d.core core).fenced = false) (hretire : (d.core core).retired = false)
include hfence hretire

theorem repeatCore_step {stream idx : Nat} {r : StreamRun} {x : OpenStep}
    (hpending : (d.core core).pendingRepeat = some (.step stream idx)) (hstream : findStream stream (d.core core).streams = some r)
    (hstep : findStep stream idx (d.core core).steps = some x) :
    repeatCore d core .pass = (drainOut (d.repeatPassed core idx) core r x).after core := by
  delta repeatCore
  rw [if_neg (by simp [hfence, hretire]), hpending]
  simp only [hstream, hstep]

theorem repeatCore_group {g : Nat} (hpending : (d.core core).pendingRepeat = some (.group g)) :
    repeatCore d core .pass = (((d.repeatPassed core g).updCore core (fun c =>
      { c with vecQ := updHead (fun r => { r with failGroup := none, held := false }) c.vecQ })).vpump core).after core := by
  delta repeatCore
  rw [if_neg (by simp [hfence, hretire]), hpending]

theorem repeatCore_array (hpending : (d.core core).pendingRepeat = some .array) :
    repeatCore d core .pass = (((d.repeatPassed core 0).popArray core).pump core).after core := by
  delta repeatCore
  rw [if_neg (by simp [hfence, hretire]), hpending]

end

/-- Settles O12: the repeat of a core by what its failed check stands for. -/
theorem checkRepeatPasses : Obligations.CheckRepeatPasses := by
  intro s core hfence hretire d c unit
  have hrow {g : Dev → Dev} (h : repeatCore d core .pass = g d) : exec (.checkRepeat unit .pass) s = .next (s.mapDev g) :=
    (exec_checkRepeat unit .pass s).trans (devRow_of_eq ((doCheckRepeat_core d core .pass).trans h))
  refine ⟨fun stream idx r x hpending hstream hstep => ?_, fun g hpending => ?_, fun hpending => ?_⟩
  · exact hrow (repeatCore_step hfence hretire hpending hstream hstep)
  · exact hrow (repeatCore_group hfence hretire hpending)
  · exact hrow (repeatCore_array hfence hretire hpending)

end Sys2Proof.Machine
end

section
/-! The Coma commands (chapter 5): what the command at the head of an engine's queue does once nothing holds it back and its checks
pass. The checks of a row look at the segment tables, the plan and the owner tag, which no write of the rows before it changes
(`Dev.write_checks`), so that they may be made on the state in which the command began. -/

namespace Sys2Proof.Machine

section
variable {d : Dev} {g op : Nat} {c : ComaCmd}

theorem runComa_of_ready (h : d.ComaReady g op c) {go : Dev → ComaCmd → ComaOut} {d' : Dev} {st : Byte} {n : Nat}
    (hgo : go d c = ⟨d', st, none, n⟩) : runComa d g op false go = d'.comaDone g c st none n := by
  obtain ⟨⟨rest, hhead⟩, hop, ⟨hfence, hretire⟩, hturn, hsound, hfresh⟩ := h
  simp [runComa, hhead, hop, hfence, hretire, hturn, hsound, hfresh, hgo]

theorem headFeeds_of_ready (h : d.ComaReady g op c) : d.headFeeds g = hFeed c.hdr := by
  obtain ⟨⟨rest, hhead⟩, -⟩ := h
  simp only [Dev.headFeeds, hhead]

/-! ### GATHER_ROWS and GATHER_SEQ -/

/-- One row of a copy, with its position where the command gives an operand for it. -/
def Dev.gatherRow (q : Req) (s t : View) (ob : Option View) (poison : Bool) (d : Dev) (e : (Nat × Nat) × Nat) : Dev :=
  d.write (copyRow d q.pad s t (if e.1.1 = sentinel then none else some e.1.1) e.2
    ++ (match ob with
      | some o => regionItems d q.pad o (4 * e.2) 4 e.1.2
      | none => [])) poison

theorem gatherLoop_sound {q : Req} {s t : View} {ob : Option View} {poison : Bool} {d₀ : Dev} (l : List (Nat × Nat)) :
    ∀ (i : Nat) (d : Dev), d.checks = d₀.checks →
      (∀ e ∈ l, e.1 = sentinel ∨ (e.1 < s.comaRows ∧ rowFault d₀ q s false e.1 = none)) →
      (∀ k < l.length, rowFault d₀ q t true (i + k) = none ∧ ∀ o ∈ ob, regionFault d₀ q o true (4 * (i + k)) 4 = none) →
      gatherLoop q s t ob poison l i d = ⟨(l.zipIdx i).foldl (Dev.gatherRow q s t ob poison) d, stDone, none, i + l.length⟩ := by
  induction l with
  | nil => intro i d _ _ _; rfl
  | cons e l ih =>
    intro i d hchecks hsource hdest
    obtain ⟨x, pos⟩ := e
    have hrow : ¬ (x ≠ sentinel ∧ s.comaRows ≤ x) := by
      rintro ⟨hne, hle⟩
      rcases hsource _ List.mem_cons_self with h | ⟨h, -⟩
      · exact hne h
      · exact Nat.not_le_of_lt h hle
    have hread : (if x = sentinel then none else rowFault d q s false x) = none := by
      split
      · rfl
      · next hne =>
        rcases hsource _ List.mem_cons_self with h | ⟨-, h⟩
        · exact absurd h hne
        · rw [rowFault_congr hchecks]; exact h
    obtain ⟨hwrite, hpos⟩ := hdest 0 (Nat.succ_pos _)
    have hob : ob.bind (fun o => regionFault d q o true (4 * i) 4) = none := by
      cases ob with
      | none => rfl
      | some o => exact (regionFault_congr hchecks ..).trans (hpos o rfl)
    unfold gatherLoop
    rw [if_neg hrow, hread, rowFault_congr hchecks q t true i, show rowFault d₀ q t true i = none from hwrite]
    simp only [hob]
    rw [ih (i + 1) _ ((Dev.write_checks ..).trans hchecks) (fun e he => hsource e (List.mem_cons_of_mem _ he))]
    · rw [List.zipIdx_cons, List.foldl_cons, List.length_cons, Nat.add_assoc, Nat.add_comm 1]
      rfl
    · intro k hk
      rw [Nat.add_assoc, Nat.add_comm 1]
      exact hdest (k + 1) (Nat.succ_lt_succ hk)

/-- The operand that a command gives for positions: that of GATHER_SEQ. -/
def ComaCmd.posView (c : ComaCmd) : Option View := if hOp c.hdr = 0x02 then c.opb.map viewOf else none

theorem gatherCopy_sound {l : List (Nat × Nat)} (hcount : hCount c.hdr ≠ 0) (haligned : c.aligned = true) (hrows : rowsOk c.a c.c = true)
    (hwr : ∀ o ∈ c.posView, o.wr = true) (hlist : gatherIndices d (.coma g (d.padOf c)) (g / 8) c = .ok l)
    (hsource : ∀ e ∈ l, e.1 = sentinel ∨ (e.1 < c.a.comaRows ∧ rowFault d (.coma g (d.padOf c)) c.a false e.1 = none))
    (hdest : ∀ i < l.length, rowFault d (.coma g (d.padOf c)) c.c true i = none
      ∧ ∀ o ∈ c.posView, regionFault d (.coma g (d.padOf c)) o true (4 * i) 4 = none) :
    gatherCopy g d c = ⟨l.zipIdx.foldl (Dev.gatherRow (.coma g (d.padOf c)) c.a c.c c.posView (d.touch (gatherAddrs d g c l)).2)
      (d.touch (gatherAddrs d g c l)).1, stDone, none, l.length⟩ := by
  have hob : (match c.posView with
      | some o => !o.wr
      | none => false) = false := by
    cases hpos : c.posView with
    | none => rfl
    | some o => simp [hwr o hpos]
  have hloop := gatherLoop_sound (q := .coma g (d.padOf c)) (s := c.a) (t := c.c) (ob := c.posView)
    (poison := (d.touch (gatherAddrs d g c l)).2) l 0 (d.touch (gatherAddrs d g c l)).1 (Dev.touch_checks ..) hsource
    (by simpa only [Nat.zero_add] using hdest)
  rw [Nat.zero_add] at hloop
  rw [gatherCopy, if_neg hcount, if_neg]
  · simp only [hlist]
    exact hloop
  · rw [haligned, hrows]
    exact Bool.eq_false_iff.1 hob

theorem formFeed_of_ready (h : d.ComaReady g op c) {f : FeedRun} (hfeed : (d.coma g).feed = some f) (hnew : f.formed = false) :
    let core := 32 * (g / 8) + 24 + g % 8
    formFeed d g false
      = (feedOut (feedIn (d.updComa g (fun e => { e with feed := some { f with formed := true } })) core) core).after core := by
  obtain ⟨⟨rest, hhead⟩, -, ⟨hfence, hretire⟩, -, -, hfresh⟩ := h
  simp [formFeed, hhead, hfeed, hnew, hfence, hretire, hfresh]

/-- GATHER_ROWS and GATHER_SEQ form a FEED command, and copy for any other. -/
theorem doGatherRows_of_ready (h : d.ComaReady g 0x01 c) :
    doGatherRows d g false = if hFeed c.hdr then formFeed d g false else runComa d g 0x01 false (gatherCopy g) := by
  rw [doGatherRows, headFeeds_of_ready h]
  obtain ⟨⟨rest, hhead⟩, hop, -⟩ := h
  simp only [hhead, hop, if_true]

theorem doGatherSeq_of_ready (h : d.ComaReady g 0x02 c) :
    doGatherSeq d g false = if hFeed c.hdr then formFeed d g false else runComa d g 0x02 false (gatherCopy g) := by
  rw [doGatherSeq, headFeeds_of_ready h]
  obtain ⟨⟨rest, hhead⟩, hop, -⟩ := h
  simp only [hhead, hop, if_true]

end

/-- Settles O13: the copy by `gatherLoop_sound`, the FEED command by `formFeed`. -/
theorem gatherCommands : Obligations.GatherCommands := by
  intro s g c d q ob
  refine ⟨?copy, ?feed⟩
  case copy =>
    intro l hfeed hcount haligned hrows hwr hlist hsource hdest x row done
    have hgo := gatherCopy_sound hcount haligned hrows hwr hlist hsource hdest
    refine ⟨fun h => ?_, fun h => ?_⟩
    · refine (exec_gatherRows g false s).trans (devRow_of_eq ?_)
      rw [doGatherRows_of_ready h, if_neg (Bool.eq_false_iff.1 hfeed)]
      exact runComa_of_ready h hgo
    · refine (exec_gatherSeq g false s).trans (devRow_of_eq ?_)
      rw [doGatherSeq_of_ready h, if_neg (Bool.eq_false_iff.1 hfeed)]
      exact runComa_of_ready h hgo
  case feed =>
    intro f hfeed hrun hnew core fed
    refine ⟨fun h => ?_, fun h => ?_⟩
    · refine (exec_gatherRows g false s).trans (devRow_of_eq ?_)
      rw [doGatherRows_of_ready h, if_pos hfeed]
      exact formFeed_of_ready h hrun hnew
    · refine (exec_gatherSeq g false s).trans (devRow_of_eq ?_)
      rw [doGatherSeq_of_ready h, if_pos hfeed]
      exact formFeed_of_ready h hrun hnew

/-! ### SCATTER_ROWS, SCATTER_SLOT and SLOTSUM -/

/-- One row of SCATTER_ROWS: a sentinel writes nothing. -/
def Dev.scatterRow (q : Req) (s t : View) (poison : Bool) (d : Dev) (e : (Nat × Nat) × Nat) : Dev :=
  if e.1.1 = sentinel then d else d.write (copyRow d q.pad s t (some e.2) e.1.1) poison

theorem scatterLoop_sound {q : Req} {s t : View} {poison : Bool} {d₀ : Dev} (l : List (Nat × Nat)) :
    ∀ (i : Nat) (d : Dev), d.checks = d₀.checks → (∀ k < l.length, rowFault d₀ q s false (i + k) = none) →
      (∀ e ∈ l, e.1 ≠ sentinel → rowFault d₀ q t true e.1 = none) →
      scatterLoop q s t poison l i d = ⟨(l.zipIdx i).foldl (Dev.scatterRow q s t poison) d, stDone, none, i + l.length⟩ := by
  induction l with
  | nil => intro i d _ _ _; rfl
  | cons e l ih =>
    intro i d hchecks hsource hdest
    obtain ⟨x, y⟩ := e
    have hsource' : ∀ k < l.length, rowFault d₀ q s false (i + 1 + k) = none := by
      intro k hk
      rw [Nat.add_assoc, Nat.add_comm 1]
      exact hsource (k + 1) (Nat.succ_lt_succ hk)
    have hdest' : ∀ e ∈ l, e.1 ≠ sentinel → rowFault d₀ q t true e.1 = none := fun e he => hdest e (List.mem_cons_of_mem _ he)
    unfold scatterLoop
    rw [List.zipIdx_cons, List.foldl_cons, List.length_cons, Nat.add_comm l.length, ← Nat.add_assoc]
    by_cases hx : x = sentinel
    · rw [if_pos hx, ih (i + 1) d hchecks hsource' hdest', Dev.scatterRow, if_pos hx]
    · rw [if_neg hx, rowFault_congr hchecks, rowFault_congr hchecks, show rowFault d₀ q s false i = none from hsource 0 (Nat.succ_pos _),
        show rowFault d₀ q t true x = none from hdest (x, y) List.mem_cons_self hx]
      dsimp only
      rw [ih (i + 1) _ ((Dev.write_checks ..).trans hchecks) hsource' hdest', Dev.scatterRow, if_neg hx]

/-- One row of SCATTER_SLOT: the source row times its gate. -/
def Dev.slotRow (q : Req) (s t : View) (poison : Bool) (d : Dev) (e : (Nat × Nat) × Nat) : Dev :=
  d.write (storeVals d q.pad t (realVals t ((List.range s.comaLen).map (fun k => (slotPos k (e.1.2 / 2 ^ 29 % 8) e.1.1,
    f32 (mulF32 (BitVec.ofNat 32 (e.1.2 / 2 ^ 32)) (BitVec.ofNat 32 (readPos d q.pad s (s.comaPos e.2 k)).1))))))).1 poison

theorem slotLoop_sound {q : Req} {s t : View} {poison : Bool} {d₀ : Dev} (l : List (Nat × Nat)) :
    ∀ (i : Nat) (d : Dev), d.checks = d₀.checks → (∀ k < l.length, rowFault d₀ q s false (i + k) = none) →
      (∀ e ∈ l, rowFault d₀ q t true e.1 = none) →
      slotLoop q s t poison l i d = ⟨(l.zipIdx i).foldl (Dev.slotRow q s t poison) d, stDone, none, i + l.length⟩ := by
  induction l with
  | nil => intro i d _ _ _; rfl
  | cons e l ih =>
    intro i d hchecks hsource hdest
    obtain ⟨tok, y⟩ := e
    have hsource' : ∀ k < l.length, rowFault d₀ q s false (i + 1 + k) = none := by
      intro k hk
      rw [Nat.add_assoc, Nat.add_comm 1]
      exact hsource (k + 1) (Nat.succ_lt_succ hk)
    unfold slotLoop
    rw [rowFault_congr hchecks, rowFault_congr hchecks, show rowFault d₀ q s false i = none from hsource 0 (Nat.succ_pos _),
      show rowFault d₀ q t true tok = none from hdest (tok, y) List.mem_cons_self]
    dsimp only
    rw [ih (i + 1) _ ((Dev.write_checks ..).trans hchecks) hsource' (fun e he => hdest e (List.mem_cons_of_mem _ he)), List.zipIdx_cons,
      List.foldl_cons, List.length_cons, Nat.add_comm l.length, ← Nat.add_assoc]
    rfl

/-- One row of SLOTSUM: the sums of the row's slots, which are then cleared. -/
def Dev.slotsumRow (q : Req) (s t : View) (slots : Nat) (poison : Bool) (d : Dev) (i : Nat) : Dev :=
  let d' := d.write (storeVals d q.pad t (realVals t ((List.range t.comaLen).map (fun k =>
    (t.comaPos i k, f32 (slotSumAt d q.pad s slots i k)))))).1 poison
  d'.write (storeVals d' q.pad s (realVals s ((List.range slots).map (fun j =>
    (List.range s.inner).map (fun k => (slotPos k j i, FVal.fin false 0 0)))).flatten)).1 poison

theorem slotsumLoop_sound {q : Req} {s t : View} {slots : Nat} {poison : Bool} {d₀ : Dev} (n : Nat) :
    ∀ (i : Nat) (d : Dev), d.checks = d₀.checks →
      (∀ k < n, rowFault d₀ q s true (i + k) = none ∧ rowFault d₀ q t true (i + k) = none) →
      slotsumLoop q s t slots poison n i d
        = ⟨(List.range' i n).foldl (Dev.slotsumRow q s t slots poison) d, stDone, none, i + n⟩ := by
  induction n with
  | zero => intro i d _ _; rfl
  | succ n ih =>
    intro i d hchecks hrows
    obtain ⟨hread, hwrite⟩ := hrows 0 (Nat.succ_pos _)
    rw [slotsumLoop, rowFault_congr hchecks, rowFault_congr hchecks, show rowFault d₀ q s true i = none from hread,
      show rowFault d₀ q t true i = none from hwrite]
    dsimp only
    rw [ih (i + 1) _ ((Dev.write_checks ..).trans ((Dev.write_checks ..).trans hchecks)), List.range'_succ, List.foldl_cons,
      Nat.add_comm n, ← Nat.add_assoc]
    · rfl
    · intro k hk
      rw [Nat.add_assoc, Nat.add_comm 1]
      exact hrows (k + 1) (Nat.succ_lt_succ hk)

section
variable {d : Dev} {g : Nat} {c : ComaCmd} {l : List (Nat × Nat)} (hcount : hCount c.hdr ≠ 0) (haligned : c.aligned = true)
include hcount haligned

theorem scatterRows_sound (hrows : rowsOk c.a c.c = true) (hlist : readList d (.coma g (d.padOf c)) c.b c.hdr = .ok l)
    (hsound : offending [] (l.map (fun e => (e.1, decide (c.c.comaRows ≤ e.1)))) = none)
    (hsource : ∀ i < l.length, rowFault d (.coma g (d.padOf c)) c.a false i = none)
    (hdest : ∀ e ∈ l, e.1 ≠ sentinel → rowFault d (.coma g (d.padOf c)) c.c true e.1 = none) :
    let q : Req := .coma g (d.padOf c)
    let x := d.touch (listAddrs d q.pad c.b c.hdr ++ rowsAddrs d q.pad c.a l.length)
    scatterRows g d c = ⟨l.zipIdx.foldl (Dev.scatterRow q c.a c.c x.2) x.1, stDone, none, l.length⟩ := by
  intro q x
  have hloop := scatterLoop_sound (poison := x.2) l 0 x.1 (Dev.touch_checks ..) (by simpa only [Nat.zero_add] using hsource) hdest
  rw [Nat.zero_add] at hloop
  simp only [scatterRows, if_neg hcount, haligned, hrows, hlist, hsound]
  exact hloop

theorem scatterSlot_sound (hfmt : c.a.fmt = 0) (hlayout : c.a.layout = 0) (hbuf : slotBuf c.c (hSlots c.hdr) = true)
    (hlen : c.a.comaLen = c.c.inner) (hlist : readList d (.coma g (d.padOf c)) c.b c.hdr = .ok l)
    (hsound : offending [] (l.map (fun e =>
      (8 * e.1 + e.2 / 2 ^ 29 % 8, decide (hSlots c.hdr ≤ e.2 / 2 ^ 29 % 8) || decide (c.c.comaRows ≤ e.1)))) = none)
    (hsource : ∀ i < l.length, rowFault d (.coma g (d.padOf c)) c.a false i = none)
    (hdest : ∀ e ∈ l, rowFault d (.coma g (d.padOf c)) c.c true e.1 = none) :
    let q : Req := .coma g (d.padOf c)
    let x := d.touch (listAddrs d q.pad c.b c.hdr ++ rowsAddrs d q.pad c.a l.length)
    scatterSlot g d c = ⟨l.zipIdx.foldl (Dev.slotRow q c.a c.c x.2) x.1, stDone, none, l.length⟩ := by
  intro q x
  have hloop := slotLoop_sound (poison := x.2) l 0 x.1 (Dev.touch_checks ..) (by simpa only [Nat.zero_add] using hsource) hdest
  rw [Nat.zero_add] at hloop
  have hform : (!c.aligned || c.a.fmt != 0 || c.a.layout != 0 || !slotBuf c.c (hSlots c.hdr) || c.a.comaLen != c.c.inner) = false := by
    simp [haligned, hfmt, hlayout, hbuf, hlen]
  simp only [scatterSlot, if_neg hcount, hform, hlist, hsound]
  exact hloop

theorem slotsumCmd_sound (hbuf : slotBuf c.a (hSlots c.hdr) = true) (hlayout : c.c.layout = 0) (hwr : c.c.wr = true)
    (hlen : c.c.comaLen = c.a.inner) (hfits : hCount c.hdr ≤ c.a.comaRows)
    (hrows : ∀ i < hCount c.hdr, rowFault d (.coma g (d.padOf c)) c.a true i = none ∧ rowFault d (.coma g (d.padOf c)) c.c true i = none) :
    let q : Req := .coma g (d.padOf c)
    let x := d.touch (rowsAddrs d q.pad c.a (hCount c.hdr))
    slotsumCmd g d c = ⟨(List.range (hCount c.hdr)).foldl (Dev.slotsumRow q c.a c.c (hSlots c.hdr) x.2) x.1, stDone, none, hCount c.hdr⟩ := by
  intro q x
  have hloop := slotsumLoop_sound (slots := hSlots c.hdr) (poison := x.2) (hCount c.hdr) 0 x.1 (Dev.touch_checks ..)
    (by simpa only [Nat.zero_add] using hrows)
  rw [Nat.zero_add, ← List.range_eq_range'] at hloop
  have hform : (!c.aligned || !slotBuf c.a (hSlots c.hdr) || c.c.layout != 0 || !c.c.wr || c.c.comaLen != c.a.inner
      || decide (c.a.comaRows < hCount c.hdr)) = false := by
    simp [haligned, hbuf, hlayout, hwr, hlen, hfits]
  simp only [slotsumCmd, if_neg hcount, hform]
  exact hloop

end

/-- Settles O14: each command by its loop over a sound list. -/
theorem scatterCommands : Obligations.ScatterCommands := by
  intro s g c hcount haligned d h q done
  refine ⟨?rows, ?slot, ?sum⟩
  case rows =>
    intro l hready hrows hlist hsound hsource hdest x row
    exact (exec_scatterRows g false s).trans (devRow_of_eq (runComa_of_ready hready
      (scatterRows_sound hcount haligned hrows hlist hsound hsource hdest)))
  case slot =>
    intro l hready hfmt hlayout hbuf hlen hlist hsound hsource hdest x gate row
    exact (exec_scatterSlot g false s).trans (devRow_of_eq (runComa_of_ready hready
      (scatterSlot_sound hcount haligned hfmt hlayout hbuf hlen hlist hsound hsource hdest)))
  case sum =>
    intro hready hbuf hlayout hwr hlen hfits hrows x put row
    exact (exec_slotsum g false s).trans (devRow_of_eq (runComa_of_ready hready
      (slotsumCmd_sound hcount haligned hbuf hlayout hwr hlen hfits hrows)))

end Sys2Proof.Machine
end

section
/-! The Coma commands on columns, routes, tables and audits (chapter 5): what each answers when its checks pass. -/

namespace Sys2Proof.Machine

section
variable {d : Dev} {g : Nat} {c : ComaCmd}

/-! ### GATHER_COLS, SCATTER_COLS and ROUTE -/

/-- What GATHER_COLS asks of its operands (R165). -/
structure ComaCmd.GatherColsOk (c : ComaCmd) : Prop where
  some_ : hCount c.hdr ≠ 0
  aligned : c.aligned = true
  fmt : c.a.fmt = c.c.fmt
  layout : c.a.layout = c.c.layout
  noSplit : c.a.layout ≠ 1
  rank : c.a.rank = 2 ∧ c.c.rank = 2
  wr : c.c.wr = true
  cols : hCount c.hdr ≤ (c.a.dims.getD 1 ⟨1, 0, 0, 0⟩).view
  inner : c.a.inner = c.c.inner

theorem ComaCmd.GatherColsOk.form (h : c.GatherColsOk) :
    (!c.aligned || c.a.fmt != c.c.fmt || c.a.layout != c.c.layout || c.a.layout == 1 || c.a.rank != 2 || c.c.rank != 2 || !c.c.wr
      || decide ((c.a.dims.getD 1 ⟨1, 0, 0, 0⟩).view < hCount c.hdr) || c.a.inner != c.c.inner) = false := by
  obtain ⟨-, haligned, hfmt, hlayout, hsplit, ⟨hranka, hrankc⟩, hwr, hcols, hinner⟩ := h
  have hcols' : decide ((c.a.dims.getD 1 ⟨1, 0, 0, 0⟩).view < hCount c.hdr) = false := decide_eq_false (Nat.not_lt.2 hcols)
  have hsplit' : (c.a.layout == 1) = false := beq_false_of_ne hsplit
  rw [hcols', hsplit', haligned, hranka, hrankc, hwr, ← hfmt, ← hlayout, ← hinner]
  simp

/-- The selection, the source and the destination pass the segment tables. -/
structure Dev.ColsReach (d : Dev) (q : Req) (c : ComaCmd) : Prop where
  sel : regionFault d q c.b false 0 ((hCount c.hdr + 7) / 8) = none
  source : viewFault d q c.a false = none
  dest : viewFault d q c.c true = none

theorem gatherCols_native (hform : c.GatherColsOk) (hreach : d.ColsReach (.coma g (d.padOf c)) c) (hnative : c.a.layout ≠ 2) :
    let q : Req := .coma g (d.padOf c)
    let sel := selection d q.pad c.b (hCount c.hdr)
    let x := d.touch (selAddrs d q.pad c.b (hCount c.hdr) ++ (sel.map (fun n =>
      ((List.range c.a.comaLen).map (fun j => readAddrs d q.pad c.a (c.a.comaPos n j))).flatten)).flatten)
    gatherCols g d c = ⟨x.1.write ((List.range ((sel.length + 511) / 512 * 512)).map (fun j => copyRow x.1 q.pad c.a c.c sel[j]? j)).flatten x.2,
      stDone, none, sel.length⟩ := by
  intro q sel x
  obtain ⟨hsel, hsource, hdest⟩ := hreach
  rw [gatherCols, if_neg hform.some_, if_neg]
  · simp only [hsel, hsource, hdest, if_neg hnative]
    rfl
  · exact Bool.eq_false_iff.1 hform.form

theorem gatherCols_compressed (hform : c.GatherColsOk) (hreach : d.ColsReach (.coma g (d.padOf c)) c) (htiles : c.a.layout = 2) :
    let q : Req := .coma g (d.padOf c)
    let sel := selection d q.pad c.b (hCount c.hdr)
    let x := d.touch (selAddrs d q.pad c.b (hCount c.hdr) ++ (sel.map (fun n => tileColAddrs d q.pad c.a n c.a.inner)).flatten)
    packSound d q.pad c.a sel = true → (packTiles x.1 q.pad c.a c.c sel).1 = true →
    gatherCols g d c = ⟨x.1.write (packTiles x.1 q.pad c.a c.c sel).2 x.2, stDone, none, sel.length⟩ := by
  intro q sel x hsound hfits
  obtain ⟨hsel, hsource, hdest⟩ := hreach
  rw [gatherCols, if_neg hform.some_, if_neg]
  · simp only [hsel, hsource, hdest, if_pos htiles]
    exact (if_neg (by rw [Bool.not_eq_true', Bool.not_eq_false]; exact hsound)).trans (if_pos hfits)
  · exact Bool.eq_false_iff.1 hform.form

theorem scatterCols_sound (hcount : hCount c.hdr ≠ 0) (haligned : c.aligned = true) (hfmt : c.a.fmt = 0) (hsource : c.a.layout = 0)
    (hdest : c.c.layout = 0) (hwr : c.c.wr = true) (hrows : c.a.rows = c.c.rows) (hcols : hCount c.hdr ≤ c.c.inner)
    (hreach : d.ColsReach (.coma g (d.padOf c)) c) :
    let q : Req := .coma g (d.padOf c)
    let sel := selection d q.pad c.b (hCount c.hdr)
    let x := d.touch (selAddrs d q.pad c.b (hCount c.hdr) ++ ((List.range c.a.rows).map (fun m =>
      ((List.range sel.length).map (fun j => readAddrs d q.pad c.a (c.a.posOf m j))).flatten)).flatten)
    let vals := ((List.range c.c.rows).map (fun m => (List.range (hCount c.hdr)).map (fun n =>
      (c.c.posOf m n, if selected x.1 q.pad c.b n then
        f32 (BitVec.ofNat 32 (readPos x.1 q.pad c.a (c.a.posOf m (sel.filter (· < n)).length)).1) else FVal.fin false 0 0)))).flatten
    scatterCols g d c = ⟨x.1.write (storeVals x.1 q.pad c.c (realVals c.c vals)).1 x.2, stDone, none, sel.length⟩ := by
  intro q sel x vals
  obtain ⟨hsel, hread, hwrite⟩ := hreach
  rw [scatterCols, if_neg hcount, if_neg]
  · simp only [hsel, hread, hwrite]
    rfl
  · simp [haligned, hfmt, hsource, hdest, hwr, hrows, hcols]

/-- What ROUTE asks of its header and operands (R160, R161). -/
structure Dev.RouteOk (d : Dev) (c : ComaCmd) : Prop where
  some_ : hCount c.hdr ≠ 0
  aligned : c.aligned = true
  experts : 1 ≤ hExperts c.hdr ∧ hExperts c.hdr ≤ 256
  topk : 1 ≤ hTopk c.hdr ∧ hTopk c.hdr ≤ 8 ∧ hTopk c.hdr ≤ hExperts c.hdr
  capacity : 1 ≤ hCapacity c.hdr
  scores : c.a.fmt = 0 ∧ c.a.layout = 0 ∧ c.a.inner = hExperts c.hdr ∧ hCount c.hdr ≤ c.a.rows
  lists : hExperts c.hdr * routeStride (hCapacity c.hdr) ≤ viewBytes d c.c
  wr : c.c.wr = true

theorem routeCmd_sound (hform : d.RouteOk c) (hread : viewFault d (.coma g (d.padOf c)) c.a false = none)
    (hwrite : regionFault d (.coma g (d.padOf c)) c.c true 0 (hExperts c.hdr * routeStride (hCapacity c.hdr)) = none) :
    let q : Req := .coma g (d.padOf c)
    let x := d.touch (((List.range (hCount c.hdr)).map (fun i =>
      ((List.range (hExperts c.hdr)).map (fun e => readAddrs d q.pad c.a (c.a.posOf i e))).flatten)).flatten)
    let r := makeClaims (hCapacity c.hdr) (routeClaims x.1 q.pad c.a c.hdr) (Bank.const [], Bank.const 0)
    let drops := r.2.cells.foldl (fun a k => a + k.2) 0
    routeCmd g d c = ⟨(x.1.write (routeItems x.1 q.pad c.c (hCapacity c.hdr) r (hExperts c.hdr)) x.2).updComa g (fun e =>
      { e with routeDrops := satAdd 0xFFFFFFFF e.routeDrops drops }), if drops = 0 then stDone else stSkips, none,
        r.1.cells.foldl (fun a k => a + k.2.length) 0⟩ := by
  intro q x r drops
  obtain ⟨hcount, haligned, ⟨hexp, hexp'⟩, ⟨htop, htop', hle⟩, hcap, ⟨hfmt, hlayout, hinner, hrows⟩, hlists, hwr⟩ := hform
  rw [routeCmd, if_neg hcount, if_neg]
  · simp only [hread, hwrite]
    rfl
  · simp [haligned, hfmt, hlayout, hinner, hwr]
    omega

/-! ### SEQLOAD, MERGE_BIND and MERGE_UNBIND -/

theorem seqloadCmd_sound (haligned : c.aligned = true) (hread : regionFault d (.coma g (d.padOf c)) c.a false 0 32768 = none) :
    let q : Req := .coma g (d.padOf c)
    let x := d.touch (regionAddrs d q.pad c.a 0 32768)
    let l := (List.range 2048).map (fun i => BitVec.ofNat 128 (regionNum x.1 q.pad c.a (16 * i) 16))
    seqBad l = false →
    seqloadCmd g d c = ⟨x.1.updDie (g / 8) (fun k => { k with seqTable := (Bank.const 0).putList 0 l }), stDone, none, 2048⟩ := by
  intro q x l hsound
  rw [seqloadCmd, if_neg (by simp [haligned])]
  simp only [hread]
  exact if_neg (Bool.eq_false_iff.1 hsound)

theorem mergeBind_sound (hroom : (d.coma g).bindings.length < 4) (hstore : storeUsed (d.coma g).bindings + 2 * hShare c.hdr ≤ 131072)
    (hshare : hShare c.hdr ≤ 65536)
    (honce : ∀ j < 8, ∀ b ∈ (d.coma (8 * (g / 8) + j)).bindings, b.core ≠ d.boundCore (g / 8) c.hdr) :
    mergeBind g d c = ⟨d.updComa g (fun e => { e with bindings := e.bindings ++ [⟨d.boundCore (g / 8) c.hdr, hShare c.hdr, none, none⟩] }),
      stDone, none, 0⟩ := by
  have htwice : ((List.range 8).any (fun j => (d.coma (8 * (g / 8) + j)).bindings.any (fun b => b.core == d.boundCore (g / 8) c.hdr)))
      = false := by
    simpa using honce
  have hfits : ¬ (4 ≤ (d.coma g).bindings.length ∨ 131072 < storeUsed (d.coma g).bindings + 2 * hShare c.hdr ∨ 65536 < hShare c.hdr
      ∨ false = true) := by
    simp only [Bool.false_eq_true, or_false]
    omega
  rw [mergeBind, htwice]
  exact if_neg hfits

theorem doMergeUnbind_of_ready (h : d.ComaReady g 0x22 c) (hquiet : (d.core (d.boundCore (g / 8) c.hdr)).steps = []) :
    doMergeUnbind d g false = (d.updComa g (fun e => { e with
      bindings := e.bindings.filter (fun b => b.core != d.boundCore (g / 8) c.hdr) })).comaDone g c stDone none 0 := by
  obtain ⟨rest, hhead⟩ := h.head
  simp only [doMergeUnbind, hhead, hquiet]
  exact runComa_of_ready h rfl

/-! ### AUDIT and AUDIT_CLOSE -/

/-- The parameter block of an audit command is read and sound (R171). -/
structure Dev.AuditParamsOk (d : Dev) (q : Req) (c : ComaCmd) : Prop where
  reach : paramFault d q false (hParam c.hdr) 64 = none
  place : hParam c.hdr % 64 = 0
  unreserved : (auditParams d (hParam c.hdr)).reserved = false
  shift : (auditParams d (hParam c.hdr)).shift ≤ 16

theorem auditCmd_disabled (h : d.AuditParamsOk (.coma g (d.padOf c)) c) (hoff : (auditParams d (hParam c.hdr)).enabled = false) :
    auditCmd g d c = ⟨d, stDone, none, 0⟩ := by
  obtain ⟨hreach, hplace, hunres, hshift⟩ := h
  simp only [auditCmd, hreach]
  rw [if_neg (by simp [hplace, hunres, hshift]), if_pos (by simp [hoff])]

theorem auditClose_disabled (h : d.AuditParamsOk (.coma g (d.padOf c)) c) (hoff : (auditParams d (hParam c.hdr)).enabled = false) :
    auditClose g d c = ⟨d, stDone, none, 0⟩ := by
  obtain ⟨hreach, hplace, hunres, hshift⟩ := h
  simp only [auditClose, hreach]
  rw [if_neg (by simp [hplace, hunres, hshift]), if_pos (by simp [hoff])]

/-- What AUDIT asks of its operands (R171). -/
structure ComaCmd.AuditOk (c : ComaCmd) (p : AuditParams) (last : Nat) : Prop where
  aligned : c.aligned = true
  kinds : isScaled c.a.fmt = true ∧ isScaled c.c.fmt = true ∨ is16 c.a.fmt = true ∧ is16 c.c.fmt = true
  noSplit : c.a.layout ≠ 1
  native : c.c.layout = 0
  cols : last ≤ (c.a.dims.getD 1 ⟨1, 0, 0, 0⟩).view
  pass : p.passRows ≠ 3 ∧ (c.a.layout = 2 ↔ p.passRows = 2)
  chunk : p.chunkRows % p.rows = 0

theorem ComaCmd.AuditOk.form {p : AuditParams} {last : Nat} (h : c.AuditOk p last) :
    (!c.aligned || !((isScaled c.a.fmt && isScaled c.c.fmt) || (is16 c.a.fmt && is16 c.c.fmt)) || c.a.layout == 1 || c.c.layout != 0
      || decide ((c.a.dims.getD 1 ⟨1, 0, 0, 0⟩).view < last) || p.passRows == 3 || (c.a.layout == 2) != (p.passRows == 2)
      || p.chunkRows % p.rows != 0) = false := by
  obtain ⟨haligned, hkinds, hsplit, hnative, hcols, ⟨hpass, hlayout⟩, hchunk⟩ := h
  have hsame : ((c.a.layout == 2) != (p.passRows == 2)) = false := by simp [hlayout]
  have hcols' : decide ((c.a.dims.getD 1 ⟨1, 0, 0, 0⟩).view < last) = false := decide_eq_false (Nat.not_lt.2 hcols)
  have hsplit' : (c.a.layout == 1) = false := beq_false_of_ne hsplit
  have hpass' : (p.passRows == 3) = false := beq_false_of_ne hpass
  have hkinds' : ((isScaled c.a.fmt && isScaled c.c.fmt) || (is16 c.a.fmt && is16 c.c.fmt)) = true := by
    simpa only [Bool.or_eq_true, Bool.and_eq_true] using hkinds
  rw [hcols', hsplit', hpass', hsame, hkinds', haligned, hnative, hchunk]
  rfl

theorem auditCmd_enabled (h : d.AuditParamsOk (.coma g (d.padOf c)) c) (hon : (auditParams d (hParam c.hdr)).enabled = true) :
    let q : Req := .coma g (d.padOf c)
    let p := auditParams d (hParam c.hdr)
    let last := hColFirst c.hdr + hColCount c.hdr
    c.AuditOk p last → viewFault d q c.a false = none → viewFault d q c.c false = none →
    regionFault d q c.b false 0 ((last + 7) / 8) = none → (∀ r ∈ auditRuns p c.a.inner last, paramFault d q false r.1 r.2 = none) →
    let cols := (List.range (hColCount c.hdr)).map (hColFirst c.hdr + ·)
    let hit := cols.filter (fun n => !selected d q.pad c.b n && p.sampled n)
    let t := (d.touch (paramAddrs (hParam c.hdr) 64 ++ selAddrs d q.pad c.b last ++ (hit.map (fun n =>
      ((List.range c.c.rows).map (fun m => dotAddrs d q.pad c.a c.c n m c.a.inner)).flatten)).flatten)).1
    let counts := cols.map (auditColumn t q.pad p c.b c.a c.c)
    auditCmd g d c = ⟨(t.updDie (g / 8) (fun k => { k with
      slots := counts.foldl (fun b n => b.upd (hAuditSlot c.hdr) (·.add n)) k.slots })).updComa g (fun e => { e with
        auditPairs := satAdd 0xFFFFFFFF e.auditPairs ((counts.map (·.2.2.1)).foldl (· + ·) 0)
        auditHits := satAdd 0xFFFFFFFF e.auditHits ((counts.map (·.2.2.2.1)).foldl (· + ·) 0) }), stDone, none, hit.length⟩ := by
  intro q p last hform hw hx hsel hruns cols hit t counts
  obtain ⟨hreach, hplace, hunres, hshift⟩ := h
  have hparams : (auditRuns p c.a.inner last).findSome? (fun r => paramFault d q false r.1 r.2) = none := List.findSome?_eq_none_iff.2 hruns
  simp only [auditCmd, hreach]
  rw [if_neg (by simp [hplace, hunres, hshift]), if_neg (by simp [hon]), if_neg (Bool.eq_false_iff.1 hform.form)]
  simp only [q, p, last] at hw hx hsel hparams
  simp only [hw, hx, hsel, hparams]
  rfl

theorem auditClose_enabled (h : d.AuditParamsOk (.coma g (d.padOf c)) c) (hon : (auditParams d (hParam c.hdr)).enabled = true)
    (hplace : (auditParams d (hParam c.hdr)).record % 32 = 0)
    (hwrite : paramFault d (.coma g (d.padOf c)) true (auditParams d (hParam c.hdr)).record 32 = none) :
    let p := auditParams d (hParam c.hdr)
    let t := d.touch (paramAddrs (hParam c.hdr) 64)
    let d' := t.1.write (wBytes (t1Base + p.record) 32 (auditRecord p (slotTotal t.1 (hAuditSlot c.hdr)) c.who.orbit)) t.2
    auditClose g d c = ⟨(List.range 4).foldl (fun d k => d.updDie k (fun k =>
      { k with slots := k.slots.set (hAuditSlot c.hdr) AuditSlot.zero })) d', stDone, none, 1⟩ := by
  intro p t d'
  obtain ⟨hreach, hparam, hunres, hshift⟩ := h
  simp only [auditClose, hreach]
  rw [if_neg (by simp [hparam, hunres, hshift]), if_neg (by simp [hon]), if_neg (by simp [hplace])]
  simp only [hwrite]
  rfl

end

/-- Settles O15: each command by its checks and what it then writes. -/
theorem columnAndRouteCommands : Obligations.ColumnAndRouteCommands := by
  intro s g c hcount haligned d h q sel done
  refine ⟨?gather, ?scatter, ?route⟩
  case gather =>
    intro hready hfmt hlayout hsplit hranka hrankc hwr hcols hinner hsel hsource hdest
    have hform : c.GatherColsOk := ⟨hcount, haligned, hfmt, hlayout, hsplit, ⟨hranka, hrankc⟩, hwr, hcols, hinner⟩
    have hrow {d' : Dev} {n : Nat} (hgo : gatherCols g d c = ⟨d', stDone, none, n⟩) :
        exec (.gatherCols g false) s = .next (done d' stDone n) :=
      (exec_gatherCols g false s).trans (devRow_of_eq (runComa_of_ready hready hgo))
    refine ⟨fun hnative => ?_, fun htiles hsound => ?_⟩
    · exact hrow (gatherCols_native hform ⟨hsel, hsource, hdest⟩ hnative)
    · exact fun hfits => hrow (gatherCols_compressed hform ⟨hsel, hsource, hdest⟩ htiles hsound hfits)
  case scatter =>
    intro hready hfmt hsource hdest hwr hrows hcols hsel hread hwrite
    exact (exec_scatterCols g false s).trans (devRow_of_eq (runComa_of_ready hready
      (scatterCols_sound hcount haligned hfmt hsource hdest hwr hrows hcols ⟨hsel, hread, hwrite⟩)))
  case route =>
    intro hready hexp hexp' htop htop' hcap hle hfmt hlayout hinner hrows hlists hwr hread hwrite
    exact (exec_route g false s).trans (devRow_of_eq (runComa_of_ready hready
      (routeCmd_sound ⟨hcount, haligned, ⟨hexp, hexp'⟩, ⟨htop, htop', hle⟩, hcap, ⟨hfmt, hlayout, hinner, hrows⟩, hlists, hwr⟩ hread hwrite)))

/-- Settles O16: each command by its checks and the table or the bindings that it leaves. -/
theorem tableCommands : Obligations.TableCommands := by
  intro s g c d q e p done x l
  refine ⟨fun hready haligned hread hsound => ?_, fun hready hroom hstore hshare honce => ?_, fun hready hquiet => ?_⟩
  · exact (exec_seqload g false s).trans (devRow_of_eq (runComa_of_ready hready (seqloadCmd_sound haligned hread hsound)))
  · exact (exec_mergeBind g false s).trans (devRow_of_eq (runComa_of_ready hready (mergeBind_sound hroom hstore hshare honce)))
  · exact (exec_mergeUnbind g false s).trans (devRow_of_eq (doMergeUnbind_of_ready hready hquiet))

/-- Settles O17: each command by its parameter block. -/
theorem auditCommands : Obligations.AuditCommands := by
  intro s g c d h q a p w x last done hreach hplace hunres hshift
  have hparams : d.AuditParamsOk (.coma g (d.padOf c)) c := ⟨hreach, hplace, hunres, hshift⟩
  have haudit {d' : Dev} {n : Nat} (hready : d.ComaReady g 0x24 c) (hgo : auditCmd g d c = ⟨d', stDone, none, n⟩) :
      exec (.audit g false) s = .next (done d' n) := (exec_audit g false s).trans (devRow_of_eq (runComa_of_ready hready hgo))
  have hclose {d' : Dev} {n : Nat} (hready : d.ComaReady g 0x25 c) (hgo : auditClose g d c = ⟨d', stDone, none, n⟩) :
      exec (.auditClose g false) s = .next (done d' n) := (exec_auditClose g false s).trans (devRow_of_eq (runComa_of_ready hready hgo))
  refine ⟨fun hready => ⟨fun hoff => haudit hready (auditCmd_disabled hparams hoff), ?_⟩,
    fun hready => ⟨fun hoff => hclose hready (auditClose_disabled hparams hoff), fun hon hrecord hwrite => ?_⟩⟩
  · intro hon haligned hkinds hsplit hnative hcols hpass hlayout hchunk hw hx hsel hruns
    have hform : c.AuditOk p last := ⟨haligned, hkinds, hsplit, hnative, hcols, ⟨hpass, hlayout⟩, hchunk⟩
    exact haudit hready (auditCmd_enabled hparams hon hform hw hx hsel hruns)
  · exact hclose hready (auditClose_enabled hparams hon hrecord hwrite)

end Sys2Proof.Machine
end

section
/-! The memory-side units (chapter 12): the start of a list, pass 1, the multiplier and pass 2 when their checks pass. -/

namespace Sys2Proof.Machine

section
variable {d : Dev} {u c : Nat}

theorem Dev.updMsu_updMsu (d : Dev) (u : Nat) (f g : Msu → Msu) : (d.updMsu u f).updMsu u g = d.updMsu u (fun m => g (f m)) := by
  simp [Dev.updMsu]

/-- A memory-side unit whose work goes on: neither fenced nor done for the orbit. -/
structure Dev.MsuRuns (d : Dev) (u : Nat) : Prop where
  unfenced : (d.msu u).fenced = false
  alive : (d.msu u).dead = false

theorem doMsuListStart_of_runs (h : d.MsuRuns u) {sem : Nat} (hcount : (d.msuList u sem).count ≠ 0)
    (hran : (d.msu u).ran.get sem = false)
    (hthreshold : (d.msuList u sem).threshold ≤ ((d.msu u).sems.get (msuSemKey (d.msu u).orbit sem)).toNat) :
    doMsuListStart d u sem = d.updMsu u (fun m => { m with
      ran := m.ran.set sem true, phase := if m.phase = 0 then 1 else m.phase
      runs := m.runs ++ [⟨sem, (d.msuList u sem).first, (d.msuList u sem).count⟩] }) := by
  have halive : (d.msus.get u).dead = false := h.alive
  have hgate : ((d.msu u).fenced || (d.msuList u sem).count == 0 || (d.msu u).ran.get sem
      || decide (((d.msu u).sems.get (msuSemKey (d.msu u).orbit sem)).toNat < (d.msuList u sem).threshold)) = false := by
    simp [h.unfenced, hcount, hran, hthreshold]
  simp [doMsuListStart, hgate, Dev.updMsu, halive]

/-! ### Pass 1 -/

/-- The gradient and the write targets of a command pass the segment tables. -/
structure Dev.UpdReach (d : Dev) (u c : Nat) : Prop where
  targets : firstRunFault d (.msu u) true (d.updOps (d.ucmd c)).targets = none
  gradient : firstRunFault d (.msu u) false [(d.updOps (d.ucmd c)).g] = none

/-- The state after the reads of pass 1: a poisoned one votes the orbit void (R393). -/
def Dev.afterPass1Reads (d : Dev) (u c : Nat) : Dev :=
  let t := d.touch (d.pass1Addrs u c (d.updOps (d.ucmd c)) (d.visited (d.updOps (d.ucmd c))))
  if t.2 then (t.1.updMsu u (fun m => { m with voids := true })).voteVoid (t.1.msu u).orbit rsPoison (unitMsu u) 0 else t.1

theorem pass1_thawed (h : d.UpdReach u c) (q : Nat) (hthawed : frozenFault d (d.updOps (d.ucmd c)).targets = none) :
    let o := d.updOps (d.ucmd c)
    let p := (d.touch (d.pass1Addrs u c o (d.visited o))).2
    let d1 := d.afterPass1Reads u c
    let x := d1.partials u c o (d.visited o)
    let a := d1.normAddr u c
    d.pass1 u q c = ((d1.write (wBytes (a + 16) 8 x.1.toNat ++ wBytes (a + 24) 8 x.2.1.toNat ++ wBytes (a + 32) 8 x.2.2.toNat
        ++ (if ueRule (d1.ucmd c) = 3 then d1.factorSums a o else [])) p).updMsu u (fun m => { m with
          parts := ((m.parts.set (3 * c) x.1).set (3 * c + 1) x.2.1).set (3 * c + 2) x.2.2, passed := m.passed ++ [c] })).msuDone u q c stDone := by
  intro o p d1 x a
  obtain ⟨htargets, hgradient⟩ := h
  simp only [Dev.pass1, htargets, hgradient, hthawed, Dev.putPartials, Dev.updMsu_updMsu]
  rfl

theorem pass1_frozen (h : d.UpdReach u c) (q : Nat) (hfrozen : (frozenFault d (d.updOps (d.ucmd c)).targets).isSome = true)
    (hlax : d.msuPlan.strict = false) :
    let a := d.normAddr u c
    d.pass1 u q c = ((d.write (wBytes (a + 16) 8 0 ++ wBytes (a + 24) 8 0 ++ wBytes (a + 32) 8 0) false).updMsu u (fun m => { m with
        parts := ((m.parts.set (3 * c) 0).set (3 * c + 1) 0).set (3 * c + 2) 0
        skips := satAdd 0xFFFFFFFF m.skips (d.visited (d.updOps (d.ucmd c))).length, skipped := m.skipped.set c true
        passed := m.passed ++ [c] })).msuDone u q c stDone := by
  intro a
  obtain ⟨htargets, hgradient⟩ := h
  obtain ⟨f, hf⟩ := Option.isSome_iff_exists.1 hfrozen
  simp only [Dev.pass1, htargets, hgradient, hf, hlax, Bool.false_eq_true, if_false, Dev.putPartials, Dev.updMsu_updMsu,
    List.append_nil]
  rfl

/-- The head command of the update engine runs pass 1, and the module's record follows where it is the last (R373). -/
theorem runUpdate_of_runs (h : d.MsuRuns u) (hopen : (d.msu u).pass2 = []) (hfirst : (d.msu u).repeatUpd = false) {op q : Nat}
    (hhead : d.headCmd op (d.msu u).runs = some (q, c)) : runUpdate d u op false = (d.pass1 u q c).tryOwnRec := by
  simp [runUpdate, hhead, h.unfenced, h.alive, hopen, hfirst]

/-! ### The stream multiplier -/

/-- What SMUL asks of its operands (R395, R396). -/
structure Dev.SmulOk (d : Dev) (u c : Nat) : Prop where
  shape : smulBad (d.listView (ueWDesc (d.ucmd c))) (d.listView (ueGDesc (d.ucmd c))) (d.listView (ueMaster (d.ucmd c)))
    (ueNFirst (d.ucmd c)) (ueNCount (d.ucmd c)) (ueAcc (d.ucmd c)) = false
  sources : firstRunFault d (.msu u) false [d.listView (ueWDesc (d.ucmd c)), d.listView (ueGDesc (d.ucmd c))] = none
  dest : firstRunFault d (.msu u) true [d.listView (ueMaster (d.ucmd c))] = none
  thawed : frozenFault d [d.listView (ueMaster (d.ucmd c))] = none
  some_ : ¬ ((d.listView (ueWDesc (d.ucmd c))).inner = 0 ∧ ueAcc (d.ucmd c) = true)

theorem smulCmd_of_ok (h : d.SmulOk u c) :
    let e := d.ucmd c
    let w := d.listView (ueWDesc e)
    let x := d.listView (ueGDesc e)
    let y := d.listView (ueMaster e)
    let kt := (w.inner + (if w.layout = 2 then 512 else 128) - 1) / (if w.layout = 2 then 512 else 128)
    let ns := (List.range (ueNCount e)).map (ueNFirst e + ·)
    let t := d.touch (((List.range x.rows).map (fun v => (ns.map (fun n => dotAddrs d 0 w x n v w.inner
      ++ (if ueAcc e then readAddrs d 0 y (y.posOf v n) else []))).flatten)).flatten)
    let vals := ((List.range x.rows).map (fun v => ns.map (fun n => (y.posOf v n, smulValue t.1 w x y e n v)))).flatten
    (kt ≠ 0 → paramFault d (.msu u) false (ueTscale e) (8 * kt * ((ueNFirst e + ueNCount e + 511) / 512)) = none) →
    smulCmd d u c = (t.1.write (storeVals t.1 0 y (realVals y vals)).1 t.2, stDone) := by
  intro e w x y kt ns t vals hparams
  obtain ⟨hshape, hsources, hdest, hthawed, hsome⟩ := h
  have hparams' : (if kt = 0 then none
      else paramFault d (.msu u) false (ueTscale e) (8 * kt * ((ueNFirst e + ueNCount e + 511) / 512))) = none := by
    split
    · rfl
    · exact hparams ‹_›
  simp only [smulCmd, hshape, Bool.false_eq_true, if_false, hsources, hdest, hthawed]
  rw [hparams']
  exact if_neg hsome

theorem doSmul_of_runs (h : d.MsuRuns u) (hfirst : (d.msu u).repeatMul = false) {q : Nat}
    (hhead : d.headCmd opSmul (d.msu u).runs = some (q, c)) {d' : Dev} (hdone : smulCmd d u c = (d', stDone)) :
    doSmul d u false = (d'.msuDone u q c stDone).sendCmdSig c (d.msu u).orbit 0 := by
  have hgoes : stopsLc stDone = false := rfl
  simp [doSmul, hhead, h.unfenced, h.alive, hfirst, hdone, hgoes]

/-! ### Pass 2 -/

/-- Pass 2 runs the next patch of its head command (R392). -/
theorem doUpdatePass2_of_open {rest : List Nat} {r : OrbitRun} (hfence : (d.msu u).fenced = false)
    (hfirst : (d.msu u).repeatUpd = false) (hopen : (d.msu u).pass2 = c :: rest) (hrun : findRun (d.msu u).p2Orbit d.runs = some r) :
    doUpdatePass2 d u false = d.runPatch u c r := by
  simp [doUpdatePass2, hopen, hrun, hfence, hfirst]

theorem runPatch_skipped (r : OrbitRun) (h : (d.msu u).skipped.get c = true) : d.runPatch u c r = d.endPass2 u c := by
  simp [Dev.runPatch, h]

/-- The state after the writes of a patch and its counts. -/
def Dev.afterPatch (d : Dev) (u c : Nat) (r : OrbitRun) : Dev :=
  let m := d.msu u
  let o := d.updOps (d.ucmd c)
  let x := d.patchOut u c m.patch o (d.updConst u c d.clip r.stepValue)
  let t := d.touch (d.patchAddrs u c o x.vals)
  let d1 := (t.1.patchWrites o x t.2).updMsu u (fun m => { m with
    patch := m.patch + 1, cmd := c, retries := satAdd 0xFFFF m.retries x.retries
    fallbacks := satAdd 0xFFFF m.fallbacks (if x.fallback then 1 else 0), fallback := m.fallback || x.fallback })
  if x.fallback then { d1 with runs := updRun r.num (fun r => { r with fallbacks := r.fallbacks + 1 }) d1.runs } else d1

/-- Patches that a command has. -/
def Dev.patchTotal (d : Dev) (c : Nat) : Nat :=
  patchCount (d.updOps (d.ucmd c)) (ueRule (d.ucmd c)) (rbBlock (d.msuPlan.rules.get (ueBlock (d.ucmd c))))

theorem runPatch_of_run (r : OrbitRun) (h : (d.msu u).skipped.get c = false) :
    d.runPatch u c r = if d.patchTotal c ≤ (d.msu u).patch + 1 then
      ((d.afterPatch u c r).putState u c (d.updConst u c d.clip r.stepValue)).endPass2 u c else d.afterPatch u c r := by
  simp only [Dev.runPatch, h, Bool.false_eq_true, if_false]
  rfl

end

/-- Settles O18: a list starts, pass 1 and the multiplier run their head command, each by its lemma above. -/
theorem memorySideUnitCommands : Obligations.MemorySideUnitCommands := by
  unfold Obligations.MemorySideUnitCommands
  intro s u sem q c hfence halive
  have hruns : s.dev.MsuRuns u := ⟨hfence, halive⟩
  intro d m req e l
  refine ⟨fun hcount hran hthreshold => (exec_msuListStart u sem s).trans (devRow_of_eq ?_), fun hopen hfirst => ?_,
    fun hhead hfirst => ?_⟩
  · exact doMsuListStart_of_runs hruns hcount hran hthreshold
  · intro o a htargets hgradient
    have hreach : s.dev.UpdReach u c := ⟨htargets, hgradient⟩
    refine ⟨fun hthawed => ?_, fun hfrozen hlax => ?_⟩
    · have hpass := congrArg Dev.tryOwnRec (pass1_thawed hreach q hthawed)
      exact ⟨fun hhead => (exec_update u false s).trans (devRow_of_eq ((runUpdate_of_runs hruns hopen hfirst hhead).trans hpass)),
        fun hhead => (exec_updateVec u false s).trans (devRow_of_eq ((runUpdate_of_runs hruns hopen hfirst hhead).trans hpass))⟩
    · have hpass := congrArg Dev.tryOwnRec (pass1_frozen hreach q hfrozen hlax)
      exact ⟨fun hhead => (exec_update u false s).trans (devRow_of_eq ((runUpdate_of_runs hruns hopen hfirst hhead).trans hpass)),
        fun hhead => (exec_updateVec u false s).trans (devRow_of_eq ((runUpdate_of_runs hruns hopen hfirst hhead).trans hpass))⟩
  · intro w x y cnt kt hshape hsources hdest hthawed hparams hsome ns t vals
    have hok : s.dev.SmulOk u c := ⟨hshape, hsources, hdest, hthawed, hsome⟩
    exact (exec_smul u false s).trans (devRow_of_eq (doSmul_of_runs hruns hfirst hhead (smulCmd_of_ok hok hparams)))

/-- Settles O19: pass 2 runs one patch of its head command, which ends it, goes on, or was skipped in pass 1. -/
theorem updatePassTwo : Obligations.UpdatePassTwo := by
  unfold Obligations.UpdatePassTwo
  intro s u c rest r hfence hfirst hopen hrun
  have hrow : doUpdatePass2 s.dev u false = s.dev.runPatch u c r := doUpdatePass2_of_open hfence hfirst hopen hrun
  refine ⟨fun hskip => ?_, fun hskip hmore => ?_, fun hskip hlast => ?_⟩ <;>
    refine (exec_updatePass2 u false s).trans (devRow_of_eq (hrow.trans ?_))
  · exact runPatch_skipped r hskip
  · exact (runPatch_of_run r hskip).trans (if_neg (Nat.not_le.2 hmore))
  · exact (runPatch_of_run r hskip).trans (if_pos hlast)

end Sys2Proof.Machine
end

section
/-! Poisoned control values (R226): what a stop leaves on its core and in its orbit, and that an instruction whose control registers
are poisoned stops before it issues. -/

namespace Sys2Proof.Machine

section
variable {d : Dev} {core n : Nat}

/-! ### The next logical core of a core leaves the runs and the core's stop flags -/

theorem takeHeld_cores (d : Dev) (core lc : Nat) : (d.takeHeld core lc).cores = d.cores := by
  unfold Dev.takeHeld
  dsimp only
  split <;> rfl

theorem takeHeld_runs (d : Dev) (core lc : Nat) : (d.takeHeld core lc).runs = d.runs := by
  unfold Dev.takeHeld
  dsimp only
  split <;> rfl

theorem startFresh_core (d : Dev) (core lc : Nat) :
    ((d.startFresh core lc).core core).poisonCtrl = (d.core core).poisonCtrl
      ∧ ((d.startFresh core lc).core core).stopCode = (d.core core).stopCode := by
  simp [Dev.startFresh, Dev.updLc, Dev.core, Dev.updCore, takeHeld_cores]

theorem restoreLc_core (d : Dev) (core lc : Nat) :
    ((d.restoreLc core lc).core core).poisonCtrl = (d.core core).poisonCtrl
      ∧ ((d.restoreLc core lc).core core).stopCode = (d.core core).stopCode := by
  simp [Dev.restoreLc, Dev.core, Dev.updCore, takeHeld_cores, loadCore]

theorem startFresh_runs (d : Dev) (core lc : Nat) : (d.startFresh core lc).runs = d.runs := by
  rw [← takeHeld_runs d core lc]
  rfl

theorem restoreLc_runs (d : Dev) (core lc : Nat) : (d.restoreLc core lc).runs = d.runs := by
  simp [Dev.restoreLc, takeHeld_runs]

/-- A core that looks for work takes none, starts a logical core, or restores one. -/
theorem schedule_cases (d : Dev) (core : Nat) :
    d.schedule core = d ∨ ∃ n, d.schedule core = d.startFresh core n ∨ d.schedule core = d.restoreLc core n := by
  unfold Dev.schedule
  dsimp only
  split
  · exact .inl rfl
  · split
    · exact .inl rfl
    · next n hn =>
      split
      · exact .inr ⟨n, .inl rfl⟩
      · split
        · exact .inr ⟨n, .inr rfl⟩
        · exact .inl rfl

theorem schedule_core (d : Dev) (core : Nat) :
    ((d.schedule core).core core).poisonCtrl = (d.core core).poisonCtrl ∧ ((d.schedule core).core core).stopCode = (d.core core).stopCode := by
  obtain h | ⟨n, h | h⟩ := schedule_cases d core <;> rw [h]
  · exact ⟨rfl, rfl⟩
  · exact startFresh_core d core n
  · exact restoreLc_core d core n

theorem schedule_runs (d : Dev) (core : Nat) : (d.schedule core).runs = d.runs := by
  obtain h | ⟨n, h | h⟩ := schedule_cases d core <;> rw [h]
  · exact startFresh_runs d core n
  · exact restoreLc_runs d core n

/-! ### Votes to void -/

theorem findRun_updRun {f : OrbitRun → OrbitRun} (hnum : ∀ r, (f r).num = r.num) (hcompleted : ∀ r, (f r).completed = r.completed)
    (n : Nat) (l : List OrbitRun) : findRun n (updRun n f l) = (findRun n l).map f := by
  induction l with
  | nil => rfl
  | cons r rs ih =>
    rw [updRun, findRun]
    split
    · next h => rw [findRun, if_pos (by rwa [hnum, hcompleted])]; rfl
    · next h => rw [findRun, if_neg h, ih]

theorem findRun_spec {l : List OrbitRun} {r : OrbitRun} (h : findRun n l = some r) : r.num = n ∧ r.completed = false := by
  induction l with
  | nil => cases h
  | cons x xs ih =>
    rw [findRun] at h
    split at h
    · next hx => cases h; simpa using hx
    · exact ih h

theorem findRun_updRun_const {l : List OrbitRun} {r r' : OrbitRun} (h : findRun n l = some r) (hnum : r'.num = n)
    (hopen : r'.completed = false) : findRun n (updRun n (fun _ => r') l) = some r' := by
  induction l with
  | nil => cases h
  | cons x xs ih =>
    rw [findRun] at h
    rw [updRun]
    split at h
    · next hx => rw [if_pos hx, findRun, if_pos (by simp [hnum, hopen])]
    · next hx => rw [if_neg hx, findRun, if_neg hx, ih h]

theorem pushErr_runs (d : Dev) (type status unit kind where_ residue : Nat) :
    (d.pushErr type status unit kind where_ residue).runs = d.runs := by
  unfold Dev.pushErr
  dsimp only
  split <;> rfl

/-- The run of an orbit after a vote to void it: the first reason keeps its unit and status (R472), and one that has passed a closed
vote has its status at the end (R487). -/
def OrbitRun.voidedFor (r : OrbitRun) (bit unit status : Nat) : OrbitRun :=
  { r with
    reason := setBits r.reason bit bit 1
    reasonUnit := if r.reason = 0 then unit else r.reasonUnit
    reasonStatus := if r.reason = 0 then status else r.reasonStatus
    persistent := if r.closed && r.passed then some (r.persistent.getD 0x21) else r.persistent }

theorem voteVoid_runs {r : OrbitRun} (h : findRun n d.runs = some r) (bit unit status : Nat) :
    (d.voteVoid n bit unit status).runs = updRun n (fun _ => r.voidedFor bit unit status) d.runs := by
  have hrun : (if (r.closed && r.passed) = true then { r.voidedFor bit unit status with persistent := some (r.persistent.getD 0x21) }
      else { r.voidedFor bit unit status with persistent := r.persistent }) = r.voidedFor bit unit status := by
    unfold OrbitRun.voidedFor
    split <;> rfl
  rw [← hrun]
  simp only [Dev.voteVoid, h, apply_ite Dev.runs, pushErr_runs, ite_self]
  rfl

/-- A vote to void sets its reason in the run of its orbit (R472). -/
theorem findRun_voteVoid {r : OrbitRun} (h : findRun n d.runs = some r) (bit unit status : Nat) :
    findRun n (d.voteVoid n bit unit status).runs = some (r.voidedFor bit unit status) := by
  obtain ⟨hnum, hopen⟩ := findRun_spec h
  rw [voteVoid_runs h]
  exact findRun_updRun_const h hnum hopen

theorem pushErr_cores (d : Dev) (type status unit kind where_ residue : Nat) :
    (d.pushErr type status unit kind where_ residue).cores = d.cores := by
  unfold Dev.pushErr
  dsimp only
  split <;> rfl

theorem voteVoid_cores (d : Dev) (n bit unit status : Nat) : (d.voteVoid n bit unit status).cores = d.cores := by
  unfold Dev.voteVoid
  split
  · rfl
  · simp only [apply_ite Dev.cores, pushErr_cores, ite_self]

theorem noteStop_cores (d : Dev) (n code lc : Nat) : (d.noteStop n code lc).cores = d.cores := rfl

theorem findRun_noteStop (d : Dev) (n code lc : Nat) :
    findRun n (d.noteStop n code lc).runs = (findRun n d.runs).map (fun r => { r with stop := some (r.stop.getD (code, lc)) }) :=
  findRun_updRun (f := fun r => { r with stop := some (r.stop.getD (code, lc)) }) (fun _ => rfl) (fun _ => rfl) n d.runs

/-! ### A stop -/

/-- A core whose logical core stops with a code. -/
def Core.stoppedBy (c : Core) (lc : Nat) (code : Byte) : Core :=
  let mine := c.lc == lc && c.occupied
  let c := if mine then c.dropWork lc else c
  { c with stopCode := code, fault := true, occupied := c.occupied && !mine }

theorem Core.stoppedBy_flags (c : Core) (lc : Nat) (code : Byte) :
    (c.stoppedBy lc code).poisonCtrl = c.poisonCtrl ∧ (c.stoppedBy lc code).stopCode = code := by
  unfold Core.stoppedBy
  dsimp only
  split <;> exact ⟨rfl, rfl⟩

/-- The state between the end of a stopped logical core and its core's next one. -/
def Dev.stopping (d : Dev) (lc : Nat) (code : Byte) (unit : Nat) : Dev :=
  let core := (d.lc lc).phys
  let d1 := (d.noteStop (d.lc lc).orbit code.toNat lc).voteVoid (d.lc lc).orbit rsStopped unit code.toNat
  let d2 := { d1 with signals := d1.signals.filter (fun g => match g.src with
    | some w => w.lc != lc || (d1.core core).allDone lc w.seq
    | none => true) }
  (d2.updLc lc (·.endOrbit (.stopped code))).updCore core (·.stoppedBy lc code)

theorem stopLc_of_running {lc : Nat} (h : (d.lc lc).phase = .running) (code : Byte) (unit : Nat) :
    d.stopLc lc code unit = (d.stopping lc code unit).schedule (d.lc lc).phys := by
  unfold Dev.stopLc
  simp only [h, Bool.false_eq_true, if_false]
  rfl

theorem stopLc_core {lc : Nat} (h : (d.lc lc).phase = .running) (hphys : (d.lc lc).phys = core) (code : Byte) (unit : Nat) :
    ((d.stopLc lc code unit).core core).poisonCtrl = (d.core core).poisonCtrl ∧ ((d.stopLc lc code unit).core core).stopCode = code := by
  have hcore : (d.stopping lc code unit).core core = (d.core core).stoppedBy lc code := by
    simp [Dev.stopping, hphys, Dev.core, Dev.updCore, Dev.updLc, voteVoid_cores, noteStop_cores]
  rw [stopLc_of_running h, hphys, (schedule_core _ core).1, (schedule_core _ core).2, hcore]
  exact Core.stoppedBy_flags _ lc code

/-- A stop votes its orbit void with REASON STOPPED (R228). -/
theorem stopLc_reason {lc : Nat} (h : (d.lc lc).phase = .running) {r : OrbitRun} (hrun : findRun (d.lc lc).orbit d.runs = some r)
    (code : Byte) (unit : Nat) : ∃ r', findRun (d.lc lc).orbit (d.stopLc lc code unit).runs = some r' ∧ bitOf r'.reason rsStopped = true := by
  have hnoted := findRun_noteStop d (d.lc lc).orbit code.toNat lc
  rw [hrun] at hnoted
  have hruns : (d.stopLc lc code unit).runs
      = ((d.noteStop (d.lc lc).orbit code.toNat lc).voteVoid (d.lc lc).orbit rsStopped unit code.toNat).runs := by
    rw [stopLc_of_running h, schedule_runs]
    rfl
  exact ⟨_, (congrArg (findRun _) hruns).trans (findRun_voteVoid hnoted rsStopped unit code.toNat),
    bitOf_setBits_same _ rsStopped true (by decide)⟩

/-! ### A poisoned control register -/

/-- What stops an instruction on its control registers: a runner whose word and registers are there, and a register in a role of R226
that is poisoned. -/
structure Dev.ControlPoisoned (d : Dev) (core n : Nat) (w : IWord) (ctl : List Nat) (r : Nat) : Prop where
  runner : d.runner core = some n
  takes : (d.core core).takes = []
  moves : (d.core core).moveQ = []
  once : d.ms.flip1.get (imemFlip core (d.lc n).pc) = false
  word : d.ms.flip2.get (imemFlip core (d.lc n).pc) = false
  poison : (d.lc n).sPoison.get r = true
  role : r ∈ ctl ∨ (r ∈ flowRegs w ∧ wDsts w = [])

theorem issue_poisoned {w : IWord} {ctl : List Nat} {r : Nat} (h : d.ControlPoisoned core n w ctl r) (regs : List Nat) {wait : Bool}
    (hwait : wait = false) (late : Bool) (run : Dev → Issuer → Dev) :
    d.issue core w regs ctl wait late run = (d.stopPoisoned n).settle core := by
  obtain ⟨hrunner, htakes, hmoves, honce, hword, hpoison, hrole⟩ := h
  have hfree : (d.core core).interlocked (regs ++ flowRegs w) = false := by simp [Core.interlocked, htakes, hmoves]
  have hany : ((ctl ++ (flowRegs w).filter (fun r => !(wDsts w).contains r)).any (fun r => (d.lc n).sPoison.get r)) = true := by
    refine List.any_eq_true.2 ⟨r, ?_, hpoison⟩
    obtain hctl | ⟨hflow, hdst⟩ := hrole
    · exact List.mem_append_left _ hctl
    · exact List.mem_append_right _ (by simp [hflow, hdst])
  simp only [Dev.issue, hrunner, hfree, hwait, hword, Bool.or_self, Bool.false_eq_true, if_false, Dev.fetched, honce, hany, if_true]

end

/-- Settles O52: each instruction names the poisoned register in a role of R226, and the stop leaves its code, flag and reason. -/
theorem poisonedControl : Obligations.PoisonedControl := by
  unfold Obligations.PoisonedControl
  intro s core n w r hrunner htakes hmoves honce hword hpoison hphys d stopped queueStopped
  have hcontrol : ∀ ctl, (r ∈ ctl ∨ (r ∈ flowRegs w ∧ wDsts w = [])) → s.dev.ControlPoisoned core n w ctl r :=
    fun ctl hrole => ⟨hrunner, htakes, hmoves, honce, hword, hpoison, hrole⟩
  obtain ⟨-, -, hrunning⟩ := runner_on hrunner
  have hroom : (s.dev.core core).arrayQ.length < 8 → decide (8 ≤ (s.dev.core core).arrayQ.length) = false :=
    fun h => decide_eq_false (Nat.not_le.2 h)
  refine ⟨fun hop hq hr => ?_, fun hop hr => ?_, fun hop hinc hr => ?_, fun hop hcnt hr => ?_, fun hop hq hr => ?_, ?_, ?_,
    fun run hrun => ?_⟩
  · rw [exec_stream, coreRow_next (beq_iff_eq.2 hop)]
    exact devRow_of_eq (by rw [doStream, issue_poisoned (hcontrol _ (.inl (by simp [hr]))) _ (hroom hq)])
  · rw [exec_dmake, coreRow_next (beq_iff_eq.2 hop)]
    exact devRow_of_eq (by rw [doDmake, issue_poisoned (hcontrol _ (.inl hr)) _ rfl])
  · rw [exec_signal, coreRow_next (beq_iff_eq.2 hop)]
    exact devRow_of_eq (by rw [doSignal, issue_poisoned (hcontrol _ (.inl (by simp [hinc, hr]))) _ rfl])
  · rw [exec_wait, coreRow_next (beq_iff_eq.2 hop)]
    exact devRow_of_eq (by rw [doWait, issue_poisoned (hcontrol _ (.inl (by simp [hcnt, hr]))) _ rfl])
  · rw [exec_wswap, coreRow_next (beq_iff_eq.2 hop)]
    have hdst : wDsts w = [] := by rw [wDsts, hop]; rfl
    exact devRow_of_eq (by rw [doWswap, issue_poisoned (hcontrol _ (.inr ⟨hr, hdst⟩)) _ (hroom hq)])
  · refine (stopLc_core (d := s.dev.updCore (s.dev.lc n).phys _) hrunning hphys _ _).1.trans ?_
    rw [hphys, updCore_core]
  · exact (stopLc_core (d := s.dev.updCore (s.dev.lc n).phys _) hrunning hphys _ _).2
  · exact stopLc_reason (d := s.dev.updCore (s.dev.lc n).phys _) hrunning hrun _ _

end Sys2Proof.Machine
end

section
/-! The links and the transfers (chapter 13): link states, the start of a SEND, the frames of a tick, and how a transfer ends. -/

namespace Sys2Proof.Machine

section
variable {s : State} {link : Nat}

theorem modRow_of_eq {f : State → State} {t : State} (h : f s = t) : modRow s f = .next t := congrArg Host.Outcome.next h

/-! ### Link states -/

theorem updLink_congr {f g : Link → Link} (h : f (s.link link) = g (s.link link)) : s.updLink link f = s.updLink link g := by
  simp only [State.updLink, show f (s.fab.links.get link) = g (s.fab.links.get link) from h]

theorem updLink_link (f : Link → Link) : (s.updLink link f).link link = f (s.link link) := Bank.get_set_same ..

theorem updLink_link_ne {k : Nat} (h : k ≠ link) (f : Link → Link) : (s.updLink link f).link k = s.link k := Bank.get_set_ne _ h _

/-- A link that trains: its training may end either way (R404). -/
structure State.Trains (s : State) (link : Nat) : Prop where
  open_ : (s.link link).state ≠ 2 ∧ (s.link link).state ≠ 3
  free : (s.link link).stuck = false
  unfenced : (s.link link).fenced = false
  ready : s.pwr.ready = true

theorem State.Trains.gate (h : s.Trains link) : ¬ ((s.link link).state = 2 ∨ (s.link link).state = 3 ∨ (s.link link).stuck = true
    ∨ (s.link link).fenced = true ∨ (!s.pwr.ready) = true) := by
  obtain ⟨⟨hup, hfailed⟩, hfree, hfence, hready⟩ := h
  simp [hup, hfailed, hfree, hfence, hready]

theorem doLinkUp_of_trains (h : s.Trains link) (rtt : BitVec 8) :
    doLinkUp s link rtt = (s.updLink link (fun l => { l with
      state := 2, trainFails := 0, rtt := rtt.toNat, credits := 512, owed := 0, nakOut := [], marked := true })).event := by
  rw [doLinkUp, if_neg h.gate]

theorem doLinkTrainingFail_early (h : s.Trains link) (hfew : (s.link link).trainFails < 2) :
    doLinkTrainingFail s link = s.updLink link (fun l => { l with trainFails := l.trainFails + 1, state := 1 }) := by
  have hstate : ¬ 3 ≤ (s.link link).trainFails + 1 := by omega
  rw [doLinkTrainingFail, if_neg h.gate, if_neg hstate]
  exact updLink_congr (by rw [if_neg hstate])

theorem doLinkTrainingFail_third (h : s.Trains link) (hmany : 2 ≤ (s.link link).trainFails) :
    doLinkTrainingFail s link = (s.updLink link (fun l => { l with trainFails := l.trainFails + 1, state := 3 })).event := by
  have hstate : 3 ≤ (s.link link).trainFails + 1 := by omega
  rw [doLinkTrainingFail, if_neg h.gate, if_pos hstate]
  exact congrArg State.event (updLink_congr (by rw [if_pos hstate]))

/-- The state after an UP link has lost lock, its time tree included (R413, R425). -/
def State.linkLost (s : State) (link : Nat) : State :=
  let down := s.updLink link (fun l => { l with state := 0, stuck := s.dev.orbitRuns, marked := false, nakOut := [] })
  { down with fab := { down.fab with
      tb := if s.fab.tb.parent = link ∧ s.fab.tb.state = 1 then { s.fab.tb with state := 0, good := 0 } else s.fab.tb } }

theorem linkLost_link : (s.linkLost link).event.link link
    = { s.link link with state := 0, stuck := s.dev.orbitRuns, marked := false, nakOut := [] } := Bank.get_set_same ..

theorem linkLost_link_ne {k : Nat} (h : k ≠ link) : (s.linkLost link).event.link k = s.link k := Bank.get_set_ne _ h _

theorem linkLost_timeBase (hparent : s.fab.tb.parent = link) (hstate : s.fab.tb.state = 1) : (s.linkLost link).event.fab.tb.state = 0 := by
  simp [State.linkLost, State.event, hparent, hstate]

theorem doLinkDown_of_up (h : (s.link link).state = 2) : doLinkDown s link = (s.linkLost link).event := by
  rw [doLinkDown, if_neg (not_not.2 h), State.linkLost]
  dsimp only
  by_cases hparent : s.fab.tb.parent = link ∧ s.fab.tb.state = 1
  · rw [if_pos hparent, if_pos (by exact hparent)]
    rfl
  · rw [if_neg hparent, if_neg (by exact hparent)]
    rfl

/-- The state with the credits and corrected symbols of a header counted (R405). -/
def State.countHeader (s : State) (link : Nat) (h : FrameHeader) : State :=
  s.updLink link (fun l => { l with
    credits := min 512 (l.credits + h.credits), symbols := satAdd 0xFFFFFFFF l.symbols h.corrected
    codewords := if h.corrected = 0 then l.codewords else satAdd 0xFFFFFFFF l.codewords 1 })

theorem noteHeader_quiet {h : FrameHeader} (hnak : h.nak = none) : s.noteHeader link h = s.countHeader link h := by
  simp only [State.noteHeader, hnak]
  rfl

/-- A header that reports a frame of a transfer puts the transfer back in service (R409). -/
theorem noteHeader_nak {h : FrameHeader} {k : Nat} {r : OrbitRun} {x : Xfer} (hnak : h.nak = some k) (hrun : s.dev.curRun = some r)
    (htarget : (s.countHeader link h).nakTarget link r = some x) (hidle : x.idle = false) (hagain : x.again.get k = false)
    (hnew : x.naks.contains k = false) (hsent : k < x.next ∨ seLength ((s.countHeader link h).entry x.io x.entry) ≤ k) :
    s.noteHeader link h = (s.countHeader link h).putXfer { x with naks := insNat k x.naks, stage := .running } := by
  have hgate : (x.idle || x.again.get k || x.naks.contains k
      || decide (x.next ≤ k ∧ k < seLength ((s.countHeader link h).entry x.io x.entry))) = false := by
    simp only [hidle, hagain, hnew, Bool.or_self, Bool.false_or, decide_eq_false_iff_not]
    omega
  unfold State.countHeader at htarget hgate ⊢
  simp only [State.noteHeader, hnak, State.updLink_dev, hrun, htarget, hgate, Bool.false_eq_true, if_false]

theorem doIdleFrame_of_up (hup : (s.link link).state = 2) (hfence : (s.link link).fenced = false) (h : FrameHeader) :
    doIdleFrame s link h = s.noteHeader link h := by
  simp [doIdleFrame, hup, hfence]

end

/-- Settles O21: training, loss and the header of an idle frame, each by its lemma above. -/
theorem linkStateEvents : Obligations.LinkStateEvents := by
  unfold Obligations.LinkStateEvents
  intro s link l
  refine ⟨fun rtt hopen hfree hfence hready => ?_, fun hopen hfree hfence hready => ⟨fun hfew => ?_, fun hmany => ?_⟩, fun hup => ?_,
    fun h hup hfence => ?_⟩
  · exact (exec_linkUp link rtt s).trans (modRow_of_eq (doLinkUp_of_trains ⟨hopen, hfree, hfence, hready⟩ rtt))
  · exact (exec_linkTrainingFail link s).trans (modRow_of_eq (doLinkTrainingFail_early ⟨hopen, hfree, hfence, hready⟩ hfew))
  · exact (exec_linkTrainingFail link s).trans (modRow_of_eq (doLinkTrainingFail_third ⟨hopen, hfree, hfence, hready⟩ hmany))
  · refine ⟨(s.linkLost link).event, (exec_linkDown link s).trans (modRow_of_eq (doLinkDown_of_up hup)), ?_, ?_, ?_, fun k hk => ?_, rfl,
      fun hparent hstate => ?_, rfl⟩
    · rw [linkLost_link]
    · rw [linkLost_link]
    · rw [linkLost_link]
      rfl
    · exact linkLost_link_ne hk
    · exact linkLost_timeBase hparent hstate
  · intro noted
    have hrow := doIdleFrame_of_up hup hfence h
    exact ⟨fun hnak => (exec_idleFrame link h s).trans (modRow_of_eq (hrow.trans (noteHeader_quiet hnak))),
      fun k r x hnak hrun htarget hidle hagain hnew hsent =>
        (exec_idleFrame link h s).trans (modRow_of_eq (hrow.trans (noteHeader_nak hnak hrun htarget hidle hagain hnew hsent)))⟩

end Sys2Proof.Machine
end

section
/-! Transfers (chapter 13): the start of a SEND, the frames of a tick, a missed transfer and the release of a region. -/

namespace Sys2Proof.Machine

section
variable {s : State} {io i : Nat} {r : OrbitRun} {x : Xfer}

/-! ### The list of transfers -/

theorem xfer_is (s : State) (io i : Nat) (r : OrbitRun) : (s.xfer io i r).is io i r = true := by
  unfold State.xfer
  cases h : s.fab.xfers.find? (fun x => x.is io i r) with
  | some x => exact List.find?_some (p := fun x : Xfer => x.is io i r) h
  | none => simp [Xfer.is, Xfer.blank]

theorem is_iff : x.is io i r = true ↔ x.io = io ∧ x.entry = i ∧ x.slot = r.slot ∧ x.orbit = r.num := by
  simp [Xfer.is, and_assoc]

theorem find?_putXferIn (h : x.is io i r = true) (l : List Xfer) : (putXferIn x l).find? (fun y => y.is io i r) = some x := by
  have hx := is_iff.1 h
  induction l with
  | nil => simp [putXferIn, h]
  | cons y ys ih =>
    rw [putXferIn]
    split
    · simp [h]
    · next hy =>
      have hother : y.is io i r = false := by
        refine Bool.eq_false_iff.2 fun hsame => hy ?_
        obtain ⟨hio, hi, hslot, horbit⟩ := is_iff.1 hsame
        obtain ⟨hio', hi', hslot', horbit'⟩ := hx
        exact ⟨hio.trans hio'.symm, hi.trans hi'.symm, hslot.trans hslot'.symm, horbit.trans horbit'.symm⟩
      rw [List.find?_cons, hother]
      exact ih

theorem putXfer_xfer (h : x.is io i r = true) : (s.putXfer x).xfer io i r = x := by
  unfold State.xfer State.putXfer
  rw [find?_putXferIn h]

/-! ### A missed transfer (Table 13-8) -/

theorem pushErr_time (d : Dev) (type status unit kind where_ residue : Nat) :
    (d.pushErr type status unit kind where_ residue).time = d.time := by
  unfold Dev.pushErr
  dsimp only
  split <;> rfl

theorem voteVoid_time (d : Dev) (n bit unit status : Nat) : (d.voteVoid n bit unit status).time = d.time := by
  unfold Dev.voteVoid
  split
  · rfl
  · simp only [apply_ite Dev.time, pushErr_time, ite_self]

theorem sendSig_time (d : Dev) (w : IWord) (n : Nat) : (d.sendSig w n).time = d.time := by
  unfold Dev.sendSig
  split <;> rfl

/-- The state after the counts and the poison of a missed transfer, before its signal. -/
def State.missCounted (s : State) (io i : Nat) (r : OrbitRun) (x : Xfer) : State :=
  let e := s.entry io i
  if seRecv e then
    let s := s.updRegs io (fun g => { g with recvMissed := satAdd 0xFFFF g.recvMissed 1 })
    if seEndpoint e = 0 then s.mapDev (fun d => (d.poisonView (d.listView (seDesc e))).voteVoid r.num rsMemoryMiss (unitLink (s.linkOf io i)) 0)
    else s
  else
    let s := if x.idle then s else s.updRegs io (fun g => { g with sendMissed := satAdd 0xFFFF g.sendMissed 1 })
    if seSched e then s.updRegs io (fun g => { g with minSlack := 0, slackEntry := i, slackAlert := g.slackAlert || decide (0 < g.alertTicks) }) else s

theorem miss_eq : s.miss io i r x = (if x.signalled then s.missCounted io i r x else (s.missCounted io i r x).sendEntrySig x).putXfer
    { x with stage := .missed, held := false, signalled := true } := rfl

theorem miss_regs : (s.miss io i r x).fab.regs = (s.missCounted io i r x).fab.regs := by
  rw [miss_eq]
  split <;> rfl

theorem miss_xfer (h : x.is io i r = true) : (s.miss io i r x).xfer io i r = { x with stage := .missed, held := false, signalled := true } := by
  rw [miss_eq]
  exact putXfer_xfer h

theorem missCounted_time : (s.missCounted io i r x).dev.time = s.dev.time := by
  unfold State.missCounted
  dsimp only
  split
  · split
    · exact voteVoid_time ..
    · rfl
  · split <;> split <;> rfl

theorem miss_time : (s.miss io i r x).dev.time = s.dev.time := by
  rw [miss_eq, ← missCounted_time (s := s) (io := io) (i := i) (r := r) (x := x)]
  split
  · rfl
  · exact sendSig_time ..

theorem updRegs_regs (f : OrbRegs → OrbRegs) : (s.updRegs io f).fab.regs.get io = f (s.fab.regs.get io) := Bank.get_set_same ..

theorem missCounted_recv (h : seRecv (s.entry io i) = true) :
    ((s.missCounted io i r x).fab.regs.get io).recvMissed = satAdd 0xFFFF (s.fab.regs.get io).recvMissed 1 := by
  have hregs : (s.missCounted io i r x).fab.regs
      = (s.updRegs io (fun g => { g with recvMissed := satAdd 0xFFFF g.recvMissed 1 })).fab.regs := by
    simp only [State.missCounted, h, if_true]
    split <;> rfl
  rw [hregs, updRegs_regs]

theorem missCounted_send (h : seRecv (s.entry io i) = false) (hsent : x.idle = false) :
    ((s.missCounted io i r x).fab.regs.get io).sendMissed = satAdd 0xFFFF (s.fab.regs.get io).sendMissed 1 := by
  simp only [State.missCounted, h, hsent, Bool.false_eq_true, if_false]
  split
  · rw [updRegs_regs, updRegs_regs]
  · rw [updRegs_regs]

theorem doTransferMissed_of_open (hrun : s.dev.curRun = some r) (hactive : s.active io i = true)
    (howed : (s.xfer io i r).signalled = false ∨ seRecv (s.entry io i) = true)
    (hopen : (s.xfer io i r).stage ∈ [XStage.waiting, .running, .refused]) :
    doTransferMissed s io i = (s.advanceTo (r.start + tickT * s.missTick (s.entry io i))).miss io i r (s.xfer io i r) := by
  have hstage : ((s.xfer io i r).stage == .waiting || (s.xfer io i r).stage == .running || (s.xfer io i r).stage == .refused) = true := by
    simpa [or_assoc] using hopen
  have hdue : ((s.xfer io i r).signalled && !seRecv (s.entry io i)) = false := by
    obtain h | h := howed <;> simp [h]
  simp only [doTransferMissed, hrun, hactive, hstage, hdue, Bool.not_true, Bool.or_self, Bool.false_eq_true, if_false]

/-! ### The start of a SEND (R420, R424) -/

/-- The instant at which a SEND may start. -/
def State.atOffset (s : State) (io i : Nat) (r : OrbitRun) : State := s.advanceTo (r.start + tickT * seOffset (s.entry io i))

/-- The count that the stream of a SEND holds. -/
def State.streamCount (s : State) (io i : Nat) (r : OrbitRun) : Nat :=
  ((s.atOffset io i r).dev.streamSems.get (streamKey io r.num (seStream (s.entry io i)))).toNat

/-- The state after a SEND has taken one from its stream's semaphore. -/
def State.tookStream (s : State) (io i : Nat) (r : OrbitRun) : State :=
  (s.atOffset io i r).mapDev (fun d => { d with
    streamSems := d.streamSems.set (streamKey io r.num (seStream (s.entry io i))) (BitVec.ofNat 16 (s.streamCount io i r - 1)) })

/-- A SEND that starts: it waits, its stream has been signalled, its window has room and its link carries it. -/
structure State.SendReady (s : State) (io i : Nat) (r : OrbitRun) : Prop where
  run : s.dev.curRun = some r
  active : s.active io i = true
  send : seRecv (s.entry io i) = false
  waits : (s.xfer io i r).stage = .waiting
  signalled : s.streamCount io i r ≠ 0
  room : seSched (s.entry io i) = true → seLength (s.entry io i) + 1 + s.rttMax io
    ≤ usableBefore (seEnd (s.entry io i)) - usableBefore (((s.atOffset io i r).dev.time - r.start) / tickT)
  carried : (s.atOffset io i r).mayUse ((s.atOffset io i r).linkOf io i) = true
  first : (s.atOffset io i r).earlierWaits io i (((s.atOffset io i r).dev.time - r.start) / tickT) r = false
  unfenced : ((s.atOffset io i r).fab.regs.get io).fenced = false

theorem startSend_of_ready (h : s.SendReady io i r) (prepare : State → State) :
    startSend prepare s io i =
      (let e := s.entry io i
       let s2 := s.tookStream io i r
       let t := if seEndpoint e = 0 then s2.dev.touch (addrRun (s2.dev.frameAddr e 0) (512 * seLength e)) else (s2.dev, false)
       let s3 := prepare { s2 with dev := t.1 }
       let s4 := if t.2 then s3.updRegs io (fun g => { g with sendMissed := satAdd 0xFFFF g.sendMissed 1 }) else s3
       s4.putXfer { s.xfer io i r with
         stage := .running, idle := t.2, payload := if seEndpoint e = 0 then [] else s4.stagedPayload io i, ordinal := s4.ordinal io i }) := by
  obtain ⟨hrun, hactive, hsend, hwaits, hsignalled, hroom, hcarried, hfirst, hfence⟩ := h
  have hopen : (!s.active io i || seRecv (s.entry io i) || (s.xfer io i r).stage != .waiting) = false := by
    simp [hactive, hsend, hwaits]
  have hroom' : (!seSched (s.entry io i) || decide (seLength (s.entry io i) + 1 + s.rttMax io
      ≤ usableBefore (seEnd (s.entry io i)) - usableBefore (((s.atOffset io i r).dev.time - r.start) / tickT))) = true := by
    cases hsched : seSched (s.entry io i) with
    | false => rfl
    | true => simpa using hroom hsched
  have hsome : (s.streamCount io i r == 0) = false := beq_false_of_ne hsignalled
  have hgoes : (s.streamCount io i r == 0 || !(!seSched (s.entry io i) || decide (seLength (s.entry io i) + 1 + s.rttMax io
      ≤ usableBefore (seEnd (s.entry io i)) - usableBefore (((s.atOffset io i r).dev.time - r.start) / tickT)))
      || !(s.atOffset io i r).mayUse ((s.atOffset io i r).linkOf io i)
      || (s.atOffset io i r).earlierWaits io i (((s.atOffset io i r).dev.time - r.start) / tickT) r
      || ((s.atOffset io i r).fab.regs.get io).fenced) = false := by
    rw [hroom', hsome, hcarried, hfirst, hfence]
    rfl
  rw [startSend, hrun]
  dsimp only
  rw [hopen, if_neg Bool.false_ne_true]
  exact if_neg (Bool.eq_false_iff.1 hgoes)

/-- What the collective engine does for a stream at its start (R457): it takes the records of a CORRECT transfer. -/
def sendPrepare (io i : Nat) (s : State) : State :=
  match s.dev.curRun with
  | some r => if seEndpoint (s.entry io i) = 1 then s.prepareCorrect io i r else s
  | none => s

theorem doSendStart_eq (s : State) (io i : Nat) : doSendStart s io i = startSend (sendPrepare io i) s io i := rfl

theorem sendPrepare_other (h : seEndpoint (s.entry io i) ≠ 1) : sendPrepare io i s = s := by
  unfold sendPrepare
  split
  · rw [if_neg h]
  · rfl

theorem sendPrepare_collective (hrun : s.dev.curRun = some r) (h : seEndpoint (s.entry io i) = 1) :
    sendPrepare io i s = s.prepareCorrect io i r := by
  simp only [sendPrepare, hrun, h, if_true]

theorem doSendStart_memory (h : s.SendReady io i r) (hmem : seEndpoint (s.entry io i) = 0) :
    let t := (s.tookStream io i r).dev.touch (addrRun ((s.tookStream io i r).dev.frameAddr (s.entry io i) 0) (512 * seLength (s.entry io i)))
    t.2 = false →
    doSendStart s io i = ({ s.tookStream io i r with dev := t.1 } : State).putXfer { s.xfer io i r with
      stage := .running, idle := false, payload := [], ordinal := ({ s.tookStream io i r with dev := t.1 } : State).ordinal io i } := by
  intro t hclean
  have hprepare : sendPrepare io i { s.tookStream io i r with dev := t.1 } = { s.tookStream io i r with dev := t.1 } :=
    sendPrepare_other (by exact hmem ▸ by decide)
  rw [doSendStart_eq, startSend_of_ready h]
  dsimp only
  simp only [if_pos hmem]
  rw [show ((s.tookStream io i r).dev.touch _).2 = false from hclean, hprepare]
  rfl

theorem doSendStart_collective (h : s.SendReady io i r) (hcoll : seEndpoint (s.entry io i) = 1) :
    doSendStart s io i = ((s.tookStream io i r).prepareCorrect io i r).putXfer { s.xfer io i r with
      stage := .running, idle := false, payload := ((s.tookStream io i r).prepareCorrect io i r).stagedPayload io i
      ordinal := ((s.tookStream io i r).prepareCorrect io i r).ordinal io i } := by
  have hprepare : sendPrepare io i (s.tookStream io i r) = (s.tookStream io i r).prepareCorrect io i r :=
    sendPrepare_collective h.run hcoll
  have hother : ¬ seEndpoint (s.entry io i) = 0 := by rw [hcoll]; decide
  rw [doSendStart_eq, startSend_of_ready h]
  simp only [if_neg hother, hprepare, Bool.false_eq_true, if_false]

theorem doSendStart_norm (h : s.SendReady io i r) (hnorm : seEndpoint (s.entry io i) = 2) :
    doSendStart s io i = (s.tookStream io i r).putXfer { s.xfer io i r with
      stage := .running, idle := false, payload := (s.tookStream io i r).stagedPayload io i
      ordinal := (s.tookStream io i r).ordinal io i } := by
  have hprepare : sendPrepare io i (s.tookStream io i r) = s.tookStream io i r :=
    sendPrepare_other (by exact hnorm ▸ by decide)
  have hother : ¬ seEndpoint (s.entry io i) = 0 := by rw [hnorm]; decide
  rw [doSendStart_eq, startSend_of_ready h]
  simp only [if_neg hother, hprepare, Bool.false_eq_true, if_false]

/-! ### The ticks of a link (R405) -/

/-- A link that sends in the current tick. -/
structure State.TickOpen (s : State) (link : Nat) : Prop where
  up : (s.link link).state = 2
  unfenced : (s.link link).fenced = false
  once : (s.link link).lastTick ≠ some (s.dev.time / tickT)

theorem State.TickOpen.gate {link : Nat} (h : s.TickOpen link) : (decide ((s.link link).state ≠ 2) || (s.link link).fenced
    || (s.link link).lastTick == some (s.dev.time / tickT)) = false := by
  obtain ⟨hup, hfence, honce⟩ := h
  simp [hup, hfence, honce]

theorem doLinkTick_noRun {link : Nat} (h : s.TickOpen link) (hrun : s.dev.curRun = none) : doLinkTick s link = s.putFrame link 0 0 0 := by
  rw [doLinkTick]
  simp only [h.gate, hrun, Bool.false_eq_true, if_false]

theorem doLinkTick_idle {link tick : Nat} (h : s.TickOpen link) (hrun : s.dev.curRun = some r) (htick : r.tickAt s.dev.time 0 = some tick)
    (hidle : isUsable (s.dev.time / tickT) = false ∨ s.mayUse link = false ∨ s.sendNow link tick r = none) :
    doLinkTick s link = s.putFrame link 0 0 0 := by
  rw [doLinkTick]
  simp only [h.gate, hrun, htick, Bool.false_eq_true, if_false]
  obtain husable | hmay | hnone := hidle
  · simp only [husable, Bool.not_false, Bool.true_or, if_true]
  · simp only [hmay, Bool.not_false, Bool.or_true, Bool.true_or, if_true]
  · simp only [hnone, ite_self]

theorem doLinkTick_sends {link tick : Nat} (h : s.TickOpen link) (hrun : s.dev.curRun = some r) (htick : r.tickAt s.dev.time 0 = some tick)
    (husable : isUsable (s.dev.time / tickT) = true) (hmay : s.mayUse link = true) (hregs : (s.fab.regs.get (link / 24)).fenced = false)
    (hnow : s.sendNow link tick r = some x) : doLinkTick s link = s.sendFrame link tick r x := by
  rw [doLinkTick]
  simp only [h.gate, hrun, htick, husable, hmay, hregs, hnow, Bool.not_true, Bool.or_self, Bool.false_eq_true, if_false]

/-- Payload frame i of a transfer, encrypted under the link's sending key (R407). -/
def State.cipherFrame (s : State) (r : OrbitRun) (x : Xfer) (key : BitVec 256) (i : Nat) : BitVec 4096 :=
  s.plainFrame x i ^^^ frameStream key (s.xferIv x.io x.entry r) i

/-- The trailer's payload of a transfer. -/
def State.trailerOf (s : State) (r : OrbitRun) (x : Xfer) (key : BitVec 256) : BitVec 4096 :=
  let e := s.entry x.io x.entry
  trailerPayload (gcmTag (keyBytes key) (s.xferIv x.io x.entry r) (entryAad e)
    ((List.range (seLength e)).map (fun i => leBytes 512 (s.cipherFrame r x key i).toNat)).flatten) r.epoch e

/-- The state with a best-effort frame's credit taken (R405). -/
def State.paidFor (s : State) (link : Nat) (e : BitVec 256) : State :=
  if seSched e then s else s.updLink link (fun l => { l with credits := l.credits - 1 })

section
variable {link tick : Nat} {k : BitVec 256 × BitVec 256}

theorem sendFrame_payload (hkeys : (s.link link).keys = some k) (hmore : x.next < seLength (s.entry x.io x.entry)) :
    s.sendFrame link tick r x = ((s.paidFor link (s.entry x.io x.entry)).putFrame link
      (if seSched (s.entry x.io x.entry) then 1 else 4) x.next (s.cipherFrame r x k.1 x.next)).putXfer { x with next := x.next + 1 } := by
  cases hsched : seSched (s.entry x.io x.entry) <;>
    simp only [State.sendFrame, State.paidFor, State.cipherFrame, hkeys, hsched, if_pos hmore, Bool.not_true, Bool.not_false, if_true,
      Bool.false_eq_true, if_false]

theorem sendFrame_trailer (hkeys : (s.link link).keys = some k) (hlast : seLength (s.entry x.io x.entry) ≤ x.next)
    (htrailer : x.trailer = false) :
    let out := (s.paidFor link (s.entry x.io x.entry)).putFrame link (if seSched (s.entry x.io x.entry) then 2 else 5)
      (seLength (s.entry x.io x.entry)) (s.trailerOf r x k.1)
    s.sendFrame link tick r x
      = if x.naks.isEmpty then out.endSend { x with trailer := true } tick else out.putXfer { x with trailer := true } := by
  cases hsched : seSched (s.entry x.io x.entry) <;>
    simp only [State.sendFrame, State.paidFor, State.cipherFrame, State.trailerOf, hkeys, hsched, if_neg (Nat.not_lt.2 hlast), htrailer,
      Bool.not_true, Bool.not_false, if_true, Bool.false_eq_true, if_false]

theorem sendFrame_again (hkeys : (s.link link).keys = some k) (hlast : seLength (s.entry x.io x.entry) ≤ x.next)
    (htrailer : x.trailer = true) {n : Nat} {rest : List Nat} (hnaks : x.naks = n :: rest) :
    let out := ((s.paidFor link (s.entry x.io x.entry)).putFrame link 3 n
      (if n < seLength (s.entry x.io x.entry) then s.cipherFrame r x k.1 n else s.trailerOf r x k.1)).updLink link
        (fun l => { l with retries := satAdd 0xFFFF l.retries 1 })
    let x' : Xfer := { x with naks := rest, again := x.again.set n true }
    s.sendFrame link tick r x = if rest.isEmpty then out.endSend x' tick else out.putXfer x' := by
  cases hsched : seSched (s.entry x.io x.entry) <;>
    simp only [State.sendFrame, State.paidFor, State.cipherFrame, State.trailerOf, hkeys, hsched, if_neg (Nat.not_lt.2 hlast), htrailer,
      hnaks, Bool.not_true, Bool.not_false, if_true, Bool.false_eq_true, if_false]

end

end

/-- Settles O24: a transfer that is due is missed, and a consumed region is released. -/
theorem transferEnds : Obligations.TransferEnds := by
  unfold Obligations.TransferEnds
  intro s io i
  refine ⟨fun r hrun hactive howed hopen => ?_, fun x hx => ?_⟩
  · refine ⟨_, (exec_transferMissed io i s).trans (modRow_of_eq (doTransferMissed_of_open hrun hactive howed hopen)), ?_, ?_, ?_,
      fun hrecv => ?_, fun hsend hsent => ?_⟩
    · rw [miss_xfer (xfer_is s io i r)]
    · rw [miss_xfer (xfer_is s io i r)]
    · exact miss_time
    · rw [miss_regs]
      exact missCounted_recv hrecv
    · rw [miss_regs]
      exact missCounted_send hsend hsent
  · refine (exec_regionRelease io i s).trans (modRow_of_eq ?_)
    rw [doRegionRelease, hx]

/-- Settles O22: a SEND that is ready starts by its endpoint, and a tick sends by the place of the transfer that is served. -/
theorem sendEvents : Obligations.SendEvents := by
  unfold Obligations.SendEvents
  intro s
  refine ⟨fun io i r hrun => ?_, fun link hup hfence honce => ?_⟩
  · intro e x s1 tick k sem s2 t hactive hsend hwaits hsem hroom hmay hfirst hfence
    have hready : s.SendReady io i r := ⟨hrun, hactive, hsend, hwaits, hsem, hroom, hmay, hfirst, hfence⟩
    exact ⟨fun hmem hclean => (exec_sendStart io i s).trans (modRow_of_eq (doSendStart_memory hready hmem hclean)),
      fun hcoll => (exec_sendStart io i s).trans (modRow_of_eq (doSendStart_collective hready hcoll)),
      fun hnorm => (exec_sendStart io i s).trans (modRow_of_eq (doSendStart_norm hready hnorm))⟩
  · have hopen : s.TickOpen link := ⟨hup, hfence, honce⟩
    refine ⟨fun hrun => ?_, fun r tick hrun htick hidle => ?_, fun r tick x k hrun htick husable hmay hregs hnow hkeys => ?_⟩
    · exact (exec_linkTick link s).trans (modRow_of_eq (doLinkTick_noRun hopen hrun))
    · exact (exec_linkTick link s).trans (modRow_of_eq (doLinkTick_idle hopen hrun htick hidle))
    · have hsends := doLinkTick_sends hopen hrun htick husable hmay hregs hnow
      intro e iv cipher tag paid
      exact ⟨fun hmore => (exec_linkTick link s).trans (modRow_of_eq (hsends.trans (sendFrame_payload hkeys hmore))),
        fun hlast htrailer => (exec_linkTick link s).trans (modRow_of_eq (hsends.trans (sendFrame_trailer hkeys hlast htrailer))),
        fun n rest hlast htrailer hnaks =>
          (exec_linkTick link s).trans (modRow_of_eq (hsends.trans (sendFrame_again hkeys hlast htrailer hnaks)))⟩

end Sys2Proof.Machine
end

section
/-! The collective (chapter 14): the control messages of the vote, and the staging of a bucket. -/

namespace Sys2Proof.Machine

section
variable {s : State} {link k : Nat} {m : CtlMsg} {r : OrbitRun}

/-! ### Control messages (R427, R459, R486) -/

/-- A link that brings a control message of the running orbit. -/
structure State.HearsOn (s : State) (link : Nat) (m : CtlMsg) (r : OrbitRun) : Prop where
  run : s.dev.curRun = some r
  up : (s.link link).state = 2
  keyed : (s.link link).keys.isSome = true
  unfenced : (s.link link).fenced = false
  orbit : m.orbit.toNat = r.num % 2 ^ 32

/-- The state that has noted a message and queued it for the other tree neighbours. -/
def State.heard (s : State) (link type : Nat) (m : CtlMsg) : State :=
  let w := ctlMessage type m.origin.toNat m.orbit.toNat m.body
  (s.treeLinks.filter (· != link)).foldl (fun s l => s.updLink l (fun k => { k with ctlQ := k.ctlQ ++ [w] }))
    { s with fab := { s.fab with seen := s.fab.seen ++ [w] } }

theorem hear_new (h : s.HearsOn link m r) {type : Nat}
    (hnew : s.fab.seen.contains (ctlMessage type m.origin.toNat m.orbit.toNat m.body) = false) :
    s.hear link type m = (s.heard link type m, some r) := by
  obtain ⟨hrun, hup, hkeyed, hfence, horbit⟩ := h
  have hnokeys : (s.link link).keys.isNone = false := by rw [← Option.not_isSome, hkeyed]; rfl
  have hgate : (decide ((s.link link).state ≠ 2) || (s.link link).keys.isNone || (s.link link).fenced
      || m.orbit.toNat != r.num % 2 ^ 32 || s.fab.seen.contains (ctlMessage type m.origin.toNat m.orbit.toNat m.body)) = false := by
    rw [hnew, hnokeys, hfence, horbit, hup]
    simp
  simp only [State.hear, hrun]
  exact if_neg (Bool.eq_false_iff.1 hgate)

theorem doVote_of_hear {s' : State} (h : s.hear link 1 m = (s', some r)) :
    doVote s link m = if r.closed then s' else s'.mapDev (·.updLast (fun r =>
      { r with votes := r.votes.set m.origin.toNat (if bitOf m.body 0 then 2 else 1) })) := by
  simp only [doVote, h]

theorem doVoid_of_hear {s' : State} (h : s.hear link 2 m = (s', some r)) :
    doVoid s link m = if !r.closed then s'.mapDev (·.updLast (fun r => { r with voidSeen := true }))
      else if !r.passed then s'
      else s'.mapDev (fun d =>
        let d := { d.updLast (fun r => { r with endStatus := some (r.endStatus.getD 0x21) }) with restrict := some (d.restrict.getD 0x21) }
        d.pushErr 0x07 0x21 (bitsOf m.body 15 0) 0 0 0) := by
  simp only [doVoid, h]

theorem doRetract_of_hear {s' : State} (h : s.hear link 3 m = (s', some r)) : doRetract s link m = s' := by
  simp only [doRetract, h]

theorem doCommit_of_hear {s' : State} (h : s.hear link 4 m = (s', some r)) :
    doCommit s link m = s'.commit (bitsOf m.body 11 0) m.origin.toNat r := by
  simp only [doCommit, h]

/-! ### Staging (R441, R482) -/

/-- The state after one count of a bucket's staging stream is taken. -/
def State.tookStaging (s : State) (k : Nat) (r : OrbitRun) : State :=
  let key := streamKey (bkDie (s.bucket k)) r.num (bkStageSem (s.bucket k))
  s.mapDev (fun d => { d with streamSems := d.streamSems.set key (BitVec.ofNat 16 ((s.dev.streamSems.get key).toNat - 1)) })

/-- The encodings of a bucket's blocks. -/
def State.encoded (s : State) (k : Nat) (r : OrbitRun) : State × List WireBlock × Nat :=
  encodeAll r.probe k (bkBlocks (s.bucket k)) 0 (s.tookStaging k r)

/-- The contribution of a bucket as it travels. -/
def State.contribOf (s : State) (k : Nat) (r : OrbitRun) : List Byte := contribPayload r.probe k s.me r.num (s.encoded k r).2.1

/-- The state with a bucket's contribution in its area. -/
def State.stagedBucket (s : State) (k : Nat) (r : OrbitRun) : State :=
  let io := bkDie (s.bucket k)
  let x := s.encoded k r
  let image := s.contribOf k r
  let s2 := (x.1.addSaturated io x.2.2).mapDev (fun d => d.write ((List.range image.length).map (fun i =>
    (⟨x.1.areaAddr k + i, 0xFF, byteAt image i⟩ : WItem))) false)
  let s3 := if x.2.1.any (·.poison) then s2.mapDev (·.voteVoid r.num rsPoison (unitColl io) 0) else s2
  s3.updBk k (fun y => { y with staged := true })

/-- A bucket that is signalled and not yet staged, of a module that contributes to it. -/
structure State.StageReady (s : State) (k : Nat) (r : OrbitRun) : Prop where
  run : s.dev.curRun = some r
  contributes : s.contributes k s.me = true
  listed : k < s.fab.redPlan.count
  signalled : (s.dev.streamSems.get (streamKey (bkDie (s.bucket k)) r.num (bkStageSem (s.bucket k)))).toNat ≠ 0
  started : r.start ≤ s.dev.time
  unfenced : (s.fab.regs.get (bkDie (s.bucket k))).fenced = false
  fresh : (s.run k).staged = false

theorem doBucketStage_of_ready (h : s.StageReady k r) :
    doBucketStage s k =
      (let io := bkDie (s.bucket k)
       let s4 := s.stagedBucket k r
       if s4.owns k then
         (if s4.mode || (s4.run k).finalised then s4 else s4.addContribution r.probe k s4.me (s.encoded k r).2.1)
       else
         let sent := (s4.stage io (bkSend (s.bucket k)) (s.contribOf k r)).signalStream io (bkSend (s.bucket k)) 1 r.num
         if sent.mode then sent else sent.signalStream io (bkCorr (s.bucket k)) 1 r.num) := by
  obtain ⟨hrun, hcontributes, hlisted, hsignalled, hstarted, hfence, hfresh⟩ := h
  have hgate : ¬ (s.fab.redPlan.count ≤ k
      ∨ (s.dev.streamSems.get (streamKey (bkDie (s.bucket k)) r.num (bkStageSem (s.bucket k)))).toNat = 0
      ∨ s.dev.time < r.start ∨ (s.fab.regs.get (bkDie (s.bucket k))).fenced = true) := by
    simp [hsignalled, hfence, hlisted, hstarted]
  have honce : (((s.tookStaging k r).run k).staged || !(s.tookStaging k r).contributes k (s.tookStaging k r).me) = false := by
    show ((s.run k).staged || !s.contributes k s.me) = false
    rw [hfresh, hcontributes]
    rfl
  simp only [doBucketStage, hrun]
  rw [if_neg hgate]
  exact if_neg (Bool.eq_false_iff.1 honce)

/-- A staged block whose comparison has not closed. -/
structure State.CompareOpen (s : State) (k block : Nat) (r : OrbitRun) : Prop where
  run : s.dev.curRun = some r
  contributes : s.contributes k s.me = true
  staged : (s.run k).staged = true
  waits : (s.run k).compared.get block = false
  listed : block < bkBlocks (s.bucket k)

theorem State.CompareOpen.gate {block : Nat} (h : s.CompareOpen k block r) : ¬ ((!(s.run k).staged) = true
    ∨ (s.run k).compared.get block = true ∨ bkBlocks (s.bucket k) ≤ block ∨ (!s.contributes k s.me) = true) := by
  obtain ⟨-, hcontributes, hstaged, hwaits, hlisted⟩ := h
  simp [hcontributes, hstaged, hwaits, hlisted]

/-- The state in which a block's comparison has closed. -/
def State.closedBlock (s : State) (k block : Nat) : State := s.updBk k (fun y => { y with compared := y.compared.set block true })

theorem doEncodeCompare_same {block : Nat} (h : s.CompareOpen k block r) (again : Bool) :
    doEncodeCompare s k block false again = s.closedBlock k block := by
  simp only [doEncodeCompare, h.run, if_neg h.gate, Bool.not_false, if_true]
  rfl

theorem doEncodeCompare_unsent {block : Nat} (h : s.CompareOpen k block r) (hleft : s.blockLeft k block r = false) :
    doEncodeCompare s k block true false
      = ((s.closedBlock k block).rewriteBlock r.probe k block).mapDev (·.transient (unitColl (bkDie (s.bucket k))) 0 block 0) := by
  simp only [doEncodeCompare, h.run, if_neg h.gate, hleft, Bool.not_true, Bool.not_false, Bool.false_eq_true, if_false, if_true]
  rfl

end

/-- Settles O26: a message that is heard for the first time takes effect by its type and by where the vote stands. -/
theorem controlMessages : Obligations.ControlMessages := by
  unfold Obligations.ControlMessages
  intro s link m r hrun hup hkeyed hfence horbit
  have hon : s.HearsOn link m r := ⟨hrun, hup, hkeyed, hfence, horbit⟩
  refine ⟨fun hnew => ⟨fun hopen => ?_, fun hclosed => ?_⟩, fun hnew => ⟨fun hopen => ?_, fun hclosed hpassed => ?_, fun hclosed hfailed => ?_⟩,
    fun hnew => ?_, fun hnew => ?_⟩
  · exact (exec_vote link m s).trans (modRow_of_eq ((doVote_of_hear (hear_new hon hnew)).trans (if_neg (Bool.eq_false_iff.1 hopen))))
  · exact (exec_vote link m s).trans (modRow_of_eq ((doVote_of_hear (hear_new hon hnew)).trans (if_pos hclosed)))
  · refine (exec_void link m s).trans (modRow_of_eq ((doVoid_of_hear (hear_new hon hnew)).trans ?_))
    rw [hopen]
    rfl
  · refine (exec_void link m s).trans (modRow_of_eq ((doVoid_of_hear (hear_new hon hnew)).trans ?_))
    rw [hclosed, hpassed]
    rfl
  · refine (exec_void link m s).trans (modRow_of_eq ((doVoid_of_hear (hear_new hon hnew)).trans ?_))
    rw [hclosed, hfailed]
    rfl
  · exact (exec_retract link m s).trans (modRow_of_eq (doRetract_of_hear (hear_new hon hnew)))
  · exact (exec_commit link m s).trans (modRow_of_eq (doCommit_of_hear (hear_new hon hnew)))

/-- Settles O27: a signalled bucket is staged by who owns it, and a comparison closes its block. -/
theorem bucketStaging : Obligations.BucketStaging := by
  unfold Obligations.BucketStaging
  intro s k r hrun hcontributes b io key c s1 x image s2 s3 s4
  refine ⟨fun hlisted hsignalled hstarted hfence hfresh => ?_, fun block again hstaged hwaits hlisted => ?_⟩
  · have hrow := doBucketStage_of_ready ⟨hrun, hcontributes, hlisted, hsignalled, hstarted, hfence, hfresh⟩
    refine ⟨fun howns hdone => ?_, fun howns hmode hopen => ?_, fun howns => ?_⟩ <;>
      refine (exec_bucketStage k s).trans (modRow_of_eq (hrow.trans ?_))
    · exact (if_pos howns).trans (if_pos (Bool.or_eq_true_iff.2 hdone))
    · exact (if_pos howns).trans (if_neg (Bool.eq_false_iff.1 (Bool.or_eq_false_iff.2 ⟨hmode, hopen⟩)))
    · exact if_neg (Bool.eq_false_iff.1 howns)
  · have hopen : s.CompareOpen k block r := ⟨hrun, hcontributes, hstaged, hwaits, hlisted⟩
    exact ⟨(exec_encodeCompare k block false again s).trans (modRow_of_eq (doEncodeCompare_same hopen again)),
      fun hleft => (exec_encodeCompare k block true false s).trans (modRow_of_eq (doEncodeCompare_unsent hopen hleft))⟩

end Sys2Proof.Machine
end

section
/-! Watchdogs, heartbeats and recovery (chapter 16), and the health services of chapter 15. -/

namespace Sys2Proof.Machine

section
variable {s : State}

/-! ### The start of a recovery below a half (R497) -/

theorem transient_time (d : Dev) (u kind where_ residue : Nat) : (d.transient u kind where_ residue).time = d.time :=
  pushErr_time _ _ _ _ _ _ _

/-- A recovery of a core, a Coma engine or a memory-side unit, as it begins. -/
structure Recovery.BegunAt (r : Recovery) (kind index time : Nat) : Prop where
  kind : r.kind = kind
  index : r.index = index
  cause : r.cause = 0
  stage : r.stage = 1
  time : r.fenceTime = time

theorem fenceUnits_recs {kind : Nat} (h : kind < 3) (s : State) (index : Nat) (code : Byte) :
    (s.fenceUnits kind index code).recs = s.recs := by
  obtain rfl | rfl | rfl : kind = 0 ∨ kind = 1 ∨ kind = 2 := by omega
  all_goals rfl

/-- Nothing lies inside a core, a Coma engine or a memory-side unit, so its recovery only adds its record. -/
theorem recover_unit {kind index : Nat} (h : kind < 3) (hfree : s.fencedDom kind index = false) (unit : Nat) (code : Byte) :
    ∃ r, (s.recover kind index 0 unit code [] []).recs = s.recs ++ [r] ∧ r.BegunAt kind index s.dev.time := by
  have hhalf : kind ≠ 5 := by omega
  have hinside (r : Recovery) : (decide (kind = 5) || (decide (kind = 4) && decide (r.kind < 4) && domHalf r.kind r.index == index)) = false := by
    simp [hhalf, show kind ≠ 4 by omega]
  have hnone : s.recs.filter (fun r => decide (kind = 5) || (decide (kind = 4) && decide (r.kind < 4) && domHalf r.kind r.index == index)) = [] :=
    List.filter_eq_nil_iff.2 (fun r _ => Bool.eq_false_iff.1 (hinside r))
  have hall : s.recs.filter (fun r => !(decide (kind = 5) || (decide (kind = 4) && decide (r.kind < 4) && domHalf r.kind r.index == index)))
      = s.recs := List.filter_eq_self.2 (fun r _ => by rw [hinside]; rfl)
  simp only [State.recover, hfree, Bool.false_eq_true, if_false, hnone, List.foldl_nil, if_neg hhalf]
  rw [domHalves, if_neg hhalf]
  simp only [List.foldl_cons, List.foldl_nil, State.updRegs, fenceUnits_recs h, hall]
  exact ⟨_, rfl, rfl, rfl, rfl, rfl, rfl⟩

/-! ### Watchdogs (R493, R495) -/

/-- CORE_WDOG_STATUS after a fire. -/
def Core.firedWdog (c : Core) (ms : Nat) (charged : Bool) : W32 :=
  setBits (setBits (setBits (setBits c.wdog 31 16 (min 0xFFFF ms)) 15 8 (satAdd 0xFF (bitsOf c.wdog 15 8) 1)) 2 2 (if charged then 1 else 0)) 0 0 1

/-- A core whose watchdog may fire. -/
structure State.CoreHangs (s : State) (n : Nat) : Prop where
  run : s.runState = 2
  unfinished : s.dev.unfinished n = true
  free : s.fencedDom 0 n = false
  unfenced : (s.dev.core n).fenced = false
  kept : (s.dev.core n).retired = false

theorem doCoreWatchdog_of_hangs {n : Nat} (h : s.CoreHangs n) :
    let c := s.dev.core n
    let charged := c.seqState (s.dev.lc c.lc) != 2
    doCoreWatchdog s n = ((s.mapDev (·.updCore n (fun c' => { c' with wdog := c.firedWdog s.dev.settings.coreMs charged }))).chargeFire
      (unitCore n) charged).recover 0 n 0 (unitCore n) stReset [] [] := by
  intro c charged
  obtain ⟨hrun, hunfinished, hfree, hfence, hkept⟩ := h
  have hgate : (decide (s.runState ≠ 2) || !s.dev.unfinished n || s.fencedDom 0 n || (s.dev.core n).fenced || (s.dev.core n).retired)
      = false := by
    rw [hrun, hunfinished, hfree, hfence, hkept]
    rfl
  exact if_neg (Bool.eq_false_iff.1 hgate)

theorem doComaWatchdog_of_busy {g : Nat} (hwork : (s.dev.coma g).queue ≠ []) (hfree : s.fencedDom 1 g = false)
    (hfence : (s.dev.coma g).fenced = false) (hkept : (s.dev.coma g).retired = false) (waiting : Bool) :
    doComaWatchdog s g waiting = (s.chargeFire (unitComa g) (!waiting)).recover 1 g 0 (unitComa g) stReset [] [] := by
  have hwork' : (s.dev.coma g).queue.isEmpty = false := by simpa using hwork
  simp only [doComaWatchdog, hwork', hfree, hfence, hkept, Bool.not_false, Bool.true_or, Bool.not_true, Bool.or_self, Bool.false_eq_true,
    if_false]

theorem doMsuWatchdog_of_busy {u : Nat} (hwork : s.dev.msuBusy u = true ∨ s.dev.smulBusy u = true) (hfree : s.fencedDom 2 u = false)
    (hfence : (s.dev.msu u).fenced = false) (waiting : Bool) :
    doMsuWatchdog s u waiting = ((s.mapDev (·.updMsu u (fun m => { m with fires := satAdd 0xFF m.fires 1 }))).chargeFire (unitMsu u)
      (!waiting)).recover 2 u 0 (unitMsu u) stReset [] [] := by
  have hwork' : (s.dev.msuBusy u || s.dev.smulBusy u) = true := Bool.or_eq_true_iff.2 hwork
  simp only [doMsuWatchdog, hwork', hfree, hfence, Bool.not_true, Bool.or_self, Bool.false_eq_true, if_false]

theorem chargeFire_not (s : State) (unit : Nat) (waiting : Bool) :
    s.chargeFire unit (!waiting) = if waiting then s else s.mapDev (·.transient unit 0 0 0) := by
  cases waiting <;> rfl

theorem chargeFire_recs (s : State) (unit : Nat) (charged : Bool) : (s.chargeFire unit charged).recs = s.recs := by
  cases charged <;> rfl

theorem chargeFire_time (s : State) (unit : Nat) (charged : Bool) : (s.chargeFire unit charged).dev.time = s.dev.time := by
  cases charged
  · rfl
  · exact transient_time ..

theorem chargeFire_fencedDom (s : State) (unit : Nat) (charged : Bool) (kind index : Nat) :
    (s.chargeFire unit charged).fencedDom kind index = s.fencedDom kind index := by
  rw [State.fencedDom, chargeFire_recs, State.fencedDom]

/-- A fire recovers the unit, whether it is charged or not. -/
theorem chargeFire_recover {kind index : Nat} (h : kind < 3) (hfree : s.fencedDom kind index = false) (unit : Nat) (charged : Bool) :
    ∃ r, ((s.chargeFire unit charged).recover kind index 0 unit stReset [] []).recs = s.recs ++ [r] ∧ r.BegunAt kind index s.dev.time := by
  obtain ⟨r, hrecs, hbegun⟩ := recover_unit h ((chargeFire_fencedDom s unit charged kind index).trans hfree) unit stReset
  rw [chargeFire_recs] at hrecs
  rw [chargeFire_time] at hbegun
  exact ⟨r, hrecs, hbegun⟩

theorem doCpWatchdog_of_running {h : Nat} (hrunning : s.running = true) (hfree : s.fencedDom 4 h = false) :
    doCpWatchdog s h = (s.advanceTo (s.moon.cpBeat.get h + msT * s.dev.settings.cpMs)).recover 4 h 0 (unitOrb h) stReset [] [] := by
  simp only [doCpWatchdog, hrunning, hfree, Bool.not_true, Bool.or_self, Bool.false_eq_true, if_false]

/-! ### Heartbeats and separation (R493, R504, R506) -/

theorem doCpHeartbeat_of_running {h : Nat} (hrunning : s.running = true) (hfree : s.fencedDom 4 h = false) :
    let s1 := s.advanceTo (s.moon.cpBeat.get h + msT)
    doCpHeartbeat s h = { s1 with moon := { s1.moon with cpBeat := s1.moon.cpBeat.set h s1.dev.time } } := by
  simp only [doCpHeartbeat, hrunning, hfree, Bool.not_true, Bool.or_self, Bool.false_eq_true, if_false]

theorem doHalfHeartbeat_of_running {h : Nat} (hrunning : s.running = true) (hfree : s.fencedDom 4 h = false) :
    let s1 := s.advanceTo (s.moon.halfBeat.get h + 100 * usT)
    doHalfHeartbeat s h = ({ s1 with moon := { s1.moon with halfBeat := s1.moon.halfBeat.set h s1.dev.time } }).updRegs (1 - h)
      (fun g => { g with peerAlive := true }) := by
  simp only [doHalfHeartbeat, hrunning, hfree, Bool.not_true, Bool.or_self, Bool.false_eq_true, if_false]

/-! ### Recovery steps (R497 to R502) -/

/-- The state and the record of a recovery whose drain ends (R498, R501). -/
def State.drained (s : State) (r : Recovery) (forced : Bool) (drainUs : Nat) : State × Recovery :=
  let us := if forced then 2000 else min drainUs 2000
  (s.advanceTo (r.fenceTime + usT * us)).sample
    { r with forced := forced, drainUs := us, resetTime := (s.advanceTo (r.fenceTime + usT * us)).dev.time }

theorem doDomainDrainEnd_of_due {r : Recovery} {rest : List Recovery} (hdue : takeStage 1 s.recs = some (r, rest)) (forced : Bool)
    (drainUs : Nat) :
    doDomainDrainEnd s forced drainUs =
      (let x := s.drained r forced drainUs
       if r.kind = 5 then x.1.cycleRails x.2
       else if r.cause = 4 then
         let us := x.1.dev.draw.1
         let s1 := ({ x.1 with dev := x.1.dev.draw.2 } : State).crash x.2 (us % 256) (us / 256 % 2 ^ 32)
         { s1 with recs := s1.recs.map (fun y => if y = r then { x.2 with stage := 3, sample := [] } else y) }
       else { x.1 with recs := x.1.recs.map (fun y => if y = r then { x.2 with stage := 2 } else y) }) := by
  simp only [doDomainDrainEnd, hdue]
  rfl

theorem doDomainResetComplete_of_due {r : Recovery} {rest : List Recovery} (hdue : takeStage 2 s.recs = some (r, rest)) {resetUs : Nat}
    (hin : resetUs ≤ 10000) :
    let s1 : State := { s.advanceTo (r.resetTime + usT * resetUs) with recs := rest }
    doDomainResetComplete s resetUs = ((s1.crash r 0x31 resetUs).resetUnits r.kind r.index).finishWaiters r r.kind r.index := by
  simp only [doDomainResetComplete, hdue, if_neg (Nat.not_lt.2 hin)]

theorem doEscalation_of_due {r : Recovery} {rest : List Recovery} (hdue : takeStage 2 s.recs = some (r, rest)) :
    let s1 := ({ s.advanceTo (r.resetTime + 10 * msT) with recs := rest } : State).crash r 0x32 10000
    let k := if r.kind = 4 then 5 else 4
    doEscalation s = s1.recover k (if k = 5 then 0 else domHalf r.kind r.index) 3 r.unit stEscalated [] (r.waiters ++ r.escalated) := by
  simp only [doEscalation, hdue]

end

/-- Settles O30: each watchdog that may fire recovers its unit with a new record. -/
theorem watchdogs : Obligations.Watchdogs := by
  unfold Obligations.Watchdogs
  intro s
  refine ⟨fun n hrun hunfinished hfree hfence hkept => ?_, fun g waiting hwork hfree hfence hkept => ?_,
    fun u waiting hwork hfree hfence => ?_, fun h hrunning hfree => ?_⟩
  · intro c charged w noted s1
    obtain ⟨r, hrecs, hkind, hindex, hcause, hstage, htime⟩ := chargeFire_recover (s := noted) (kind := 0) (by decide) hfree (unitCore n) charged
    exact ⟨_, r, (exec_coreWatchdog n s).trans (modRow_of_eq (doCoreWatchdog_of_hangs ⟨hrun, hunfinished, hfree, hfence, hkept⟩)), rfl,
      hrecs, hkind, hindex, hcause, hstage, htime⟩
  · intro s1
    obtain ⟨r, hrecs, hkind, hindex, hcause, hstage, htime⟩ := chargeFire_recover (kind := 1) (by decide) hfree (unitComa g) (!waiting)
    exact ⟨_, r, (exec_comaWatchdog g waiting s).trans (modRow_of_eq (doComaWatchdog_of_busy hwork hfree hfence hkept waiting)),
      by rw [chargeFire_not], hrecs, hkind, hindex, hcause, hstage, htime⟩
  · intro fired s1
    obtain ⟨r, hrecs, hkind, hindex, hcause, hstage, htime⟩ := chargeFire_recover (s := fired) (kind := 2) (by decide) hfree (unitMsu u)
      (!waiting)
    exact ⟨_, r, (exec_msuWatchdog u waiting s).trans (modRow_of_eq (doMsuWatchdog_of_busy hwork hfree hfence waiting)),
      by rw [chargeFire_not], hrecs, hkind, hindex, hcause, hstage, htime⟩
  · exact (exec_cpWatchdog h s).trans (modRow_of_eq (congrArg State.releaseWaiting (doCpWatchdog_of_running hrunning hfree)))

/-- Settles O31: a beat moves its half's last time, and the separation recovers both halves. -/
theorem heartbeatsAndSeparation : Obligations.HeartbeatsAndSeparation := by
  unfold Obligations.HeartbeatsAndSeparation
  intro s hrunning
  refine ⟨fun h hfree => ⟨?_, ?_⟩, fun hjoined => ?_⟩
  · exact ⟨_, (exec_cpHeartbeat h s).trans (modRow_of_eq (doCpHeartbeat_of_running hrunning hfree)), rfl, Bank.get_set_same .., rfl, rfl⟩
  · refine ⟨_, (exec_halfHeartbeat h s).trans (modRow_of_eq (doHalfHeartbeat_of_running hrunning hfree)), rfl, Bank.get_set_same .., ?_, rfl⟩
    exact congrArg OrbRegs.peerAlive (updRegs_regs _)
  · intro told clear both sep half apart cut
    refine (exec_separation s).trans (modRow_of_eq (congrArg State.releaseWaiting ?_))
    rw [doSeparation, hrunning, hjoined]
    rfl

/-- Settles O32: a drain ends by the kind and cause of its recovery, a reset completes, and one that does not escalates. -/
theorem recoverySteps : Obligations.RecoverySteps := by
  unfold Obligations.RecoverySteps
  intro s r rest
  refine ⟨fun forced drainUs hdue => ?_, fun resetUs hdue hin => ?_, fun hdue => ?_⟩
  · have hrow := doDomainDrainEnd_of_due hdue forced drainUs
    refine ⟨fun hmodule => ?_, fun hkind hcause => ?_, fun hkind hcause => ?_⟩ <;>
      refine (exec_domainDrainEnd forced drainUs s).trans (modRow_of_eq (congrArg State.releaseWaiting (hrow.trans ?_)))
    · exact if_pos hmodule
    · exact (if_neg hkind).trans (if_neg hcause)
    · exact (if_neg hkind).trans (if_pos hcause)
  · exact (exec_domainResetComplete resetUs s).trans (modRow_of_eq (congrArg State.releaseWaiting (doDomainResetComplete_of_due hdue hin)))
  · exact (exec_escalation s).trans (modRow_of_eq (congrArg State.releaseWaiting (doEscalation_of_due hdue)))

/-- Settles O34: a window's counts clear, the flash copies follow, and the oldest record is delivered. -/
theorem healthEvents : Obligations.HealthEvents := by
  unfold Obligations.HealthEvents
  intro s
  refine ⟨fun unit hopen hclass => ?_, fun hwf => ?_, fun io r rest hqueue hup => ?_⟩
  · refine (exec_healthWindowExpiry unit s).trans (devRow_of_eq ?_)
    exact if_neg (by simp [hopen, hclass])
  · exact ⟨_, exec_healthFlush s, fun unit => Bank.get_mapVals _ _ hwf unit⟩
  · refine (exec_errorRecordDelivery io s).trans (modRow_of_eq ?_)
    simp only [doErrorRecordDelivery, hqueue, hup, Bool.not_true, Bool.false_eq_true, if_false]

end Sys2Proof.Machine
end

section
/-! Host commands that run at once (chapter 17), and the session messages (chapter 18). -/

namespace Sys2Proof.Machine

section
variable {s : State} {p q : Fin 2} {h : W32} {e : Entry64}

/-! ### The row of a command, and what makes it wait -/

theorem rowEntry_of_op {op : Nat} (hop : eOp e = op) : rowEntry op e = true := by simp [rowEntry, hop]

theorem rowItem_of_item {item : Nat} (hop : eOp e = opQuery) (hitem : eItem e = item) : rowItem item e = true := by
  simp [rowItem, hop, hitem]

theorem rowOpen_of_row {row : Nat} (hop : eOp e = opOpen) (hrow : openRow s e = row) : rowOpen row s e = true := by
  simp [rowOpen, hop, hrow]

/-- OPEN_SESSION waits for nothing where no RESET_DOMAIN is under way (R547). -/
theorem mustWait_open (hop : eOp e = opOpen) (hnone : ∀ r ∈ s.recs, r.waiters = [] ∧ r.escalated = []) :
    s.mustWait [] (hostRun p q h e) = false := by
  have hrecs : s.recs.any (fun r => !(r.waiters ++ r.escalated).isEmpty) = false := by
    rw [List.any_eq_false]
    intro r hr
    obtain ⟨hwaiters, hescalated⟩ := hnone r hr
    simp [hwaiters, hescalated]
  simp only [State.mustWait, show (hostRun p q h e).entry = e from rfl, hop, opOpen, List.any_nil, hrecs, Bool.or_self, Bool.and_false]

theorem runCmd_open (hop : eOp e = opOpen) : s.runCmd (hostRun p q h e) = s.runOpen (hostRun p q h e) := by
  simp only [State.runCmd, show (hostRun p q h e).entry = e from rfl, hop, opOpen]

/-! ### Session messages (R545 to R549) -/

/-- The state that has answered for a session message: two draws are used, and the nonce that it names is used up. -/
def State.asked (s : State) (m : Img) : State :=
  { s.drawn2 with sec := { (s.sec.consume (of384 (m.field 8 55))) with genExhausted := s.sec.genExhausted || s.sec.exhausts m } }

theorem openMessage_closable {addr len : Nat} (hclose : s.sec.closable (s.image addr len) = true) :
    let m := s.image addr len
    let id := leBytes 8 (match s.sec.session with
      | some y => y.id.toNat
      | none => 0)
    let t := ((s.asked m).hostWrite (addr + len) ((s.asked m).sessionReply m s.eph s.sigNonce id)).endSession
    s.openMessage addr len = (if m.release then t.burn none else t, 0x00, 0) := by
  intro m id t
  simp only [State.openMessage]
  exact if_pos hclose

theorem openMessage_granted {addr len : Nat} (hopen : s.sec.closable (s.image addr len) = false) {g : Grant}
    (hgrant : s.sec.grant (s.image addr len) s.eph = some g) :
    let m := s.image addr len
    let t := ((s.asked m).hostWrite (addr + len) ((s.asked m).sessionReply m s.eph s.sigNonce g.keys.id)).begin_ m g
    s.openMessage addr len = (t, 0x00, dtl 32 39 (leNat g.keys.id) + dtl 40 40 t.sec.lastTag.toNat) := by
  intro m t
  simp only [State.openMessage, hgrant]
  exact if_neg (Bool.eq_false_iff.1 hopen)

theorem openMessage_refused {addr len : Nat} (hopen : s.sec.closable (s.image addr len) = false)
    (hgrant : s.sec.grant (s.image addr len) s.eph = none) :
    let t := s.asked (s.image addr len)
    s.openMessage addr len = ({ t with sec := { t.sec with openFails := satAdd 0xFF t.sec.openFails 1 } }, 0x41, 0) := by
  intro t
  simp only [State.openMessage, hgrant]
  exact if_neg (Bool.eq_false_iff.1 hopen)

/-- A row of OPEN_SESSION that runs its message at once. -/
theorem hostRow_open {ok : Bool} (hok : ok = true) (hfetch : s.Fetches p q h e) (hop : eOp e = opOpen) (hstart : s.fab.start = none)
    (hnone : ∀ r ∈ s.recs, r.waiters = [] ∧ r.escalated = []) {t : State} {status detail : Nat}
    (hmessage : (s.taken p q h e).openMessage (eAddr e) (eLen32 e) = (t, status, detail)) :
    hostRow ok p q h e s = .next (t.finishCmd (hostRun p q h e) status detail).noneWaiting := by
  have hidle : ¬ (s.taken p q h e).fab.start.isSome = true := by
    rw [show (s.taken p q h e).fab.start = none from hstart]
    decide
  rw [hostRow_runs hok hfetch (mustWait_open hop hnone), runCmd_open hop, State.runOpen, if_neg hidle]
  dsimp only
  rw [show (hostRun p q h e).entry = e from rfl, hmessage]

/-! ### What a grant leaves in the security state -/

theorem endPlan_sec (s : State) : s.endPlan.sec = s.sec := by
  have h := State.endPlan_env s
  simp only [State.env, Prod.mk.injEq] at h
  exact h.2.2

theorem endSession_sec (s : State) : s.endSession.sec = { s.sec with session := none } := by
  unfold State.endSession
  split
  · next hnone =>
    rw [Option.isNone_iff_eq_none] at hnone
    rw [← hnone]
  · dsimp only
    rw [endPlan_sec]

theorem grant_nonce {x : Sec} {m : Img} {eph : Nat} {g : Grant} (h : x.grant m eph = some g) : x.nonce = some (of384 (m.field 8 55)) := by
  unfold Sec.grant at h
  by_contra hother
  rw [if_pos (by simp [hother])] at h
  cases h

theorem consume_nonce {x : Sec} {n : BitVec 384} (h : x.nonce = some n) : x.consume n = { x with nonce := none } := if_pos h

/-- The state in which a grant's session begins: any earlier one has ended, and CLAIM and ROTATE have burnt their fuse. -/
def State.beforeGrant (s : State) (m : Img) (g : Grant) : State :=
  if m.kind = 3 then s.endSession.burn (some g.owner) else if m.rotate then s.endSession.burn s.endSession.sec.owner else s.endSession

theorem begin_eq (s : State) (m : Img) (g : Grant) :
    s.begin_ m g = { s.beforeGrant m g with
      dev := { (s.beforeGrant m g).dev with ownerTag := nextTag (s.beforeGrant m g).sec.lastTag }
      sec := { (s.beforeGrant m g).sec with
        session := some (g.session m (nextTag (s.beforeGrant m g).sec.lastTag)), lastTag := nextTag (s.beforeGrant m g).sec.lastTag } } := rfl

theorem beforeGrant_sec (s : State) (m : Img) (g : Grant) :
    (s.beforeGrant m g).sec.lastTag = s.sec.lastTag ∧ (s.beforeGrant m g).sec.nonce = s.sec.nonce
      ∧ (s.beforeGrant m g).sec.ownerGen = if m.kind = 3 ∨ m.rotate = true then s.sec.ownerGen + 1 else s.sec.ownerGen := by
  have hsec := endSession_sec s
  unfold State.beforeGrant
  by_cases hclaim : m.kind = 3
  · rw [if_pos hclaim, if_pos (Or.inl hclaim)]
    simp [State.burn, Sec.lockT2, hsec]
  · rw [if_neg hclaim]
    by_cases hrotate : m.rotate = true
    · rw [if_pos hrotate, if_pos (Or.inr hrotate)]
      simp [State.burn, Sec.lockT2, hsec]
    · rw [if_neg hrotate, if_neg (not_or.2 ⟨hclaim, hrotate⟩)]
      simp [hsec]

/-- What a granted message leaves in the security state (R545, R548). -/
theorem begin_asked_sec {m : Img} {g : Grant} (hgrant : s.sec.grant m s.eph = some g) (addr : Nat) (l : List Byte) :
    let t := ((s.asked m).hostWrite addr l).begin_ m g
    t.sec.session = some (g.session m (nextTag s.sec.lastTag)) ∧ t.sec.lastTag = nextTag s.sec.lastTag ∧ t.sec.nonce = none
      ∧ t.dev.ownerTag = nextTag s.sec.lastTag
      ∧ t.sec.ownerGen = (if m.kind = 3 ∨ m.rotate = true then s.sec.ownerGen + 1 else s.sec.ownerGen) := by
  have hasked : ((s.asked m).hostWrite addr l).sec = { s.sec with nonce := none, genExhausted := s.sec.genExhausted || s.sec.exhausts m } := by
    show ({ (s.sec.consume _) with genExhausted := _ } : Sec) = _
    rw [consume_nonce (grant_nonce hgrant)]
  obtain ⟨htag, hnonce, hgen⟩ := beforeGrant_sec ((s.asked m).hostWrite addr l) m g
  rw [hasked] at htag hnonce hgen
  intro t
  simp only [t, begin_eq, htag, hnonce, hgen, and_self]

end

/-- Settles O35: a session message closes, opens or is refused, and its row is read off the message. -/
theorem sessionCommands : Obligations.SessionCommands := by
  unfold Obligations.SessionCommands
  intro s p q h e hfetch hop hstart hnone s0 c m asked
  have himage : s.image (eAddr e) (eLen32 e) = m := rfl
  refine ⟨fun g hopen hgrant => ?_, fun hclose => ?_, fun hopen hgrant => ?_⟩
  · intro t done
    have hrow {row : Nat} (hrow : openRow s e = row) : hostRow (rowOpen row s e) p q h e s = .next done :=
      hostRow_open (rowOpen_of_row hop hrow) hfetch hop hstart hnone (openMessage_granted hopen hgrant)
    refine ⟨fun hkind hrotate => ?_, fun hkind hrotate => ?_, fun hkind => ?_, fun hkind hrotate => ?_, ?_⟩
    · exact (exec_openKey p q h e s).trans (hrow (by simp [openRow, himage, hkind, hrotate]))
    · exact (exec_openSecret p q h e s).trans (hrow (by simp [openRow, himage, hkind, hrotate]))
    · exact (exec_claim p q h e s).trans (hrow (by simp [openRow, himage, hkind]))
    · refine (exec_rotate p q h e s).trans (hrow ?_)
      obtain hkind | hkind := hkind <;> simp [openRow, himage, hkind, hrotate]
    · exact begin_asked_sec (s := s0) hgrant _ _
  · intro id t
    have hmessage : s0.openMessage (eAddr e) (eLen32 e) = (if m.release then t.burn none else t, 0x00, 0) := openMessage_closable hclose
    have hkind : m.kind = 4 := by
      have hparts := hclose
      simp only [Sec.closable, Bool.and_eq_true, beq_iff_eq] at hparts
      exact hparts.1.1.1.1.1
    refine ⟨fun hkeep => ?_, fun hrelease => ?_, ?_⟩
    · rw [hkeep] at hmessage
      exact (exec_close p q h e s).trans (hostRow_open (rowOpen_of_row hop (by simp [openRow, himage, hkind, hkeep])) hfetch hop hstart hnone hmessage)
    · rw [hrelease] at hmessage
      exact (exec_release p q h e s).trans (hostRow_open (rowOpen_of_row hop (by simp [openRow, himage, hkind, hrelease])) hfetch hop hstart hnone hmessage)
    · exact congrArg Sec.session (endSession_sec _)
  · intro failed
    have hrow {row : Nat} (hrow : openRow s e = row) : hostRow (rowOpen row s e) p q h e s = .next failed :=
      hostRow_open (rowOpen_of_row hop hrow) hfetch hop hstart hnone (openMessage_refused hopen hgrant)
    exact ⟨fun hr => (exec_openKey p q h e s).trans (hrow hr), fun hr => (exec_openSecret p q h e s).trans (hrow hr),
      fun hr => (exec_claim p q h e s).trans (hrow hr), fun hr => (exec_close p q h e s).trans (hrow hr),
      fun hr => (exec_rotate p q h e s).trans (hrow hr), fun hr => (exec_release p q h e s).trans (hrow hr)⟩

end Sys2Proof.Machine
end

section
/-! Host commands that run at once (chapter 17): memory transfers, queries, resets and Umbra. -/

namespace Sys2Proof.Machine

section
variable {s : State} {p q : Fin 2} {h : W32} {e : Entry64}

theorem taken_deferred (s : State) (p q : Fin 2) (h : W32) (e : Entry64) : (s.taken p q h e).hst.deferred = s.hst.deferred := by
  show (s.carried (hostCmd p q h e)).hst.deferred = s.hst.deferred
  unfold State.carried
  dsimp only
  split <;> rfl

/-! ### MEM_TRANSFER (R526) -/

/-- A transfer waits only for a load, or for the orbits that run over segments that it may not share (R527). -/
theorem mustWait_mem (hop : eOp e = opMem) (hshare : s.runState ≠ 2 ∨ s.sharedMem e = true) : s.mustWait [] (hostRun p q h e) = false := by
  have hbusy : (s.runState == 2 && !s.sharedMem e) = false := by
    obtain hidle | hshared := hshare
    · simp [hidle]
    · simp [hshared]
  simp only [State.mustWait, show (hostRun p q h e).entry = e from rfl, hop, opMem, List.any_nil, hbusy, Bool.false_and, Bool.or_self]

theorem hostRow_mem {ok : Bool} (hok : ok = true) (hfetch : s.Fetches p q h e) (hop : eOp e = opMem)
    (hshare : s.runState ≠ 2 ∨ s.sharedMem e = true) :
    hostRow ok p q h e s = .next ((s.taken p q h e).runMem (hostRun p q h e)).noneWaiting := by
  rw [hostRow_runs hok hfetch (mustWait_mem hop hshare)]
  simp only [State.runCmd, show (hostRun p q h e).entry = e from rfl, hop, opMem]

theorem runMem_fault {c : WaitCmd} {f : Nat × Nat × Int} (hfault : s.memFault c = some f) :
    s.runMem c = (s.mapDev (·.segFault (.host c.port) f.1 f.2.1 f.2.2)).finishCmd c 0x16
      (dtl 44 44 f.2.1 + dtl 48 55 (f.2.2 % 2 ^ 64).toNat) := by
  simp only [State.runMem, hfault]

theorem runMem_write {c : WaitCmd} (hpass : s.memFault c = none) (hwrite : eRead c.entry = false) : s.runMem c = s.runMemWrite c := by
  simp only [State.runMem, hpass, hwrite, Bool.false_eq_true, if_false]

theorem runMem_read {c : WaitCmd} (hpass : s.memFault c = none) (hread : eRead c.entry = true) : s.runMem c = s.runMemRead c := by
  simp only [State.runMem, hpass, hread, if_true]

/-- A write while no orbit runs. -/
theorem runMemWrite_idle {c : WaitCmd} (hidle : s.runState ≠ 2) :
    s.runMemWrite c = (s.mapDev (·.write (memItems s.dev c.entry) false)).finishCmd c 0x00 (dtl 32 39 (memBytes c.entry)) := by
  simp only [State.runMemWrite, if_neg hidle]

/-- A write while orbits run is kept for the next one (R235). -/
theorem runMemWrite_running {c : WaitCmd} (hruns : s.runState = 2) :
    s.runMemWrite c = ({ s with hst := { s.hst with deferred := s.hst.deferred ++ memItems s.dev c.entry } } : State).finishCmd c 0x00
      (dtl 32 39 (memBytes c.entry)) := by
  simp only [State.runMemWrite, if_pos hruns]

end

/-- Settles O37: a transfer faults, reads, stores at once or stores for the next orbit. -/
theorem memoryTransfers : Obligations.MemoryTransfers := by
  unfold Obligations.MemoryTransfers
  intro s p q h e hfetch hop hshare s0 c items
  have hrow {ok : Bool} (hok : ok = true) : hostRow ok p q h e s = .next (s0.runMem c).noneWaiting := hostRow_mem hok hfetch hop hshare
  have hwrite (hw : eRead e = false) : (rowEntry opMem e && !eRead e) = true := by rw [rowEntry_of_op hop, hw]; rfl
  have hread (hr : eRead e = true) : (rowEntry opMem e && eRead e) = true := by rw [rowEntry_of_op hop, hr]; rfl
  refine ⟨fun hw hpass hidle => ?_, fun hw hpass hruns => ?_, fun hr hpass => ?_, fun f hfault => ?_⟩
  · refine ⟨_, (exec_memTransferWrite p q h e s).trans (hrow (hwrite hw)), ?_, fun a ha => ?_⟩
    · rw [runMem_write hpass hw, runMemWrite_idle (s := s0) hidle]
      rfl
    · rw [runMem_write hpass hw, runMemWrite_idle (s := s0) hidle]
      exact Dev.write_outside s.dev items false a ha
  · refine ⟨_, (exec_memTransferWrite p q h e s).trans (hrow (hwrite hw)), ?_, ?_⟩ <;>
      rw [runMem_write hpass hw, runMemWrite_running (s := s0) hruns]
    · exact congrArg (· ++ items) (taken_deferred s p q h e)
    · rfl
  · intro d ms
    refine (exec_memTransferRead p q h e s).trans ((hrow (hread hr)).trans ?_)
    rw [runMem_read hpass hr, State.runMemRead, taken_deferred]
    rfl
  · exact ⟨fun hw => (exec_memTransferWrite p q h e s).trans ((hrow (hwrite hw)).trans (by rw [runMem_fault hfault]; rfl)),
      fun hr => (exec_memTransferRead p q h e s).trans ((hrow (hread hr)).trans (by rw [runMem_fault hfault]; rfl))⟩

section
variable {s : State} {p q : Fin 2} {h : W32} {e : Entry64}

/-! ### QUERY (R528) -/

theorem hostRow_query {ok : Bool} (hok : ok = true) (hfetch : s.Fetches p q h e) (hop : eOp e = opQuery) {t : State} {reply : List Byte}
    (hreply : (s.taken p q h e).reply e = (reply, t)) :
    hostRow ok p q h e s = .next ((t.hostWrite (eReply e) (reply.take (eReplyLen e))).finishCmd (hostRun p q h e) 0x00
      (dtl 32 35 (reply.take (eReplyLen e)).length)).noneWaiting := by
  have hentry : (hostRun p q h e).entry = e := rfl
  have hwaits : (s.taken p q h e).mustWait [] (hostRun p q h e) = false := by simp only [State.mustWait, hentry, hop, opQuery]
  rw [hostRow_runs hok hfetch hwaits]
  simp only [State.runCmd, hentry, hop, opQuery, State.runQuery, hreply]

end

/-- Settles O38: each ITEM has its reply. -/
theorem queries : Obligations.Queries := by
  unfold Obligations.Queries
  intro s p q h e hfetch hop s0 answered n a
  refine ⟨fun hitem => ?_, fun hitem => ?_, fun hitem => ?_, fun hitem => ?_, fun hitem => ?_, fun hitem => ?_⟩
  · exact (exec_queryIdentity p q h e s).trans (hostRow_query (rowItem_of_item hop hitem) hfetch hop (by rw [State.reply, hitem]; rfl))
  · exact (exec_querySpdm p q h e s).trans (hostRow_query (rowItem_of_item hop hitem) hfetch hop (by rw [State.reply, hitem]; rfl))
  · exact (exec_queryState p q h e s).trans (hostRow_query (rowItem_of_item hop hitem) hfetch hop (by rw [State.reply, hitem]; rfl))
  · exact (exec_queryRegisters p q h e s).trans (hostRow_query (rowItem_of_item hop hitem) hfetch hop (by rw [State.reply, hitem]; rfl))
  · exact (exec_queryHealth p q h e s).trans (hostRow_query (rowItem_of_item hop hitem) hfetch hop (by rw [State.reply, hitem]; rfl))
  · exact (exec_queryErrors p q h e s).trans (hostRow_query (rowItem_of_item hop hitem) hfetch hop (by rw [State.reply, hitem]; rfl))

section
variable {s : State} {p q : Fin 2} {h : W32} {e : Entry64}

/-! ### RESET_DOMAIN and Umbra (R509, R577, R578) -/

theorem hostRow_reset {ok : Bool} (hok : ok = true) (hfetch : s.Fetches p q h e) (hop : eOp e = opReset) :
    hostRow ok p q h e s = .next ((s.taken p q h e).recover (eKind e) (eDomain e) 1 0xFFFF stReset
      (if eKind e = 5 then [] else [(qKey p q, cmdHandle p q h)]) []).noneWaiting := by
  have hentry : (hostRun p q h e).entry = e := rfl
  have hwaits : (s.taken p q h e).mustWait [] (hostRun p q h e) = false := by simp only [State.mustWait, hentry, hop, opReset]
  rw [hostRow_runs hok hfetch hwaits]
  simp only [State.runCmd, hentry, hop, opReset, State.runReset]
  rfl

theorem hostRow_enter {ok : Bool} (hok : ok = true) (hfetch : s.Fetches p q h e) (hop : eOp e = opEnter) (hidle : s.fab.start = none) :
    hostRow ok p q h e s = .next ((s.taken p q h e).enterUmbra.finishCmd (hostRun p q h e) 0x00 0).noneWaiting := by
  have hentry : (hostRun p q h e).entry = e := rfl
  have hwaits : (s.taken p q h e).mustWait [] (hostRun p q h e) = false := by
    simp only [State.mustWait, hentry, hop, opEnter, List.any_nil, Bool.and_false]
  have hstart : (s.taken p q h e).fab.start = none := hidle
  rw [hostRow_runs hok hfetch hwaits]
  simp only [State.runCmd, hentry, hop, opEnter, State.runEnter, hstart, Option.isSome_none, Bool.false_eq_true, if_false]

theorem hostRow_leave {ok : Bool} (hok : ok = true) (hfetch : s.Fetches p q h e) (hop : eOp e = opLeave) :
    hostRow ok p q h e s = .next ((s.taken p q h e).wake.finishCmd (hostRun p q h e) 0x00 0).noneWaiting := by
  have hentry : (hostRun p q h e).entry = e := rfl
  have hwaits : (s.taken p q h e).mustWait [] (hostRun p q h e) = false := by simp only [State.mustWait, hentry, hop, opLeave]
  rw [hostRow_runs hok hfetch hwaits]
  simp only [State.runCmd, hentry, hop, opLeave, State.runLeave]

/-- A module that enters Umbra keeps no scratchpad byte and no time (R577). -/
theorem enterUmbra_of_running (hrunning : s.pwr.state = .running) :
    (s.enterUmbra.pwr.umbra = true ∧ s.enterUmbra.pwr.ready = false ∧ s.enterUmbra.pwr.saved = true)
      ∧ s.enterUmbra.dev.ms.mem = memClear s.dev.ms.mem 0 (2 ^ 32) ∧ s.enterUmbra.fab.tb = TimeBase.none := by
  rw [State.enterUmbra, if_neg (not_not.2 hrunning)]
  exact ⟨⟨rfl, rfl, rfl⟩, rfl, rfl⟩

end

/-- Settles O39: the three commands run at once, and Umbra is entered from RUNNING. -/
theorem resetAndUmbra : Obligations.ResetAndUmbra := by
  unfold Obligations.ResetAndUmbra
  intro s p q h e hfetch
  refine ⟨fun hop => ?_, fun hop hidle hrunning => ?_, fun hop => ?_⟩
  · exact (exec_resetDomain p q h e s).trans (hostRow_reset (rowEntry_of_op hop) hfetch hop)
  · obtain ⟨⟨humbra, hready, hsaved⟩, hmem, htime⟩ := enterUmbra_of_running (s := s.taken p q h e) hrunning
    exact ⟨_, (exec_enterUmbra p q h e s).trans (hostRow_enter (rowEntry_of_op hop) hfetch hop hidle), rfl, humbra, hready, hsaved, hmem,
      htime⟩
  · exact (exec_leaveUmbra p q h e s).trans (hostRow_leave (rowEntry_of_op hop) hfetch hop)

end Sys2Proof.Machine
end

section
/-! The adapter's rings and the Efmus ports (chapter 17). -/

namespace Sys2Proof.Machine

section
variable {s : State} {k : Nat}

theorem updQueue_queue (f : HQueue → HQueue) : (s.updQueue k f).queue k = f (s.queue k) := Bank.get_set_same ..

theorem updQueue_queue_ne {j : Nat} (h : j ≠ k) (f : HQueue → HQueue) : (s.updQueue k f).queue j = s.queue j := Bank.get_set_ne _ h _

theorem updQueue_congr {f g : HQueue → HQueue} (h : f (s.queue k) = g (s.queue k)) : s.updQueue k f = s.updQueue k g := by
  simp only [State.updQueue, show f (s.hst.queues.get k) = g (s.hst.queues.get k) from h]

theorem updPort_port (p : Nat) (f : Port → Port) : (s.updPort p f).port p = f (s.port p) := Bank.get_set_same ..

/-! ### A completion ring (R518, R519) -/

/-- A ring into which one record has been written (R518). -/
def HQueue.written (q : HQueue) : HQueue :=
  { q with cqTail := (q.cqTail + 1) % cqSize q, raised := if q.masked then q.raised else q.raised + 1 }

/-- A record is written where the ring has room and no earlier record waits. -/
theorem ringWrite_room (hroom : (s.queue k).full = false) (hfirst : (s.queue k).waiting = []) (r : CompRec) :
    (s.ringWrite k r).queue k = (s.queue k).written ∧ (s.ringWrite k r).hst.ports = s.hst.ports
      ∧ (s.ringWrite k r).dev.ms.mem = memWriteList s.dev.ms.mem (ringAddr (s.queue k).cqBase + 64 * (s.queue k).cqTail) r.bytes := by
  have hgate : ((s.queue k).full || !(s.queue k).waiting.isEmpty) = false := by
    rw [hroom, hfirst]
    rfl
  rw [State.ringWrite, if_neg (Bool.eq_false_iff.1 hgate)]
  exact ⟨updQueue_queue _, rfl, rfl⟩

theorem drainRing_empty (n : Nat) (h : (s.queue k).waiting = []) : drainRing n k s = s := by
  cases n with
  | zero => rfl
  | succ n => simp only [drainRing, h]

theorem drainRing_one (n : Nat) {r : CompRec} (hwaits : (s.queue k).waiting = [r]) (hroom : (s.queue k).full = false) :
    drainRing (n + 1) k s = ((s.updQueue k (fun q => { q with waiting := [] })).ringWrite k r).updQueue k
      (fun q => { q with waiting := [] }) := by
  simp only [drainRing, hwaits, hroom, Bool.false_eq_true, if_false]
  exact drainRing_empty n (congrArg HQueue.waiting (updQueue_queue _))

/-- A head write that makes room for the one record that waits. -/
theorem drainRing_one_spec (n : Nat) {r : CompRec} (hwaits : (s.queue k).waiting = [r]) (hroom : (s.queue k).full = false) :
    ((drainRing (n + 1) k s).queue k).waiting = []
      ∧ ((drainRing (n + 1) k s).queue k).cqTail = ((s.queue k).cqTail + 1) % cqSize (s.queue k)
      ∧ (drainRing (n + 1) k s).dev.ms.mem
        = memWriteList s.dev.ms.mem (ringAddr (s.queue k).cqBase + 64 * (s.queue k).cqTail) r.bytes := by
  have hqueue : (s.updQueue k (fun q => { q with waiting := [] })).queue k = { s.queue k with waiting := [] } := updQueue_queue _
  obtain ⟨hwritten, -, hmem⟩ := ringWrite_room (s := s.updQueue k (fun q => { q with waiting := [] })) (k := k)
    (by rw [hqueue]; exact hroom) (by rw [hqueue]) r
  rw [hqueue] at hwritten hmem
  rw [drainRing_one n hwaits hroom, updQueue_queue, hwritten]
  exact ⟨rfl, rfl, hmem⟩

/-! ### Fetching entries (R517) -/

theorem ringWrite_submission (r : CompRec) :
    ((s.ringWrite k r).queue k).sqHead = (s.queue k).sqHead ∧ ((s.ringWrite k r).queue k).sqTail = (s.queue k).sqTail
      ∧ ((s.ringWrite k r).queue k).sqBase = (s.queue k).sqBase := by
  unfold State.ringWrite
  dsimp only
  split <;> rw [updQueue_queue] <;> exact ⟨rfl, rfl, rfl⟩

theorem adapterDone_submission (o : Outstanding) (status detail : Nat) :
    ((s.adapterDone k o status detail).queue k).sqHead = (s.queue k).sqHead
      ∧ ((s.adapterDone k o status detail).queue k).sqTail = (s.queue k).sqTail
      ∧ ((s.adapterDone k o status detail).queue k).sqBase = (s.queue k).sqBase := by
  unfold State.adapterDone
  dsimp only
  refine ⟨(ringWrite_submission _).1.trans ?_, (ringWrite_submission _).2.1.trans ?_, (ringWrite_submission _).2.2.trans ?_⟩ <;>
    rw [updQueue_queue]

/-- A fetch moves the head of its ring by one entry. -/
theorem fetchOne_submission :
    ((s.fetchOne k).queue k).sqHead = ((s.queue k).sqHead + 1) % sqSize (s.queue k)
      ∧ ((s.fetchOne k).queue k).sqTail = (s.queue k).sqTail ∧ ((s.fetchOne k).queue k).sqBase = (s.queue k).sqBase := by
  unfold State.fetchOne
  dsimp only
  split
  · rw [(adapterDone_submission _ _ _).1, (adapterDone_submission _ _ _).2.1, (adapterDone_submission _ _ _).2.2, updQueue_queue]
    dsimp only [State.queue]
    exact ⟨rfl, rfl, rfl⟩
  · rw [updQueue_queue]
    dsimp only [State.queue]
    exact ⟨rfl, rfl, rfl⟩

theorem sqSize_bounds (q : HQueue) : 0 < sqSize q ∧ sqSize q ≤ 1024 := by
  unfold sqSize
  dsimp only
  split
  · next h => exact ⟨Nat.two_pow_pos _, Nat.pow_le_pow_right (by decide) h.2⟩
  · decide

theorem sqSize_congr {x y : HQueue} (h : x.sqBase = y.sqBase) : sqSize x = sqSize y := by simp only [sqSize, h]

/-- Entries between the head and the tail of a ring of n. -/
def ringGap (head tail n : Nat) : Nat := if head ≤ tail then tail - head else tail + n - head

theorem ringGap_lt {head tail n : Nat} (hhead : head < n) (htail : tail < n) : ringGap head tail n < n := by
  unfold ringGap
  split <;> omega

theorem ringGap_succ {head tail n : Nat} (hhead : head < n) (htail : tail < n) (hne : head ≠ tail) :
    ringGap ((head + 1) % n) tail n + 1 = ringGap head tail n := by
  unfold ringGap
  by_cases hlast : head + 1 = n
  · rw [hlast, Nat.mod_self]
    split <;> split <;> omega
  · rw [Nat.mod_eq_of_lt (by omega)]
    split <;> split <;> omega

/-- Enough fetches bring the head to the tail. -/
theorem fetchEntries_head (n : Nat) : ∀ s : State, (s.queue k).sqHead < sqSize (s.queue k) →
    ringGap (s.queue k).sqHead ((s.queue k).sqTail.toNat % sqSize (s.queue k)) (sqSize (s.queue k)) ≤ n →
    ((fetchEntries n k s).queue k).sqTail = (s.queue k).sqTail
      ∧ ((fetchEntries n k s).queue k).sqHead = (s.queue k).sqTail.toNat % sqSize (s.queue k) := by
  induction n with
  | zero =>
    intro s hhead hgap
    rw [fetchEntries]
    refine ⟨rfl, ?_⟩
    have htail := Nat.mod_lt (s.queue k).sqTail.toNat (sqSize_bounds (s.queue k)).1
    by_contra hne
    have := ringGap_succ hhead htail hne
    omega
  | succ n ih =>
    intro s hhead hgap
    have htail := Nat.mod_lt (s.queue k).sqTail.toNat (sqSize_bounds (s.queue k)).1
    rw [fetchEntries]
    split
    · next hdone => exact ⟨rfl, hdone⟩
    · next hmore =>
      obtain ⟨hhead', htail', hbase'⟩ := fetchOne_submission (s := s) (k := k)
      have hsize : sqSize ((s.fetchOne k).queue k) = sqSize (s.queue k) := sqSize_congr hbase'
      have hstep := ringGap_succ hhead htail hmore
      obtain ⟨htail'', hhead''⟩ := ih (s.fetchOne k) (by rw [hhead', hsize]; exact Nat.mod_lt _ (sqSize_bounds _).1)
        (by rw [hhead', htail', hsize]; omega)
      rw [htail', hsize] at hhead''
      exact ⟨htail''.trans htail', hhead''⟩

theorem doSqDoorbell_fetches {p q : Nat} (henabled : qEnabled (s.queue (qKey p q)) = true) (hgood : (s.queue (qKey p q)).fetchErr = false)
    (tail : W32) :
    let rung := s.updQueue (qKey p q) (fun y => { y with sqTail := tail &&& 0xFFFF })
    doSqDoorbell s p q tail false = fetchEntries 1024 (qKey p q) rung
      ∧ doSqDoorbell s p q tail true = rung.updQueue (qKey p q) (fun y => { y with fetchErr := true }) := by
  intro rung
  have hqueue : rung.queue (qKey p q) = { s.queue (qKey p q) with sqTail := tail &&& 0xFFFF } := updQueue_queue _
  have hgate : (qEnabled (rung.queue (qKey p q)) && !(rung.queue (qKey p q)).fetchErr) = true := by
    rw [hqueue]
    show (qEnabled (s.queue (qKey p q)) && !(s.queue (qKey p q)).fetchErr) = true
    rw [henabled, hgood]
    rfl
  constructor
  · rw [doSqDoorbell, if_pos hgate, if_neg Bool.false_ne_true]
  · rw [doSqDoorbell, if_pos hgate, if_pos rfl]

theorem doSqDoorbell_stopped {p q : Nat} (hstopped : qEnabled (s.queue (qKey p q)) = false ∨ (s.queue (qKey p q)).fetchErr = true)
    (tail : W32) (ringFails : Bool) :
    doSqDoorbell s p q tail ringFails = s.updQueue (qKey p q) (fun y => { y with sqTail := tail &&& 0xFFFF }) := by
  have hqueue : (s.updQueue (qKey p q) (fun y => { y with sqTail := tail &&& 0xFFFF })).queue (qKey p q)
      = { s.queue (qKey p q) with sqTail := tail &&& 0xFFFF } := updQueue_queue _
  have hgate : (qEnabled ((s.updQueue (qKey p q) (fun y => { y with sqTail := tail &&& 0xFFFF })).queue (qKey p q))
      && !((s.updQueue (qKey p q) (fun y => { y with sqTail := tail &&& 0xFFFF })).queue (qKey p q)).fetchErr) = false := by
    rw [hqueue]
    show (qEnabled (s.queue (qKey p q)) && !(s.queue (qKey p q)).fetchErr) = false
    obtain hoff | herr := hstopped
    · rw [hoff]
      rfl
    · rw [herr, Bool.not_true, Bool.and_false]
  exact if_neg (Bool.eq_false_iff.1 hgate)

/-! ### Delivery of a record (R514) -/

/-- A record of an outstanding handle that ends it, where its ring has room. -/
structure State.TakesRecord (s : State) (k : Nat) (r : CompRec) : Prop where
  ring : qKey (hPort r.handle) (hQueue r.handle) = k
  outstanding : (s.queue k).outstanding.any (fun o => o.handle == r.handle) = true
  final : bitOf r.flags 15 = true
  room : (s.queue k).full = false
  first : (s.queue k).waiting = []

theorem adapterTake_spec {r : CompRec} (h : s.TakesRecord k r) :
    (s.adapterTake r).queue k
        = { s.queue k with outstanding := (s.queue k).outstanding.filter (fun o => o.handle != r.handle) }.written
      ∧ (s.adapterTake r).hst.ports = s.hst.ports
      ∧ (s.adapterTake r).dev.ms.mem = memWriteList s.dev.ms.mem (ringAddr (s.queue k).cqBase + 64 * (s.queue k).cqTail) r.bytes := by
  obtain ⟨rfl, hout, hfinal, hroom, hfirst⟩ := h
  have hqueue : (s.updQueue (qKey (hPort r.handle) (hQueue r.handle)) (fun q =>
      { q with outstanding := q.outstanding.filter (fun o => o.handle != r.handle) })).queue (qKey (hPort r.handle) (hQueue r.handle))
      = { s.queue (qKey (hPort r.handle) (hQueue r.handle)) with
        outstanding := (s.queue (qKey (hPort r.handle) (hQueue r.handle))).outstanding.filter (fun o => o.handle != r.handle) } :=
    updQueue_queue _
  obtain ⟨hwritten, hports, hmem⟩ := ringWrite_room (k := qKey (hPort r.handle) (hQueue r.handle))
    (s := s.updQueue (qKey (hPort r.handle) (hQueue r.handle)) (fun q =>
      { q with outstanding := q.outstanding.filter (fun o => o.handle != r.handle) })) (by rw [hqueue]; exact hroom)
    (by rw [hqueue]; exact hfirst) r
  rw [hqueue] at hwritten hmem
  simp only [State.adapterTake, hout, hfinal, if_true]
  exact ⟨hwritten, hports, hmem⟩

/-- The next record of an UP port, with the count of those dropped before it, reaches its ring. -/
theorem doCompletionRecord_spec {p : Nat} {r : CompRec} {rest : List CompRec} (hup : (s.port p).state = 2) (hhold : (s.port p).hold = r :: rest)
    (h : s.TakesRecord k { r with dropped := min 0xFFFF (s.port p).dropped }) :
    let t := doCompletionRecord s p
    (t.port p).hold = rest ∧ (t.port p).dropped = 0
      ∧ (t.queue k).outstanding = (s.queue k).outstanding.filter (fun o => o.handle != r.handle)
      ∧ (t.queue k).cqTail = ((s.queue k).cqTail + 1) % cqSize (s.queue k)
      ∧ t.dev.ms.mem = memWriteList s.dev.ms.mem (ringAddr (s.queue k).cqBase + 64 * (s.queue k).cqTail)
        ({ r with dropped := min 0xFFFF (s.port p).dropped } : CompRec).bytes := by
  obtain ⟨hring, hout, hfinal, hroom, hfirst⟩ := h
  obtain ⟨hqueue, hports, hmem⟩ := adapterTake_spec (s := s.updPort p (fun x => { x with hold := rest, dropped := 0 }))
    ⟨hring, hout, hfinal, hroom, hfirst⟩
  have hport : (s.updPort p (fun x => { x with hold := rest, dropped := 0 })).port p = { s.port p with hold := rest, dropped := 0 } :=
    updPort_port p _
  simp only [doCompletionRecord, hup, if_true, State.deliverOne, hhold]
  rw [State.port, hports, ← State.port, hport, hqueue]
  exact ⟨rfl, rfl, rfl, rfl, hmem⟩

end

/-- Settles O41: the doorbell by counting the entries to its tail, the other writes of a ring by what they change. -/
theorem adapterRings : Obligations.AdapterRings := by
  unfold Obligations.AdapterRings
  intro s p q k x
  refine ⟨fun tail henabled hgood hhead => ?_, fun tail f hstopped => ?_, fun tail henabled hgood => ?_, fun head => ?_,
    fun value ack cq => ?_, fun r rest hup hhold hring hout hfinal hroom hfirst => ?_⟩
  · intro rung
    have hqueue : rung.queue k = { x with sqTail := tail &&& 0xFFFF } := updQueue_queue _
    have hgap := ringGap_lt hhead (Nat.mod_lt (tail &&& 0xFFFF).toNat (sqSize_bounds x).1)
    have hsize := (sqSize_bounds x).2
    have hfetch := fetchEntries_head (k := k) 1024 rung
    rw [hqueue] at hfetch
    obtain ⟨htail, hhead'⟩ := hfetch hhead (show ringGap x.sqHead ((tail &&& 0xFFFF).toNat % sqSize x) (sqSize x) ≤ 1024 by omega)
    exact ⟨_, (exec_sqDoorbell p q tail false s).trans (modRow_of_eq (doSqDoorbell_fetches henabled hgood tail).1), rfl, htail, hhead'⟩
  · exact (exec_sqDoorbell p q tail f s).trans (modRow_of_eq (doSqDoorbell_stopped hstopped tail f))
  · exact (exec_sqDoorbell p q tail true s).trans (modRow_of_eq (doSqDoorbell_fetches henabled hgood tail).2)
  · intro moved
    have hqueue : moved.queue k = { x with cqHead := head &&& 0xFFFF } := updQueue_queue _
    refine ⟨exec_cqHeadWrite p q head s, fun hnone => ?_, fun r hone hroom => ?_⟩
    · exact (exec_cqHeadWrite p q head s).trans (modRow_of_eq (drainRing_empty 4096 (by rw [hqueue]; exact hnone)))
    · obtain ⟨hwaits, htail, hmem⟩ := drainRing_one_spec (s := moved) (k := k) 4095 (by rw [hqueue]; exact hone) hroom
      rw [hqueue] at htail hmem
      exact ⟨_, exec_cqHeadWrite p q head s, hwaits, htail, hmem⟩
  · intro based
    refine ⟨fun hon => ?_, fun hoff hstays => ?_, fun hoff hstarts => ?_⟩ <;>
      refine (exec_queueEnable p q value ack cq s).trans (modRow_of_eq (updQueue_congr ?_))
    · exact if_pos hon
    · rw [if_neg (Bool.eq_false_iff.1 hoff), if_neg (Bool.eq_false_iff.1 hstays)]
    · rw [if_neg (Bool.eq_false_iff.1 hoff), if_pos hstarts]
  · intro r'
    exact ⟨_, exec_completionRecord p s, doCompletionRecord_spec hup hhold ⟨hring, hout, hfinal, hroom, hfirst⟩⟩

end Sys2Proof.Machine
end

section
/-! The Efmus ports (R514, R515, R529, R556): what the adapter does with the handles that it holds when a port rises or is lost. -/

namespace Sys2Proof.Machine

section
variable {s : State} {k : Nat}

theorem ringWrite_queue_ne {j : Nat} (h : j ≠ k) (r : CompRec) : (s.ringWrite k r).queue j = s.queue j := by
  unfold State.ringWrite
  dsimp only
  split
  · exact updQueue_queue_ne h _
  · exact (updQueue_queue_ne h _).trans rfl

theorem ringWrite_outstanding (r : CompRec) : ((s.ringWrite k r).queue k).outstanding = (s.queue k).outstanding := by
  unfold State.ringWrite
  dsimp only
  split <;> rw [updQueue_queue]
  rfl

theorem ringWrite_ports (r : CompRec) : (s.ringWrite k r).hst.ports = s.hst.ports := by
  unfold State.ringWrite
  dsimp only
  split <;> rfl

theorem adapterDone_queue_ne {j : Nat} (h : j ≠ k) (o : Outstanding) (status detail : Nat) :
    (s.adapterDone k o status detail).queue j = s.queue j := by
  unfold State.adapterDone
  dsimp only
  rw [ringWrite_queue_ne h, updQueue_queue_ne h]

/-- A handle that the adapter completes is no longer outstanding. -/
theorem adapterDone_outstanding (o : Outstanding) (status detail : Nat) :
    ((s.adapterDone k o status detail).queue k).outstanding = (s.queue k).outstanding.filter (fun x => x.handle != o.handle) := by
  unfold State.adapterDone
  dsimp only
  rw [ringWrite_outstanding, updQueue_queue]

theorem adapterDone_ports (o : Outstanding) (status detail : Nat) : (s.adapterDone k o status detail).hst.ports = s.hst.ports := by
  unfold State.adapterDone
  dsimp only
  rw [ringWrite_ports]
  rfl

/-- The adapter completes the handles of a queue that satisfy a condition, with status 0x30. -/
def State.completeWhere (P : Outstanding → Bool) (s : State) (k : Nat) : State :=
  ((s.queue k).outstanding.filter P).foldl (fun s o => s.adapterDone k o 0x30 0) s

theorem foldl_adapterDone (l : List Outstanding) : ∀ s : State,
    ((l.foldl (fun s o => s.adapterDone k o 0x30 0) s).queue k).outstanding
        = (s.queue k).outstanding.filter (fun x => l.all (fun o => x.handle != o.handle))
      ∧ (∀ j, j ≠ k → (l.foldl (fun s o => s.adapterDone k o 0x30 0) s).queue j = s.queue j)
      ∧ (l.foldl (fun s o => s.adapterDone k o 0x30 0) s).hst.ports = s.hst.ports := by
  induction l with
  | nil => exact fun s => ⟨(List.filter_eq_self.2 (fun _ _ => rfl)).symm, fun _ _ => rfl, rfl⟩
  | cons o l ih =>
    intro s
    obtain ⟨hout, hother, hports⟩ := ih (s.adapterDone k o 0x30 0)
    rw [List.foldl_cons]
    refine ⟨?_, fun j hj => (hother j hj).trans (adapterDone_queue_ne hj o _ _), hports.trans (adapterDone_ports o _ _)⟩
    rw [hout, adapterDone_outstanding, List.filter_filter]
    refine List.filter_congr (fun x _ => ?_)
    rw [List.all_cons, Bool.and_comm]

/-- Where no handle is on both sides of a condition, completing one side leaves the other. -/
theorem completeWhere_outstanding {P : Outstanding → Bool}
    (h : ∀ o ∈ (s.queue k).outstanding, ∀ o' ∈ (s.queue k).outstanding, P o ≠ P o' → o.handle ≠ o'.handle) :
    ((s.completeWhere P k).queue k).outstanding = (s.queue k).outstanding.filter (fun o => !P o) := by
  rw [State.completeWhere, (foldl_adapterDone _ s).1]
  refine List.filter_congr (fun x hx => ?_)
  cases hP : P x with
  | true => exact Bool.eq_false_iff.2 (fun hall => by simpa using List.all_eq_true.1 hall x (List.mem_filter.2 ⟨hx, hP⟩))
  | false =>
    refine List.all_eq_true.2 (fun o ho => ?_)
    obtain ⟨hmem, hPo⟩ := List.mem_filter.1 ho
    simpa using h x hx o hmem (by rw [hP, hPo]; decide)

theorem completeWhere_queue_ne {P : Outstanding → Bool} {j : Nat} (h : j ≠ k) : (s.completeWhere P k).queue j = s.queue j :=
  (foldl_adapterDone _ s).2.1 j h

theorem completeWhere_ports {P : Outstanding → Bool} : (s.completeWhere P k).hst.ports = s.hst.ports := (foldl_adapterDone _ s).2.2

/-- The same for both queues of a port. -/
theorem completePort_outstanding {P : Outstanding → Bool} (p : Nat)
    (h : ∀ q < 2, ∀ o ∈ (s.queue (qKey p q)).outstanding, ∀ o' ∈ (s.queue (qKey p q)).outstanding, P o ≠ P o' → o.handle ≠ o'.handle) :
    let t := (s.completeWhere P (qKey p 0)).completeWhere P (qKey p 1)
    (t.queue (qKey p 0)).outstanding = (s.queue (qKey p 0)).outstanding.filter (fun o => !P o)
      ∧ (t.queue (qKey p 1)).outstanding = (s.queue (qKey p 1)).outstanding.filter (fun o => !P o) ∧ t.hst.ports = s.hst.ports := by
  have hne : qKey p 0 ≠ qKey p 1 := by simp [qKey]
  have hkeeps : (s.completeWhere P (qKey p 0)).queue (qKey p 1) = s.queue (qKey p 1) := completeWhere_queue_ne hne.symm
  intro t
  refine ⟨?_, ?_, completeWhere_ports.trans completeWhere_ports⟩
  · rw [completeWhere_queue_ne hne]
    exact completeWhere_outstanding (h 0 (by decide))
  · rw [completeWhere_outstanding (by rw [hkeeps]; exact h 1 (by decide)), hkeeps]

theorem doPortLinkLost_of_down {p : Nat} (hdown : (s.port p).state ≠ 2) (hheld : (s.port p).lost = false) :
    doPortLinkLost s p = ((s.updPort p (fun x => { x with lost := true })).completeWhere (fun o => !o.kind5) (qKey p 0)).completeWhere
      (fun o => !o.kind5) (qKey p 1) := by
  have hgate : (decide ((s.port p).state = 2) || (s.port p).lost) = false := by
    rw [decide_eq_false hdown, hheld]
    rfl
  rw [doPortLinkLost, if_neg (Bool.eq_false_iff.1 hgate)]
  rfl

theorem doResetHoldTimeout_of_out {p : Nat} (hout : (s.port p).state ≠ 2 ∨ s.pwr.ready = false) :
    doResetHoldTimeout s p = (s.completeWhere (·.kind5) (qKey p 0)).completeWhere (·.kind5) (qKey p 1) := by
  have hgate : (decide ((s.port p).state = 2) && s.pwr.ready) = false := by
    obtain hdown | hunready := hout
    · rw [decide_eq_false hdown]
      rfl
    · rw [hunready, Bool.and_false]
  rw [doResetHoldTimeout, if_neg (Bool.eq_false_iff.1 hgate)]
  rfl

end

/-- Settles O42: a port rises and drops as its states say, and the two timeouts complete the handles on either side of `kind5`. -/
theorem efmusPorts : Obligations.EfmusPorts := by
  unfold Obligations.EfmusPorts
  intro s p told
  refine ⟨fun hdown => ?_, fun hup => ?_, fun hdown hheld h0 h1 => ?_, fun hout h0 h1 => ?_⟩
  · refine (exec_efmusPortUp p s).trans (modRow_of_eq ?_)
    rw [doEfmusPortUp, if_neg hdown]
  · refine (exec_efmusPortDown p s).trans (modRow_of_eq ?_)
    rw [doEfmusPortDown, if_neg (not_not.2 hup)]
  · obtain ⟨hfirst, hsecond, hports⟩ := completePort_outstanding (s := s.updPort p (fun x => { x with lost := true })) (P := fun o => !o.kind5) p
      (fun q hq => by
        obtain rfl | rfl : q = 0 ∨ q = 1 := by omega
        · exact fun o ho o' ho' hdiff => h0 o ho o' ho' (fun heq => hdiff (congrArg not heq))
        · exact fun o ho o' ho' hdiff => h1 o ho o' ho' (fun heq => hdiff (congrArg not heq)))
    simp only [Bool.not_not] at hfirst hsecond
    refine ⟨_, (exec_portLinkLost p s).trans (modRow_of_eq (doPortLinkLost_of_down hdown hheld)), ?_, hfirst, hsecond⟩
    rw [State.port, hports, ← State.port, updPort_port]
  · obtain ⟨hfirst, hsecond, -⟩ := completePort_outstanding (s := s) (P := (·.kind5)) p (fun q hq => by
      obtain rfl | rfl : q = 0 ∨ q = 1 := by omega
      · exact h0
      · exact h1)
    exact ⟨_, (exec_resetHoldTimeout p s).trans (modRow_of_eq (doResetHoldTimeout_of_out hout)), hfirst, hsecond⟩

end Sys2Proof.Machine
end

section
/-! Management commands through Moonlet (chapter 19), and debug tokens (chapter 18). -/

namespace Sys2Proof.Machine

section
variable {s : State}

/-! ### Settings and units (R475, R481, R494) -/

theorem inRange_iff {lo hi x : Nat} : inRange lo hi x = true ↔ lo ≤ x ∧ x ≤ hi := by simp [inRange]

theorem setSettings_in {ok : Bool} (hok : ok = true) (hup : s.pwr.moonletUp = true) (n : Settings) :
    s.setSettings ok n = { s with moon := { s.moon with next := some n, lastOk := true } } := by
  rw [State.setSettings, hok, hup]
  rfl

theorem setSettings_out {ok : Bool} (hok : ok = false) (n : Settings) : s.setSettings ok n = s.answer false := by
  rw [State.setSettings, hok]
  rfl

theorem mayReturn_iff {h : HealthRec} {level : Nat} :
    h.mayReturn level = true ↔ (h.state = 1 ∧ level < h.level) ∨ (h.state = 2 ∧ level ≤ h.level) := by simp [HealthRec.mayReturn]

theorem doUnitReturn_of_may {unit level : Nat} (hexists : unitExists unit = true) (hmay : (s.dev.health.get unit).mayReturn level = true) :
    doUnitReturn s unit level = (s.mapDev (·.updHealth unit (fun h => { h with returnTo := some level }))).answer true := by
  rw [doUnitReturn, hexists, hmay]
  rfl

theorem doUnitReturn_of_not {unit level : Nat} (hmay : (s.dev.health.get unit).mayReturn level = false) :
    doUnitReturn s unit level = s.answer false := by
  rw [doUnitReturn, hmay, Bool.and_false]
  rfl

end

/-- Settles O43: a setting is taken or refused by its ranges, a return by the unit's state. -/
theorem settings : Obligations.Settings := by
  unfold Obligations.Settings
  intro s
  refine ⟨fun a b c => ?_, fun a b c d => ?_, fun unit level hexists => ?_⟩
  · intro good
    have hgood : (inRange 2 255 a && inRange 1 8760 b && inRange 1 65535 c) = true ↔ good := by
      simp only [Bool.and_eq_true, inRange_iff, and_assoc, good]
    exact ⟨fun hin hup => (exec_setHealth a b c s).trans (modRow_of_eq (setSettings_in (hgood.2 hin) hup _)),
      fun hout => (exec_setHealth a b c s).trans (modRow_of_eq (setSettings_out (Bool.eq_false_iff.2 (mt hgood.1 hout)) _))⟩
  · intro good
    have hgood : (inRange 1 20000 a && inRange 1 1000 b && inRange 1 1000 c && inRange 2 100 d) = true ↔ good := by
      simp only [Bool.and_eq_true, inRange_iff, and_assoc, good]
    exact ⟨fun hin hup => (exec_setWatchdog a b c d s).trans (modRow_of_eq (setSettings_in (hgood.2 hin) hup _)),
      fun hout => (exec_setWatchdog a b c d s).trans (modRow_of_eq (setSettings_out (Bool.eq_false_iff.2 (mt hgood.1 hout)) _))⟩
  · intro h may
    refine ⟨fun hmay => ?_, fun hmay => ?_⟩
    · exact ⟨_, (exec_unitReturn unit level s).trans (modRow_of_eq (doUnitReturn_of_may hexists (mayReturn_iff.2 hmay))),
        Bank.get_set_same .., rfl⟩
    · exact (exec_unitReturn unit level s).trans (modRow_of_eq (doUnitReturn_of_not (Bool.eq_false_iff.2 (mt mayReturn_iff.1 hmay))))

/-- The bank of an image that is not in use takes a new image (R543). -/
def FwBanks.updated (b : FwBanks) (image : List Byte) : FwBanks := if b.usedB then { b with bankA := image } else { b with bankB := image }

/-- Settles O44: the replies of the reads, the bank that a firmware image fills, and the release of ALERT_N. -/
theorem managementReads : Obligations.ManagementReads := by
  unfold Obligations.ManagementReads
  intro s
  refine ⟨fun n c hfound => ?_, fun n hnone => ?_, fun n => exec_readErrors n s, fun l hrunning => ?_, fun io isCp l => ?_, ?_⟩
  · refine (exec_readCrash n s).trans (modRow_of_eq ?_)
    simp only [doReadCrash, hfound]
    rfl
  · refine (exec_readCrash n s).trans (modRow_of_eq ?_)
    simp only [doReadCrash, hnone]
    rfl
  · refine (exec_spdmRequest l s).trans (modRow_of_eq ?_)
    rw [doSpdmRequest, if_neg (not_not.2 hrunning)]
    rfl
  · refine ⟨_, exec_firmwareUpdate io isCp l s, ?_⟩
    intro i b
    have hbank : (s.sec.fw.upd i (·.updated l)).get i = b.updated l := by rw [Bank.get_upd, if_pos rfl]
    refine ⟨fun hB => hbank.trans (if_pos hB), fun hA => hbank.trans (if_neg (Bool.eq_false_iff.1 hA)), fun j hj => ?_⟩
    exact (Bank.get_upd s.sec.fw j i (·.updated l)).trans (if_neg hj)
  · exact ⟨_, exec_eventAcknowledge s, rfl, Bool.or_true _⟩

/-- Settles O45: a clear changes its own unit, and a masked write by the class of each field. -/
theorem clearsAndRegisterWrites : Obligations.ClearsAndRegisterWrites := by
  unfold Obligations.ClearsAndRegisterWrites
  intro s
  refine ⟨fun n => ⟨_, exec_satCountClear n s, Bank.get_set_same .., rfl, fun m hm => Bank.get_set_ne _ hm _⟩,
    fun u => ⟨_, exec_hotClear u s, Bank.get_set_same .., rfl, fun v hv => Bank.get_set_ne _ hv _⟩,
    fun k => ⟨_, exec_segFaultClear k s, Bank.get_set_same .., rfl, fun j hj => Bank.get_set_ne _ hj _⟩,
    fun a v m b hmay hrails hblock => ?_, fun a v m hrefused => ?_, fun c v m x y hv hm => ?_⟩
  · refine (exec_regWrite a v m s).trans (modRow_of_eq ?_)
    simp only [doRegWrite, hmay, hrails, hblock, Bool.not_true, Bool.or_self, Bool.false_eq_true, if_false]
  · refine (exec_regWrite a v m s).trans (modRow_of_eq ?_)
    have hgate : (s.regRefused a.toNat || !s.pwr.railsOk) = true := by
      obtain h | h := hrefused
      · rw [h, Bool.true_or]
      · rw [h, Bool.not_false, Bool.or_true]
    simp only [doRegWrite, hgate, if_true]
    rfl
  · subst hv hm
    exact ⟨rfl, rfl⟩

section
variable {s : State}

/-! ### Debug tokens and the module's reset (R503, R558, R559) -/

theorem endSession_debug (s : State) : s.endSession.sec.debug = s.sec.debug := by rw [endSession_sec]

/-- The state in which a token's rights are in force. -/
def State.tokenGiven (s : State) (t : BitVec 2560) : State :=
  { s with
    sec := { (s.sec.consume (of384 (tkField t 56 103))) with debug := tkRights t, debugUntil := s.dev.poweredMin + tkDuration t }
    moon := { s.moon with lastOk := s.tokenOk t } }

theorem doDebugToken_refused {t : BitVec 2560} (hready : s.pwr.ready = true) (hbad : s.tokenOk t = false) :
    let read : State := { s with sec := s.sec.consume (of384 (tkField t 56 103)), moon := { s.moon with lastOk := s.tokenOk t } }
    doDebugToken s t = { read with sec := { read.sec with openFails := satAdd 0xFF read.sec.openFails 1 } } := by
  intro read
  simp only [doDebugToken, hready, hbad, Bool.not_true, Bool.not_false, Bool.false_eq_true, if_false, if_true, read]

theorem doDebugToken_given {t : BitVec 2560} (hready : s.pwr.ready = true) (hgood : s.tokenOk t = true) :
    doDebugToken s t = if bitOf (tkRights t) 3 then
      { (s.tokenGiven t).endSession with sec := (s.tokenGiven t).endSession.sec.lockT2 } else s.tokenGiven t := by
  simp only [doDebugToken, hready, hgood, Bool.not_true, Bool.false_eq_true, if_false, State.tokenGiven]
  rfl

theorem lockT2_debug {x : Sec} (h : bitOf x.debug 3 = true) : x.lockT2 = { x with t2Key := none } := by
  rw [Sec.lockT2, Sec.fwDebug, if_pos h]

theorem releaseWaiting_none (h : s.hst.waiting = []) : s.releaseWaiting = s.noneWaiting := by
  rw [State.releaseWaiting, h]
  show ({ (releasePass [] s.hst.waiting s).1 with hst := { (releasePass [] s.hst.waiting s).1.hst with
    waiting := (releasePass [] s.hst.waiting s).2 } } : State) = s.noneWaiting
  rw [h]
  rfl

/-- A module in Umbra wakes READY (R578). -/
theorem doWake_of_umbra (humbra : s.pwr.umbra = true) (hrunning : s.pwr.state = .running) :
    (doWake s).pwr.umbra = false ∧ (doWake s).pwr.ready = true ∧ (doWake s).moon.lastOk = true ∧ (doWake s).hst = s.hst := by
  have hgate : (!s.pwr.umbra || s.pwr.state != .running) = false := by
    rw [humbra, hrunning]
    rfl
  have hok : (s.pwr.umbra && s.pwr.state == .running) = true := by
    rw [humbra, hrunning]
    rfl
  rw [doWake, State.wake, if_neg (Bool.eq_false_iff.1 hgate)]
  refine ⟨rfl, rfl, hok, ?_⟩
  dsimp only [State.mapDev, State.advanceTo]

end

/-- Settles O46: a token by its checks and rights, its expiry, the wake, and the reset by the state of the power. -/
theorem debugAndModuleReset : Obligations.DebugAndModuleReset := by
  unfold Obligations.DebugAndModuleReset
  intro s
  refine ⟨fun t hready => ?_, fun hforce => ?_, fun humbra hrunning hnone => ?_, fun hrunning => ?_, fun hpowering => ?_,
    fun hnot hnot' => ?_⟩
  · intro read given
    refine ⟨fun hbad => ?_, fun hgood hplain => ?_, fun hgood hdebug => ?_⟩ <;>
      refine (exec_debugToken t s).trans (modRow_of_eq (congrArg State.releaseWaiting ?_))
    · exact doDebugToken_refused hready hbad
    · rw [doDebugToken_given hready hgood, if_neg (Bool.eq_false_iff.1 hplain)]
      rfl
    · rw [doDebugToken_given hready hgood, if_pos hdebug, lockT2_debug (by rw [endSession_debug]; exact hdebug)]
      rfl
  · exact ⟨_, (exec_debugExpiry s).trans (modRow_of_eq (if_neg hforce)), rfl, rfl, rfl,
      if_neg (show ¬ bitOf (0 : BitVec 4) 3 = true by decide)⟩
  · obtain ⟨hawake, hready, hok, hhst⟩ := doWake_of_umbra humbra hrunning
    refine ⟨_, (exec_wake s).trans (modRow_of_eq (releaseWaiting_none (by rw [hhst]; exact hnone))), hawake, hready, hok⟩
  · refine (exec_moduleReset s).trans (modRow_of_eq (congrArg State.releaseWaiting ?_))
    simp only [doModuleReset, hrunning]
  · refine (exec_moduleReset s).trans (modRow_of_eq (congrArg State.releaseWaiting ?_))
    simp only [doModuleReset, hpowering]
  · refine (exec_moduleReset s).trans (modRow_of_eq (congrArg State.releaseWaiting ?_))
    unfold doModuleReset
    split
    · next h => exact absurd h hnot
    · next h => exact absurd h hnot'
    · rfl

end Sys2Proof.Machine
end

section
/-! Orbits (chapters 7, 12, 13): the norm deadline, the last tick, the completion record and the start slot. -/

namespace Sys2Proof.Machine

variable {s : State} {d : Dev} {r : OrbitRun}

/-! ### The newest run -/

theorem updLast_of_last (h : d.runs.getLast? = some r) (f : OrbitRun → OrbitRun) :
    d.updLast f = { d with runs := d.runs.dropLast ++ [f r] } := by
  simp only [Dev.updLast, h]

theorem updLast_getLast? (h : d.runs.getLast? = some r) (f : OrbitRun → OrbitRun) : (d.updLast f).runs.getLast? = some (f r) := by
  rw [updLast_of_last h]
  exact List.getLast?_concat

theorem curRun_last (h : d.curRun = some r) : d.runs.getLast? = some r := by
  unfold Dev.curRun at h
  split at h
  · split at h
    · cases h
    · next hlast _ => rw [hlast, h]
  · cases h

theorem curRun_of_ended (h : d.runs.getLast? = some r) (hended : r.ended = true) : d.curRun = none := by
  simp only [Dev.curRun, h, hended, if_true]

/-! ### The last tick (R219, R423, R425) -/

theorem updRun_const_nums {n : Nat} {r' : OrbitRun} (h : r'.num = n) (l : List OrbitRun) :
    (updRun n (fun _ => r') l).map (·.num) = l.map (·.num) := by
  induction l with
  | nil => rfl
  | cons x xs ih =>
    rw [updRun]
    split
    · next hx => simp only [List.map_cons, h, hx.1]
    · simp only [List.map_cons, ih]

/-- What a missed transfer leaves of the dies: the time, the numbers of their runs and the stream semaphores. -/
def Dev.orbitFrame (d : Dev) : Nat × List Nat × Bank (BitVec 16) := (d.time, d.runs.map (·.num), d.streamSems)

theorem pushErr_streamSems (d : Dev) (type status unit kind where_ residue : Nat) :
    (d.pushErr type status unit kind where_ residue).streamSems = d.streamSems := by
  unfold Dev.pushErr
  dsimp only
  split <;> rfl

theorem voteVoid_nums (d : Dev) (n bit unit status : Nat) : (d.voteVoid n bit unit status).runs.map (·.num) = d.runs.map (·.num) := by
  cases h : findRun n d.runs with
  | none => simp only [Dev.voteVoid, h]
  | some r => rw [voteVoid_runs h, updRun_const_nums (r' := r.voidedFor bit unit status) (findRun_spec h).1]

theorem voteVoid_streamSems (d : Dev) (n bit unit status : Nat) : (d.voteVoid n bit unit status).streamSems = d.streamSems := by
  unfold Dev.voteVoid
  split
  · rfl
  · simp only [apply_ite Dev.streamSems, pushErr_streamSems, ite_self]

theorem voteVoid_orbitFrame (d : Dev) (n bit unit status : Nat) : (d.voteVoid n bit unit status).orbitFrame = d.orbitFrame := by
  rw [Dev.orbitFrame, voteVoid_time, voteVoid_nums, voteVoid_streamSems]
  rfl

theorem sendSig_orbitFrame (d : Dev) (w : IWord) (n : Nat) : (d.sendSig w n).orbitFrame = d.orbitFrame := by
  unfold Dev.sendSig
  split <;> rfl

theorem missCounted_orbitFrame (s : State) (io i : Nat) (r : OrbitRun) (x : Xfer) :
    (s.missCounted io i r x).dev.orbitFrame = s.dev.orbitFrame := by
  unfold State.missCounted
  dsimp only
  split
  · split
    · exact voteVoid_orbitFrame ..
    · rfl
  · split <;> split <;> rfl

theorem miss_orbitFrame (s : State) (io i : Nat) (r : OrbitRun) (x : Xfer) : (s.miss io i r x).dev.orbitFrame = s.dev.orbitFrame := by
  rw [miss_eq, ← missCounted_orbitFrame s io i r x]
  split
  · rfl
  · exact sendSig_orbitFrame ..

/-- The transfers of an IO die that have not arrived are missed. -/
def State.missOpen (s : State) (r : OrbitRun) (io : Nat) : State :=
  (s.openBe io r).foldl (fun s i => s.miss io i r (s.xfer io i r)) s

theorem missOpen_orbitFrame (s : State) (r : OrbitRun) (io : Nat) : (s.missOpen r io).dev.orbitFrame = s.dev.orbitFrame := by
  unfold State.missOpen
  generalize s.openBe io r = l
  induction l generalizing s with
  | nil => rfl
  | cons i l ih => exact (ih _).trans (miss_orbitFrame ..)

/-- The state at the last tick of an orbit, its late transfers missed. -/
def State.lastTick (s : State) (r : OrbitRun) : State := ((s.advanceTo (r.start + tickT * (s.orbitTicks - 1))).missOpen r 0).missOpen r 1

theorem lastTick_orbitFrame (s : State) (r : OrbitRun) :
    (s.lastTick r).dev.orbitFrame = (max s.dev.time (r.start + tickT * (s.orbitTicks - 1)), s.dev.runs.map (·.num), s.dev.streamSems) :=
  (missOpen_orbitFrame ..).trans (missOpen_orbitFrame ..)

/-- The stream semaphores of an orbit's bank return to their reset value. -/
def clearStreams (n : Nat) (b : Bank (BitVec 16)) : Bank (BitVec 16) :=
  [0, 1].foldl (fun b io => b.clear (streamKey io n 0) (streamKey io n 0 + 1024)) b

theorem clearStreams_get (n : Nat) (b : Bank (BitVec 16)) {io j : Nat} (hio : io < 2) (hj : j < 1024) :
    (clearStreams n b).get (streamKey io n j) = b.dflt := by
  have hbank : (b.clear (streamKey 0 n 0) (streamKey 0 n 0 + 1024)).dflt = b.dflt := rfl
  simp only [clearStreams, List.foldl_cons, List.foldl_nil, Bank.get_clear, hbank]
  obtain rfl | rfl : io = 0 ∨ io = 1 := by omega
  · split
    · rfl
    · rw [if_pos (by unfold streamKey; omega)]
  · rw [if_pos (by unfold streamKey; omega)]

/-- The run has ended, and its stream semaphores are free for the orbit after the next. -/
def Dev.endOrbit (d : Dev) (n : Nat) : Dev :=
  { d.updLast (fun r => { r with ended := true, degraded := r.degraded || decide (0 < d.retiredCount) }) with
    streamSems := clearStreams n d.streamSems }

theorem doOrbitEnd_of_run (h : s.dev.curRun = some r) :
    doOrbitEnd s = (((s.lastTick r).mapDev (·.endOrbit r.num)).slackEvent 0).slackEvent 1 := by
  rw [doOrbitEnd, h]
  rfl

theorem slackEvent_dev (s : State) (io : Nat) : (s.slackEvent io).dev = s.dev := by
  unfold State.slackEvent
  split <;> rfl

theorem lastTick_last (h : s.dev.runs.getLast? = some r) : ∃ x, (s.lastTick r).dev.runs.getLast? = some x ∧ x.num = r.num := by
  have hnums : (s.lastTick r).dev.runs.map (·.num) = s.dev.runs.map (·.num) := congrArg (·.2.1) (lastTick_orbitFrame s r)
  have hlast : ((s.lastTick r).dev.runs.map (·.num)).getLast? = some r.num := by rw [hnums, List.getLast?_map, h]; rfl
  rwa [List.getLast?_map, Option.map_eq_some_iff] at hlast

/-- An orbit ends: its run, the time and its stream semaphores. -/
theorem doOrbitEnd_ends (h : s.dev.curRun = some r) : ∃ r', (doOrbitEnd s).dev.runs.getLast? = some r' ∧ r'.num = r.num ∧ r'.ended = true
    ∧ (doOrbitEnd s).dev.time = max s.dev.time (r.start + tickT * (s.orbitTicks - 1))
    ∧ (doOrbitEnd s).dev.streamSems = clearStreams r.num s.dev.streamSems := by
  obtain ⟨x, hx, hnum⟩ := lastTick_last (curRun_last h)
  have hdev : (doOrbitEnd s).dev = (s.lastTick r).dev.endOrbit r.num := by
    rw [doOrbitEnd_of_run h, slackEvent_dev, slackEvent_dev]
    rfl
  have htime : (s.lastTick r).dev.time = _ := congrArg (·.1) (lastTick_orbitFrame s r)
  have hsems : (s.lastTick r).dev.streamSems = _ := congrArg (·.2.2) (lastTick_orbitFrame s r)
  have hend := updLast_of_last hx (fun q => { q with ended := true, degraded := q.degraded || decide (0 < (s.lastTick r).dev.retiredCount) })
  rw [hdev, Dev.endOrbit, hend]
  exact ⟨_, List.getLast?_concat, hnum, rfl, htime, by rw [hsems]⟩

/-! ### The norm deadline (R378) -/

/-- A memory-side unit after the deadline: it is in the orbit `next` with its lists armed, and its pass 2 stands as it was. -/
structure Msu.Passed (m m' : Msu) (next : Nat) : Prop where
  orbit : m'.orbit = next
  passed : m'.passed = []
  runs : m'.runs = []
  pass2 : m'.pass2 = m.pass2

theorem Msu.Passed.trans {m m' m'' : Msu} {next : Nat} (h : m.Passed m' next) (h' : m'.Passed m'' next) : m.Passed m'' next :=
  ⟨h'.orbit, h'.passed, h'.runs, h'.pass2.trans h.pass2⟩

theorem sendPass2Sig_signals (d : Dev) (next : Nat) (incl : Bool) (c : Nat) : ∃ q, d.sendPass2Sig next incl c = { d with signals := q } := by
  unfold Dev.sendPass2Sig Dev.sendCmdSig
  dsimp only
  split
  · exact ⟨_, rfl⟩
  · exact ⟨_, rfl⟩

theorem sendPass2Sigs_signals (d : Dev) (next : Nat) (incl : Bool) (l : List Nat) :
    ∃ q, l.foldl (fun d c => d.sendPass2Sig next incl c) d = { d with signals := q } := by
  induction l generalizing d with
  | nil => exact ⟨_, rfl⟩
  | cons c l ih =>
    obtain ⟨q, h⟩ := sendPass2Sig_signals d next incl c
    rw [List.foldl_cons, h]
    exact ih _

/-- The dies with other memory-side units and other signals on their way. -/
def Dev.withMsus (d : Dev) (b : Bank Msu) (q : List SigFlight) : Dev := { d with msus := b, signals := q }

/-- A unit that advances without pass 2 changes its own state and the signals on their way. -/
theorem msuAdvance_passes (d : Dev) (n next : Nat) (u : Nat) : ∃ m q, d.msuAdvance n 4 next false u
    = d.withMsus (d.msus.set u m) q ∧ (d.msu u).Passed m next := by
  have hrun : ¬4 = ocRun := by decide
  unfold Dev.msuAdvance
  simp only [if_neg hrun, List.append_nil]
  obtain ⟨q, h⟩ := sendPass2Sigs_signals (d.updMsu u _) next false (sortNat (d.updateCmds u))
  exact ⟨_, q, h, rfl, rfl, rfl, rfl⟩

/-- Every unit of a list advances, and no other. -/
theorem msuAdvances_pass (d : Dev) (n next : Nat) (l : List Nat) :
    ∃ b q, l.foldl (fun d u => d.msuAdvance n 4 next false u) d = d.withMsus b q
      ∧ ∀ u, (u ∈ l → (d.msu u).Passed (b.get u) next) ∧ (u ∉ l → b.get u = d.msu u) := by
  induction l generalizing d with
  | nil => exact ⟨_, _, rfl, fun u => ⟨fun h => absurd h List.not_mem_nil, fun _ => rfl⟩⟩
  | cons a l ih =>
    obtain ⟨m, q, hfirst, ha⟩ := msuAdvance_passes d n next a
    obtain ⟨b, q', hrest, hb⟩ := ih (d.withMsus (d.msus.set a m) q)
    rw [List.foldl_cons, hfirst]
    refine ⟨b, q', hrest, fun u => ?_⟩
    obtain ⟨hin, hout⟩ := hb u
    by_cases hu : u = a
    · subst hu
      have hm : (d.withMsus (d.msus.set u m) q).msu u = m := Bank.get_set_same ..
      rw [hm] at hin hout
      refine ⟨fun _ => ?_, fun h => absurd List.mem_cons_self h⟩
      by_cases hl : u ∈ l
      · exact ha.trans (hin hl)
      · rw [hout hl]
        exact ha
    · have hm : (d.withMsus (d.msus.set a m) q).msu u = d.msu u := Bank.get_set_ne _ hu _
      rw [hm] at hin hout
      simpa only [List.mem_cons, hu, false_or] using And.intro hin hout

/-- The run of a module that lacked a record at the deadline. -/
def OrbitRun.missedNorms (r : OrbitRun) : OrbitRun := { r with normClosed := true, deadline := true, outcome := 4 }

/-- A module that lacks a record bars later orbits. -/
def Dev.missNorms (d : Dev) (r : OrbitRun) : Dev :=
  { d with runs := d.runs.dropLast ++ [r.missedNorms], restrict := some (d.restrict.getD 0x23) }

theorem doNormDeadline_of_missing (hrun : d.exchRun = some r) (hopen : r.normClosed = false) (hout : r.outcome = 0)
    (hplan : d.plan.installed = true) (hmissing : d.recordsIn = false) :
    doNormDeadline d = ((List.range 16).foldl (fun d u => d.msuAdvance r.num 4 (r.num + 1) false u) (d.missNorms r)).notePass2 := by
  have hrecords (q : List OrbitRun) : Dev.recordsIn { d with runs := q } = false := hmissing
  have hlast : d.runs.getLast? = some r := hrun
  have hlast' (q : OrbitRun) : (d.runs.dropLast ++ [q]).getLast? = some q := List.getLast?_concat
  simp only [doNormDeadline, hrun, hopen, hplan, Bool.not_true, Bool.false_eq_true, or_self, if_false, Dev.updLast, hlast, hlast',
    List.dropLast_concat, hout, ne_eq, not_true_eq_false, hrecords, Bool.and_false]
  rfl

theorem notePass2_cases (d : Dev) :
    d.notePass2 = d ∨ d.notePass2 = { d with runs := d.runs.map (fun r => if r.outcome = 0 then r else { r with updated := true }) } := by
  unfold Dev.notePass2
  split
  · exact .inr rfl
  · exact .inl rfl

/-- Of the dies, the look for what pass 2 still owes changes at most that their runs are updated. -/
theorem notePass2_frame (d : Dev) : d.notePass2.msus = d.msus ∧ d.notePass2.ms = d.ms ∧ d.notePass2.restrict = d.restrict := by
  obtain h | h := notePass2_cases d <;> rw [h] <;> exact ⟨rfl, rfl, rfl⟩

theorem notePass2_last (h : d.runs.getLast? = some r.missedNorms) : ∃ r', d.notePass2.exchRun = some r' ∧ r'.num = r.num
    ∧ r'.normClosed = true ∧ r'.deadline = true ∧ r'.outcome = 4 := by
  obtain e | e := notePass2_cases d
  · rw [e]
    exact ⟨_, h, rfl, rfl, rfl, rfl⟩
  · rw [e, Dev.exchRun, List.getLast?_map, h]
    exact ⟨_, rfl, rfl, rfl, rfl, rfl⟩

/-- What a module that lacks a record leaves at the deadline (R378). -/
theorem doNormDeadline_bars (hrun : d.exchRun = some r) (hopen : r.normClosed = false) (hout : r.outcome = 0)
    (hplan : d.plan.installed = true) (hmissing : d.recordsIn = false) :
    (∃ r', (doNormDeadline d).exchRun = some r' ∧ r'.num = r.num ∧ r'.normClosed = true ∧ r'.deadline = true ∧ r'.outcome = 4)
    ∧ (∀ u < 16, (d.msu u).Passed ((doNormDeadline d).msu u) (r.num + 1)) ∧ (doNormDeadline d).ms = d.ms
    ∧ (doNormDeadline d).restrict = some (d.restrict.getD 0x23) := by
  obtain ⟨b, q, hall, hunits⟩ := msuAdvances_pass (d.missNorms r) r.num (r.num + 1) (List.range 16)
  rw [doNormDeadline_of_missing hrun hopen hout hplan hmissing, hall]
  obtain ⟨hmsus, hms, hrestrict⟩ := notePass2_frame ((d.missNorms r).withMsus b q)
  refine ⟨notePass2_last List.getLast?_concat, fun u hu => ?_, hms, hrestrict⟩
  have hget : ((d.missNorms r).withMsus b q).notePass2.msu u = b.get u := congrArg (Bank.get · u) hmsus
  rw [hget]
  exact (hunits u).1 (List.mem_range.2 hu)

theorem doNormDeadlineAt_of_closed (hrun : s.dev.exchRun = some r) (hopen : r.normClosed = false) (hclosed : r.closed = true) :
    doNormDeadlineAt s =
      if (doNormDeadline (s.dev.advanceTo (r.start + tickT * s.redTick rhNormDeadline))).restrict ≠ s.dev.restrict
      then ((s.advanceTo (r.start + tickT * s.redTick rhNormDeadline)).mapDev doNormDeadline).event
      else (s.advanceTo (r.start + tickT * s.redTick rhNormDeadline)).mapDev doNormDeadline := by
  simp only [doNormDeadlineAt, hrun, hopen, hclosed, Bool.false_eq_true, if_false, if_true]
  rfl

/-- The deadline moves the dies, and a module that is barred by it says so once. -/
theorem doNormDeadlineAt_event (hrun : s.dev.exchRun = some r) (hopen : r.normClosed = false) (hclosed : r.closed = true)
    {b : Byte} (hbars : (doNormDeadline (s.dev.advanceTo (r.start + tickT * s.redTick rhNormDeadline))).restrict = some (s.dev.restrict.getD b)) :
    (doNormDeadlineAt s).dev = doNormDeadline (s.dev.advanceTo (r.start + tickT * s.redTick rhNormDeadline))
    ∧ (doNormDeadlineAt s).moon.events = if s.dev.restrict = none then s.moon.events + 1 else s.moon.events := by
  rw [doNormDeadlineAt_of_closed hrun hopen hclosed, hbars]
  cases h : s.dev.restrict with
  | none => exact ⟨rfl, rfl⟩
  | some x =>
    rw [if_neg (by simp), if_neg (by simp)]
    exact ⟨rfl, rfl⟩

/-! ### Completion and start (R234, R524, R594) -/

theorem doOrbitStart_of_rebound {c : StartCmd} {d' : Dev} (hstart : s.fab.start = some c) (hopen : c.closing = false) (hleft : c.begun < c.count)
    (hends : (doOrbitEnd (doNormDeadlineAt s)).dev.runs.any (fun r => !r.completed && r.ends) = false)
    (hbar : (doOrbitEnd (doNormDeadlineAt s)).barred = none)
    (hbind : ((doOrbitEnd (doNormDeadlineAt s)).atStartSlot c).dev.rebindAll = some d') :
    doOrbitStart s = { (doOrbitEnd (doNormDeadlineAt s)).atStartSlot c with dev := d' }.applyDeferred.beginOrbit c d'.moduleFault := by
  have hmore : ¬c.count ≤ c.begun := by omega
  simp only [doOrbitStart, hstart, hopen, hmore, hends, hbar, hbind, decide_false, Bool.or_self, Bool.false_eq_true, if_false]

theorem doOrbitCompletion_of_done {c : StartCmd} (hrun : s.dev.oldestRun = some r) (hstart : s.fab.start = some c)
    (hdone : s.orbitDone r = true) :
    doOrbitCompletion s =
      let closing := c.closing || endsStart r.status
      let final := c.begun == c.completed + 1 && (closing || c.completed + 1 == c.count)
      let sent := s.record c.port c.handle 0x11 r.status (r.flags final) r.num (r.detail (c.completed + 1) s.dev.retiredCount)
      { sent with
        dev := { sent.dev with runs := completeFirst sent.dev.runs }
        fab := { sent.fab with
          start := if final then none else some { c with completed := c.completed + 1, closing := closing }
          orbit := if r.voided then sent.fab.orbit else sent.fab.orbit + 1
          red := { sent.fab.red with probeDone := sent.fab.red.probeDone || (r.probe && !r.voided) } } } := by
  rw [doOrbitCompletion, hrun, hstart]
  simp only [hdone, Bool.not_true, Bool.false_eq_true, if_false]

/-- Settles O20: each event of an orbit, under the conditions that let it happen. -/
theorem orbitEvents : Obligations.OrbitEvents := by
  unfold Obligations.OrbitEvents
  intro s
  refine ⟨fun r hrun hopen hclosed hout hplan hmissing => ?_, fun r hrun => ?_, fun r c hrun hstart hdone => ?_,
    fun c d' hstart hopen hleft => ?_⟩
  · obtain ⟨⟨r', hlast, hnum, hnorm, hlate, hcode⟩, hunits, hms, hrestrict⟩ :=
      doNormDeadline_bars (d := s.dev.advanceTo (r.start + tickT * s.redTick rhNormDeadline)) hrun hopen hout hplan hmissing
    obtain ⟨hdev, hevents⟩ := doNormDeadlineAt_event hrun hopen hclosed hrestrict
    refine ⟨doNormDeadlineAt s, r', exec_normDeadline s, ?_⟩
    rw [hdev]
    refine ⟨hrestrict, hlast, hnum, hnorm, hlate, hcode, fun u hu => ?_, hms, hevents⟩
    obtain ⟨horbit, hpassed, hruns, hpass2⟩ := hunits u hu
    exact ⟨horbit, hpassed, hruns, hpass2⟩
  · obtain ⟨r', hlast, hnum, hended, htime, hsems⟩ := doOrbitEnd_ends hrun
    refine ⟨doOrbitEnd s, r', exec_orbitEnd s, curRun_of_ended hlast hended, hlast, hnum, hended, htime, fun io hio j hj => ?_⟩
    rw [hsems]
    exact clearStreams_get _ _ hio hj
  · exact (exec_orbitCompletion s).trans (modRow_of_eq (congrArg State.releaseWaiting (doOrbitCompletion_of_done hrun hstart hdone)))
  · intro before hends hbar hbind
    exact (exec_orbitStart s).trans (modRow_of_eq (congrArg State.releaseWaiting (doOrbitStart_of_rebound hstart hopen hleft hends hbar hbind)))

end Sys2Proof.Machine
end
